-- ==== Sys2Proof/Word.lean ====
section
/-! DEFINITION. The word types of the model: a byte, a 32-bit register word (R7), a 64-bit register of a set (R71)
and the 26-bit offset of a control-space address (R33). -/

namespace Sys2Proof

/-- One byte. -/
abbrev Byte := BitVec 8

/-- One 32-bit control-space register word. -/
abbrev Word := BitVec 32

/-- One 64-bit value. -/
abbrev DWord := BitVec 64

/-- An offset within the 64 MiB control space. -/
abbrev CtlAddr := BitVec 26

end Sys2Proof
end

