-- ==== Sys2Proof/Operand.lean ====
section
/-! DEFINITION. The kinds of operand that commands carry: the access paths of R12, the engines of R465, and the small
closed sets of names the chapters use for an operand. The commands themselves are in Syntax.lean. -/

namespace Sys2Proof

/-- An access path to the control space (R12, R13). -/
inductive Path where
  | pcie0
  | pcie1
  | fabric (src : BitVec 12)
  | caller
deriving DecidableEq, Repr

/-- The three planes (R25), as record headers number them (R450). -/
inductive Plane where
  | management | control | data
deriving DecidableEq, Repr

/-- What a test of one set found at SET_TEST (R57, R58): whether its control core, set memory or vector engine failed,
and for each of its four arrays the K-rows that failed and whether the retest with the spare row passed. -/
structure SetTest where
  set      : Fin 768
  coreFail : Bool
  rows     : List (List (Fin 32))
  retestOk : List Bool
deriving DecidableEq, Repr

/-- A memory tier (R213). -/
inductive Tier where
  | a | b | c
deriving DecidableEq, Repr

/-- What an engine watchdog watches (R465): for the two kinds of set engine the ENGINE_ID is the same, so the kind of
wait is named beside it. -/
inductive WatchKind where
  | setWait | arrayPass | promBlock | shared
deriving DecidableEq, Repr

/-- The temperature sensors of R519. -/
inductive TempSensor where
  | die (d : Fin 4)
  | stack (n : Fin 12)
  | engine (e : Fin 4)
  | plateIn
  | plateOut
deriving DecidableEq, Repr

/-- What error the cells of a line of memory show when it is read (R224, R241): none beyond what they already hold, one
that is corrected, one that is not, or the same two in the line's copy in the cache slice. -/
inductive Upset where
  | none | corrected | uncorrectable | sliceCorrected | sliceDirty
deriving DecidableEq, Repr

/-- What the tracking loop finds on one ring of a bank (R293, R300): its demand, the error of its lane in MHz (signed), and
whether the update moved the demand by more than the equivalent of 100 GHz. -/
structure RingLoop where
  slot   : Fin 16
  demand : BitVec 16
  err    : BitVec 32
  jumped : Bool
deriving DecidableEq, Repr

/-! Operands of vector instructions (R105, R119, R121): predication, and the register fields each shape has. -/

/-- Predication: none for PEN 0, else PRED and PZ. -/
abbrev PredMode := Option (Fin 8 × Bool)

/-- VD, VA. -/
structure V1Args where
  vd : Fin 32
  va : Fin 32
  pm : PredMode
  ty : BitVec 3
deriving DecidableEq, Repr

/-- VD, VA, VB; with BS the VB field names a scalar register. -/
structure V2Args where
  vd : Fin 32
  va : Fin 32
  vb : Fin 32
  bs : Bool
  pm : PredMode
  ty : BitVec 3
deriving DecidableEq, Repr

/-- VD, VA, VB, VC. -/
structure V3Args where
  vd : Fin 32
  va : Fin 32
  vb : Fin 32
  vc : Fin 32
  bs : Bool
  pm : PredMode
  ty : BitVec 3
deriving DecidableEq, Repr

/-- PD, VA, VB of a comparison. -/
structure VCArgs where
  pd : Fin 8
  va : Fin 32
  vb : Fin 32
  bs : Bool
  pm : PredMode
  ty : BitVec 3
deriving DecidableEq, Repr

end Sys2Proof
end

