-- ==== Sys2Proof/Syntax.lean ====
section
/-! DEFINITION. The commands of the block: one constructor per row of spec/opcode_table.json, in the order of the table,
with the operands the rule of the row names. What each does is in Machine/. -/

namespace Sys2Proof

/-- A command to the module: an access, an instruction of a set, an event. -/
inductive Instr where
  /-- REGISTER_WRITE (R7): a write of a control-space word by an access path. -/
  | registerWrite (path : Path) (addr : CtlAddr) (value : Word)
  /-- PAIR_LOW_READ (R11): a read of the low word of a 64-bit value. -/
  | pairLowRead (path : Path) (addr : CtlAddr)
  /-- PAIR_HIGH_READ (R11): a read of a high word. -/
  | pairHighRead (path : Path) (addr : CtlAddr)
  /-- PAIR_LOW_WRITE (R11): a write of the low word of a 64-bit value. -/
  | pairLowWrite (path : Path) (addr : CtlAddr) (value : Word)
  /-- PAIR_HIGH_WRITE (R11): a write of the high word of a 64-bit value. -/
  | pairHighWrite (path : Path) (addr : CtlAddr) (value : Word)
  /-- PATH_ENTRY_EXPIRY (R13): the entry of a fabric source module has been unused for 1 s. -/
  | pathEntryExpiry (src : BitVec 12)
  /-- PGOOD_RISE (R551): PGOOD rises at the end of power-up. -/
  | pgoodRise
  /-- CALLER_BOOT (R49): stage 1 ends. -/
  | callerBoot
  /-- IMAGE_READ (R44): stage 2 ends; whether the flash answered without a read error. -/
  | imageRead (flashOk : Bool)
  /-- VERIFY (R45): stage 3 ends. -/
  | verify
  /-- PARSE (R562): stage 4 ends. -/
  | parse
  /-- CLOCKS (R49): stage 5 ends; whether the root PLL and every divider locked. -/
  | clocks (locked : Bool)
  /-- DIE_POWER (R52): stage 6 ends; the dies whose rails reached regulation, and the fused repair maps with VALID set as (array, failed row). -/
  | diePower (regulated : BitVec 4) (fusedMap : List (Fin 3072 × Fin 32))
  /-- MEMORY_TRAIN (R54): stage 7 ends; the stacks and the packages that failed training twice, and whether tier C mounts. -/
  | memoryTrain (stackMask : BitVec 12) (pkgs : BitVec 16) (tierC : Bool)
  /-- SCRUB (R56): stage 8 ends; the slices or update units that failed their patterns. -/
  | scrub (slices : BitVec 12)
  /-- SET_TEST (R57): stage 9 ends; what the test found on each set with a finding. -/
  | setTest (results : List SetTest)
  /-- OPTICS_LOCK (R60): stage 10 ends and hands every enabled port to link bring-up. -/
  | opticsLock
  /-- TABLES (R61): stage 11 ends. -/
  | tables
  /-- STAGE_TIMEOUT (R49): a start stage passes its limit. -/
  | stageTimeout (stage : Fin 13)
  /-- HELD_WARM_RESET (R53): a warm reset held while starting is carried out. -/
  | heldWarmReset
  /-- OPEN (R64): HOLD_CMD OPEN. -/
  | holdOpen (path : Path)
  /-- HOLD_VERIFY (R65): HOLD_CMD VERIFY. -/
  | holdVerify (path : Path)
  /-- HOLD_VERIFY_DONE (R65): the verification of the staged copy ends. -/
  | holdVerifyDone
  /-- PROGRAM (R65): HOLD_CMD PROGRAM. -/
  | holdProgram (path : Path)
  /-- PROGRAM_DONE (R65): PROGRAM ends; whether the read-back found a mismatch. -/
  | programDone (mismatch : Bool)
  /-- CLOSE (R64): HOLD_CMD CLOSE. -/
  | holdClose (path : Path)
  /-- RESTART (R64): HOLD_CMD RESTART. -/
  | holdRestart (path : Path)
  /-- ENTER_HOLD (R67): HOLD_CMD ENTER_HOLD. -/
  | enterHold (path : Path)
  /-- STAGE_WINDOW_WRITE (R70): a write of a word of the staging window. -/
  | stageWindowWrite (path : Path) (word : Fin 1024) (value : Word)
  /-- STAGE_PAGE_WRITE (R70): a write of the word of STAGE_PAGE. -/
  | stagePageWrite (path : Path) (value : Word)
  /-- STAGE_LENGTH_WRITE (R70): a write of the word of STAGE_LENGTH. -/
  | stageLengthWrite (path : Path) (value : Word)
  /-- TILE_START (R78): a set starts the head tile of its queue. -/
  | tileStart (set : Fin 768)
  /-- CUT_IN (R87): an idle set takes the tail tile of a crewmate. -/
  | cutIn (set : Fin 768)
  /-- SHADOW_LOAD (R146): a shadow-bank load completes. -/
  | shadowLoad (set : Fin 768)
  /-- PASS_END (R147): a pass ends. -/
  | passEnd (set : Fin 768)
  /-- ROW_DRAIN (R150): an output row of an array becomes final. -/
  | rowDrain (set : Fin 768) (array : Fin 4)
  /-- BLOCK_COMPLETE (R148): a block of an array completes. -/
  | blockComplete (set : Fin 768) (array : Fin 4)
  /-- TILE_COMPLETE (R139): a tile completes. -/
  | tileComplete (set : Fin 768)
  /-- START_RAMP_END (R152): the start ramp of an array ends. -/
  | startRampEnd (set : Fin 768) (array : Fin 4)
  /-- STOP_RAMP_END (R152): the stop ramp of an array ends. -/
  | stopRampEnd (set : Fin 768) (array : Fin 4)
  /-- ARRAY_FAULT (R99): the residue check of an array mismatches in a pass, or in the drain. -/
  | arrayFault (set : Fin 768) (array : Fin 4) (inDrain : Bool)
  /-- PAUSE_END (R167): a throttle pause of a die ends. -/
  | pauseEnd (die : Fin 4)
  /-- SOFT_PREEMPT (R97): a soft pre-emption is asked of a set. -/
  | softPreempt (set : Fin 768)
  /-- PREEMPTION_POINT (R97): every unit of a set holds at its pre-emption point. -/
  | preemptionPoint (set : Fin 768)
  /-- HARD_PREEMPT (R98): a hard pre-emption is asked of a set. -/
  | hardPreempt (set : Fin 768)
  /-- RESUME (R98): a pre-empted set resumes. -/
  | resume (set : Fin 768)
  /-- UNASSIGNED_INSTRUCTION (R106): a set issues a word; one that R106 does not assign. -/
  | unassigned (set : Fin 768) (word : BitVec 64)
  /-- ADD (R109): ADD RD, RA, RB. -/
  | iAdd (set : Fin 768) (rd : Fin 32) (ra : Fin 32) (rb : Fin 32)
  /-- SUB (R109): SUB RD, RA, RB. -/
  | iSub (set : Fin 768) (rd : Fin 32) (ra : Fin 32) (rb : Fin 32)
  /-- AND (R109): AND RD, RA, RB. -/
  | iAnd (set : Fin 768) (rd : Fin 32) (ra : Fin 32) (rb : Fin 32)
  /-- OR (R109): OR RD, RA, RB. -/
  | iOr (set : Fin 768) (rd : Fin 32) (ra : Fin 32) (rb : Fin 32)
  /-- XOR (R109): XOR RD, RA, RB. -/
  | iXor (set : Fin 768) (rd : Fin 32) (ra : Fin 32) (rb : Fin 32)
  /-- SLL (R109): SLL RD, RA, RB. -/
  | iSll (set : Fin 768) (rd : Fin 32) (ra : Fin 32) (rb : Fin 32)
  /-- SRL (R109): SRL RD, RA, RB. -/
  | iSrl (set : Fin 768) (rd : Fin 32) (ra : Fin 32) (rb : Fin 32)
  /-- SRA (R109): SRA RD, RA, RB. -/
  | iSra (set : Fin 768) (rd : Fin 32) (ra : Fin 32) (rb : Fin 32)
  /-- MUL (R109): MUL RD, RA, RB. -/
  | iMul (set : Fin 768) (rd : Fin 32) (ra : Fin 32) (rb : Fin 32)
  /-- MULHU (R109): MULHU RD, RA, RB. -/
  | iMulhu (set : Fin 768) (rd : Fin 32) (ra : Fin 32) (rb : Fin 32)
  /-- MULHS (R109): MULHS RD, RA, RB. -/
  | iMulhs (set : Fin 768) (rd : Fin 32) (ra : Fin 32) (rb : Fin 32)
  /-- DIVU (R109): DIVU RD, RA, RB. -/
  | iDivu (set : Fin 768) (rd : Fin 32) (ra : Fin 32) (rb : Fin 32)
  /-- REMU (R109): REMU RD, RA, RB. -/
  | iRemu (set : Fin 768) (rd : Fin 32) (ra : Fin 32) (rb : Fin 32)
  /-- MIN (R109): MIN RD, RA, RB. -/
  | iMin (set : Fin 768) (rd : Fin 32) (ra : Fin 32) (rb : Fin 32)
  /-- MAX (R109): MAX RD, RA, RB. -/
  | iMax (set : Fin 768) (rd : Fin 32) (ra : Fin 32) (rb : Fin 32)
  /-- MINU (R109): MINU RD, RA, RB. -/
  | iMinu (set : Fin 768) (rd : Fin 32) (ra : Fin 32) (rb : Fin 32)
  /-- MAXU (R109): MAXU RD, RA, RB. -/
  | iMaxu (set : Fin 768) (rd : Fin 32) (ra : Fin 32) (rb : Fin 32)
  /-- SLT (R109): SLT RD, RA, RB. -/
  | iSlt (set : Fin 768) (rd : Fin 32) (ra : Fin 32) (rb : Fin 32)
  /-- SLTU (R109): SLTU RD, RA, RB. -/
  | iSltu (set : Fin 768) (rd : Fin 32) (ra : Fin 32) (rb : Fin 32)
  /-- SEQ (R109): SEQ RD, RA, RB. -/
  | iSeq (set : Fin 768) (rd : Fin 32) (ra : Fin 32) (rb : Fin 32)
  /-- SEL (R109): SEL RD, RA, RB, RC. -/
  | iSel (set : Fin 768) (rd : Fin 32) (ra : Fin 32) (rb : Fin 32) (rc : Fin 32)
  /-- ADDI (R110): ADDI RD, RA, IMM32. -/
  | iAddi (set : Fin 768) (rd : Fin 32) (ra : Fin 32) (imm : BitVec 32)
  /-- ANDI (R110): ANDI RD, RA, IMM32. -/
  | iAndi (set : Fin 768) (rd : Fin 32) (ra : Fin 32) (imm : BitVec 32)
  /-- ORI (R110): ORI RD, RA, IMM32. -/
  | iOri (set : Fin 768) (rd : Fin 32) (ra : Fin 32) (imm : BitVec 32)
  /-- XORI (R110): XORI RD, RA, IMM32. -/
  | iXori (set : Fin 768) (rd : Fin 32) (ra : Fin 32) (imm : BitVec 32)
  /-- SLLI (R110): SLLI RD, RA, IMM32. -/
  | iSlli (set : Fin 768) (rd : Fin 32) (ra : Fin 32) (imm : BitVec 32)
  /-- SRLI (R110): SRLI RD, RA, IMM32. -/
  | iSrli (set : Fin 768) (rd : Fin 32) (ra : Fin 32) (imm : BitVec 32)
  /-- SRAI (R110): SRAI RD, RA, IMM32. -/
  | iSrai (set : Fin 768) (rd : Fin 32) (ra : Fin 32) (imm : BitVec 32)
  /-- MULI (R110): MULI RD, RA, IMM32. -/
  | iMuli (set : Fin 768) (rd : Fin 32) (ra : Fin 32) (imm : BitVec 32)
  /-- MINI (R110): MINI RD, RA, IMM32. -/
  | iMini (set : Fin 768) (rd : Fin 32) (ra : Fin 32) (imm : BitVec 32)
  /-- MAXI (R110): MAXI RD, RA, IMM32. -/
  | iMaxi (set : Fin 768) (rd : Fin 32) (ra : Fin 32) (imm : BitVec 32)
  /-- SLTI (R110): SLTI RD, RA, IMM32. -/
  | iSlti (set : Fin 768) (rd : Fin 32) (ra : Fin 32) (imm : BitVec 32)
  /-- SLTUI (R110): SLTUI RD, RA, IMM32. -/
  | iSltui (set : Fin 768) (rd : Fin 32) (ra : Fin 32) (imm : BitVec 32)
  /-- SEQI (R110): SEQI RD, RA, IMM32. -/
  | iSeqi (set : Fin 768) (rd : Fin 32) (ra : Fin 32) (imm : BitVec 32)
  /-- MOVI (R111): MOVI RD, IMM48. -/
  | iMovi (set : Fin 768) (rd : Fin 32) (imm : BitVec 48)
  /-- MOVHI (R111): MOVHI RD, IMM48[15:0]. -/
  | iMovhi (set : Fin 768) (rd : Fin 32) (imm : BitVec 16)
  /-- LD8U (R113): LD8U RD, [RA + IMM32]. -/
  | iLd8u (set : Fin 768) (rd : Fin 32) (ra : Fin 32) (imm : BitVec 32)
  /-- LD16U (R113): LD16U RD, [RA + IMM32]. -/
  | iLd16u (set : Fin 768) (rd : Fin 32) (ra : Fin 32) (imm : BitVec 32)
  /-- LD32U (R113): LD32U RD, [RA + IMM32]. -/
  | iLd32u (set : Fin 768) (rd : Fin 32) (ra : Fin 32) (imm : BitVec 32)
  /-- LD64 (R113): LD64 RD, [RA + IMM32]. -/
  | iLd64 (set : Fin 768) (rd : Fin 32) (ra : Fin 32) (imm : BitVec 32)
  /-- LD8S (R113): LD8S RD, [RA + IMM32]. -/
  | iLd8s (set : Fin 768) (rd : Fin 32) (ra : Fin 32) (imm : BitVec 32)
  /-- LD16S (R113): LD16S RD, [RA + IMM32]. -/
  | iLd16s (set : Fin 768) (rd : Fin 32) (ra : Fin 32) (imm : BitVec 32)
  /-- LD32S (R113): LD32S RD, [RA + IMM32]. -/
  | iLd32s (set : Fin 768) (rd : Fin 32) (ra : Fin 32) (imm : BitVec 32)
  /-- ST8 (R113): ST8 [RA + IMM32], RB. -/
  | iSt8 (set : Fin 768) (ra : Fin 32) (rb : Fin 32) (imm : BitVec 32)
  /-- ST16 (R113): ST16 [RA + IMM32], RB. -/
  | iSt16 (set : Fin 768) (ra : Fin 32) (rb : Fin 32) (imm : BitVec 32)
  /-- ST32 (R113): ST32 [RA + IMM32], RB. -/
  | iSt32 (set : Fin 768) (ra : Fin 32) (rb : Fin 32) (imm : BitVec 32)
  /-- ST64 (R113): ST64 [RA + IMM32], RB. -/
  | iSt64 (set : Fin 768) (ra : Fin 32) (rb : Fin 32) (imm : BitVec 32)
  /-- AADD64 (R248): AADD64 RD, [RA], RB. -/
  | iAadd64 (set : Fin 768) (rd : Fin 32) (ra : Fin 32) (rb : Fin 32)
  /-- AADD32 (R248): AADD32 RD, [RA], RB. -/
  | iAadd32 (set : Fin 768) (rd : Fin 32) (ra : Fin 32) (rb : Fin 32)
  /-- AAND (R248): AAND RD, [RA], RB. -/
  | iAand (set : Fin 768) (rd : Fin 32) (ra : Fin 32) (rb : Fin 32)
  /-- AOR (R248): AOR RD, [RA], RB. -/
  | iAor (set : Fin 768) (rd : Fin 32) (ra : Fin 32) (rb : Fin 32)
  /-- AXOR (R248): AXOR RD, [RA], RB. -/
  | iAxor (set : Fin 768) (rd : Fin 32) (ra : Fin 32) (rb : Fin 32)
  /-- AMIN (R248): AMIN RD, [RA], RB. -/
  | iAmin (set : Fin 768) (rd : Fin 32) (ra : Fin 32) (rb : Fin 32)
  /-- AMAX (R248): AMAX RD, [RA], RB. -/
  | iAmax (set : Fin 768) (rd : Fin 32) (ra : Fin 32) (rb : Fin 32)
  /-- AMINU (R248): AMINU RD, [RA], RB. -/
  | iAminu (set : Fin 768) (rd : Fin 32) (ra : Fin 32) (rb : Fin 32)
  /-- AMAXU (R248): AMAXU RD, [RA], RB. -/
  | iAmaxu (set : Fin 768) (rd : Fin 32) (ra : Fin 32) (rb : Fin 32)
  /-- ASWAP (R248): ASWAP RD, [RA], RB. -/
  | iAswap (set : Fin 768) (rd : Fin 32) (ra : Fin 32) (rb : Fin 32)
  /-- ACAS (R248): ACAS RD, [RA], RB, RC. -/
  | iAcas (set : Fin 768) (rd : Fin 32) (ra : Fin 32) (rb : Fin 32) (rc : Fin 32)
  /-- AFADD32 (R248): AFADD32 RD, [RA], RB. -/
  | iAfadd32 (set : Fin 768) (rd : Fin 32) (ra : Fin 32) (rb : Fin 32)
  /-- BEQ (R116): BEQ RA, RB, IMM32. -/
  | iBeq (set : Fin 768) (ra : Fin 32) (rb : Fin 32) (imm : BitVec 32)
  /-- BNE (R116): BNE RA, RB, IMM32. -/
  | iBne (set : Fin 768) (ra : Fin 32) (rb : Fin 32) (imm : BitVec 32)
  /-- BLT (R116): BLT RA, RB, IMM32. -/
  | iBlt (set : Fin 768) (ra : Fin 32) (rb : Fin 32) (imm : BitVec 32)
  /-- BGE (R116): BGE RA, RB, IMM32. -/
  | iBge (set : Fin 768) (ra : Fin 32) (rb : Fin 32) (imm : BitVec 32)
  /-- BLTU (R116): BLTU RA, RB, IMM32. -/
  | iBltu (set : Fin 768) (ra : Fin 32) (rb : Fin 32) (imm : BitVec 32)
  /-- BGEU (R116): BGEU RA, RB, IMM32. -/
  | iBgeu (set : Fin 768) (ra : Fin 32) (rb : Fin 32) (imm : BitVec 32)
  /-- JAL (R116): JAL RD, IMM32. -/
  | iJal (set : Fin 768) (rd : Fin 32) (imm : BitVec 32)
  /-- JALR (R116): JALR RD, RA + IMM32. -/
  | iJalr (set : Fin 768) (rd : Fin 32) (ra : Fin 32) (imm : BitVec 32)
  /-- RSET (R117): RSET RD. -/
  | iRset (set : Fin 768) (rd : Fin 32)
  /-- RCREW (R117): RCREW RD. -/
  | iRcrew (set : Fin 768) (rd : Fin 32)
  /-- RCIDX (R117): RCIDX RD. -/
  | iRcidx (set : Fin 768) (rd : Fin 32)
  /-- RCSIZE (R117): RCSIZE RD. -/
  | iRcsize (set : Fin 768) (rd : Fin 32)
  /-- RCTX (R117): RCTX RD. -/
  | iRctx (set : Fin 768) (rd : Fin 32)
  /-- RSTEP (R117): RSTEP RD. -/
  | iRstep (set : Fin 768) (rd : Fin 32)
  /-- RSEED (R117): RSEED RD. -/
  | iRseed (set : Fin 768) (rd : Fin 32)
  /-- RMOD (R117): RMOD RD. -/
  | iRmod (set : Fin 768) (rd : Fin 32)
  /-- RARR (R117): RARR RD. -/
  | iRarr (set : Fin 768) (rd : Fin 32)
  /-- RCYC (R117): RCYC RD. -/
  | iRcyc (set : Fin 768) (rd : Fin 32)
  /-- VADD (R176): VADD VD, VA, VB. -/
  | vAdd (set : Fin 768) (a : V2Args)
  /-- VSUB (R176): VSUB VD, VA, VB. -/
  | vSub (set : Fin 768) (a : V2Args)
  /-- VMUL (R176): VMUL VD, VA, VB. -/
  | vMul (set : Fin 768) (a : V2Args)
  /-- VFMA (R176): VFMA VD, VA, VB, VC. -/
  | vFma (set : Fin 768) (a : V3Args)
  /-- VFMS (R176): VFMS VD, VA, VB, VC. -/
  | vFms (set : Fin 768) (a : V3Args)
  /-- VFNMA (R176): VFNMA VD, VA, VB, VC. -/
  | vFnma (set : Fin 768) (a : V3Args)
  /-- VMIN (R177): VMIN VD, VA, VB. -/
  | vMin (set : Fin 768) (a : V2Args)
  /-- VMAX (R177): VMAX VD, VA, VB. -/
  | vMax (set : Fin 768) (a : V2Args)
  /-- VABS (R176): VABS VD, VA. -/
  | vAbs (set : Fin 768) (a : V1Args)
  /-- VNEG (R176): VNEG VD, VA. -/
  | vNeg (set : Fin 768) (a : V1Args)
  /-- VRCP (R177): VRCP VD, VA. -/
  | vRcp (set : Fin 768) (a : V1Args)
  /-- VRSQRT (R177): VRSQRT VD, VA. -/
  | vRsqrt (set : Fin 768) (a : V1Args)
  /-- VSQRT (R177): VSQRT VD, VA. -/
  | vSqrt (set : Fin 768) (a : V1Args)
  /-- VDIV (R177): VDIV VD, VA, VB. -/
  | vDiv (set : Fin 768) (a : V2Args)
  /-- VMOV (R176): VMOV VD, VA. -/
  | vMov (set : Fin 768) (a : V1Args)
  /-- VSCALE (R177): VSCALE VD, VA, VB. -/
  | vScale (set : Fin 768) (a : V2Args)
  /-- VIADD (R178): VIADD VD, VA, VB. -/
  | vIadd (set : Fin 768) (a : V2Args)
  /-- VISUB (R178): VISUB VD, VA, VB. -/
  | vIsub (set : Fin 768) (a : V2Args)
  /-- VIMUL (R178): VIMUL VD, VA, VB. -/
  | vImul (set : Fin 768) (a : V2Args)
  /-- VAND (R121): VAND VD, VA, VB. -/
  | vAnd (set : Fin 768) (a : V2Args)
  /-- VOR (R121): VOR VD, VA, VB. -/
  | vOr (set : Fin 768) (a : V2Args)
  /-- VXOR (R121): VXOR VD, VA, VB. -/
  | vXor (set : Fin 768) (a : V2Args)
  /-- VNOT (R121): VNOT VD, VA. -/
  | vNot (set : Fin 768) (a : V1Args)
  /-- VSHL (R178): VSHL VD, VA, VB. -/
  | vShl (set : Fin 768) (a : V2Args)
  /-- VSHR (R178): VSHR VD, VA, VB. -/
  | vShr (set : Fin 768) (a : V2Args)
  /-- VSRA (R178): VSRA VD, VA, VB. -/
  | vSra (set : Fin 768) (a : V2Args)
  /-- VIMIN (R178): VIMIN VD, VA, VB. -/
  | vImin (set : Fin 768) (a : V2Args)
  /-- VIMAX (R178): VIMAX VD, VA, VB. -/
  | vImax (set : Fin 768) (a : V2Args)
  /-- VCEQ (R179): VCEQ PD, VA, VB. -/
  | vCeq (set : Fin 768) (a : VCArgs)
  /-- VCNE (R179): VCNE PD, VA, VB. -/
  | vCne (set : Fin 768) (a : VCArgs)
  /-- VCLT (R179): VCLT PD, VA, VB. -/
  | vClt (set : Fin 768) (a : VCArgs)
  /-- VCLE (R179): VCLE PD, VA, VB. -/
  | vCle (set : Fin 768) (a : VCArgs)
  /-- VCGT (R179): VCGT PD, VA, VB. -/
  | vCgt (set : Fin 768) (a : VCArgs)
  /-- VCGE (R179): VCGE PD, VA, VB. -/
  | vCge (set : Fin 768) (a : VCArgs)
  /-- VCUN (R179): VCUN PD, VA, VB. -/
  | vCun (set : Fin 768) (a : VCArgs)
  /-- PAND (R121): PAND PD, PA, PB. -/
  | pAnd (set : Fin 768) (pd : Fin 8) (pa : Fin 8) (pb : Fin 8) (pm : PredMode)
  /-- POR (R121): POR PD, PA, PB. -/
  | pOr (set : Fin 768) (pd : Fin 8) (pa : Fin 8) (pb : Fin 8) (pm : PredMode)
  /-- PXOR (R121): PXOR PD, PA, PB. -/
  | pXor (set : Fin 768) (pd : Fin 8) (pa : Fin 8) (pb : Fin 8) (pm : PredMode)
  /-- PANDN (R121): PANDN PD, PA, PB. -/
  | pAndn (set : Fin 768) (pd : Fin 8) (pa : Fin 8) (pb : Fin 8) (pm : PredMode)
  /-- PNOT (R121): PNOT PD, PA. -/
  | pNot (set : Fin 768) (pd : Fin 8) (pa : Fin 8) (pm : PredMode)
  /-- PSET (R121): PSET PD. -/
  | pSet (set : Fin 768) (pd : Fin 8) (pm : PredMode)
  /-- PCLR (R121): PCLR PD. -/
  | pClr (set : Fin 768) (pd : Fin 8) (pm : PredMode)
  /-- VCVT (R180): VCVT to the type FUNC codes. -/
  | vCvt (set : Fin 768) (dst : Fin 8) (a : V1Args)
  /-- VREDSUM (R181): VREDSUM VD, VA. -/
  | vRedsum (set : Fin 768) (a : V1Args)
  /-- VREDMAX (R181): VREDMAX VD, VA. -/
  | vRedmax (set : Fin 768) (a : V1Args)
  /-- VREDMIN (R181): VREDMIN VD, VA. -/
  | vRedmin (set : Fin 768) (a : V1Args)
  /-- VPERM (R181): VPERM VD, VA, VB. -/
  | vPerm (set : Fin 768) (a : V2Args)
  /-- VBCASTL (R181): VBCASTL VD, VA, sVB. -/
  | vBcastl (set : Fin 768) (vd : Fin 32) (va : Fin 32) (rb : Fin 32) (pm : PredMode) (ty : BitVec 3)
  /-- VMOVS (R181): VMOVS sVD, VA, sVB. -/
  | vMovs (set : Fin 768) (rd : Fin 32) (va : Fin 32) (rb : Fin 32) (ty : BitVec 3)
  /-- VINS (R181): VINS VD, sVA, sVB. -/
  | vIns (set : Fin 768) (vd : Fin 32) (ra : Fin 32) (rb : Fin 32) (pm : PredMode) (ty : BitVec 3)
  /-- VIOTA (R181): VIOTA VD. -/
  | vIota (set : Fin 768) (vd : Fin 32) (pm : PredMode) (ty : BitVec 3)
  /-- VLD (R122): VLD VD, [RA]. -/
  | vLd (set : Fin 768) (vd : Fin 32) (ra : Fin 32) (pm : PredMode) (ty : BitVec 3)
  /-- VST (R122): VST VD, [RA]. -/
  | vSt (set : Fin 768) (vd : Fin 32) (ra : Fin 32) (pm : PredMode) (ty : BitVec 3)
  /-- VLDS (R122): VLDS VD, [RA], RB. -/
  | vLds (set : Fin 768) (vd : Fin 32) (ra : Fin 32) (rb : Fin 32) (pm : PredMode) (ty : BitVec 3)
  /-- VSTS (R122): VSTS VD, [RA], RB. -/
  | vSts (set : Fin 768) (vd : Fin 32) (ra : Fin 32) (rb : Fin 32) (pm : PredMode) (ty : BitVec 3)
  /-- VFN (R184): VFNk VD, VA. -/
  | vFn (set : Fin 768) (slot : Fin 4) (a : V1Args)
  /-- VDFN (R186): VDFNk VD, VA. -/
  | vDfn (set : Fin 768) (slot : Fin 4) (a : V1Args)
  /-- VTLDF (R185): VTLDFk [sVA]. -/
  | vTldf (set : Fin 768) (slot : Fin 4) (ra : Fin 32) (pm : PredMode)
  /-- VTLDD (R185): VTLDDk [sVA]. -/
  | vTldd (set : Fin 768) (slot : Fin 4) (ra : Fin 32) (pm : PredMode)
  /-- VRND (R187): VRND VD, sVA, sVB. -/
  | vRnd (set : Fin 768) (vd : Fin 32) (ra : Fin 32) (rb : Fin 32) (pm : PredMode) (ty : BitVec 3)
  /-- VTAKE (R190): VTAKE VD. -/
  | vTake (set : Fin 768) (vd : Fin 32) (pm : PredMode) (ty : BitVec 3)
  /-- VGIVE (R191): VGIVE VA. -/
  | vGive (set : Fin 768) (va : Fin 32) (pm : PredMode) (ty : BitVec 3)
  /-- TPUSH (R124): TPUSH [RA + IMM32]. -/
  | tpush (set : Fin 768) (ra : Fin 32) (imm : BitVec 32)
  /-- FSEQ (R124): FSEQ [RA], RB, IMM32. -/
  | fseq (set : Fin 768) (ra : Fin 32) (rb : Fin 32) (imm : BitVec 32)
  /-- PPUSH (R124): PPUSH [RA + IMM32]. -/
  | ppush (set : Fin 768) (ra : Fin 32) (imm : BitVec 32)
  /-- RPUSH (R368): RPUSH [RA + IMM32]. -/
  | rpush (set : Fin 768) (ra : Fin 32) (imm : BitVec 32)
  /-- FPUSH (R413): FPUSH [RA + IMM32]. -/
  | fpush (set : Fin 768) (ra : Fin 32) (imm : BitVec 32)
  /-- CSET (R125): CSET CTR, RA + IMM32. -/
  | cset (set : Fin 768) (ctr : Fin 64) (ra : Fin 32) (imm : BitVec 32)
  /-- CADD (R125): CADD CTR, RA + IMM32. -/
  | cadd (set : Fin 768) (ctr : Fin 64) (ra : Fin 32) (imm : BitVec 32) (release : Bool)
  /-- CADDR (R126): CADDR CTR, RA, IMM32. -/
  | caddr (set : Fin 768) (ctr : Fin 64) (ra : Fin 32) (imm : BitVec 32) (release : Bool)
  /-- CWAIT (R125): CWAIT CTR, RA + IMM32. -/
  | cwait (set : Fin 768) (ctr : Fin 64) (ra : Fin 32) (imm : BitVec 32)
  /-- CREAD (R125): CREAD sRA, CTR. -/
  | cread (set : Fin 768) (ctr : Fin 64) (ra : Fin 32)
  /-- NOP (R127): NOP. -/
  | iNop (set : Fin 768)
  /-- END (R127): END. -/
  | iEnd (set : Fin 768)
  /-- STEP (R203): STEP RA, IMM32[0]. -/
  | iStep (set : Fin 768) (ra : Fin 32) (journal : Bool)
  /-- BUBBLE (R404): BUBBLE n. -/
  | iBubble (set : Fin 768) (number : BitVec 16)
  /-- BUBBLEEND (R404): BUBBLEEND n. -/
  | iBubbleEnd (set : Fin 768) (number : BitVec 16)
  /-- MSEND (R496): MSEND channel, RA. -/
  | iMsend (set : Fin 768) (ra : Fin 32) (channel : BitVec 8)
  /-- MRECV (R128): MRECV RD, channel. -/
  | iMrecv (set : Fin 768) (rd : Fin 32) (channel : BitVec 8)
  /-- RING (R502): RING doorbell. -/
  | iRing (set : Fin 768) (doorbell : BitVec 8)
  /-- FUSED_SEQUENCE_START (R189): a fused sequence starts. -/
  | fusedSequenceStart (set : Fin 768)
  /-- PRODUCER_COMPLETE (R193): the last body run of a fused sequence has completed. -/
  | producerComplete (set : Fin 768)
  /-- COPY (R138): the next promenade descriptor of a set, a COPY, starts. -/
  | copy (set : Fin 768)
  /-- FILL (R137): the next promenade descriptor of a set, a FILL, starts. -/
  | fill (set : Fin 768)
  /-- REDUCE_WRITE (R138): the next promenade descriptor of a set, a REDUCE_WRITE, starts. -/
  | reduceWrite (set : Fin 768)
  /-- TC_READ (R137): the next promenade descriptor of a set, a TC_READ, starts. -/
  | tcRead (set : Fin 768)
  /-- TC_WRITE (R137): the next promenade descriptor of a set, a TC_WRITE, starts. -/
  | tcWrite (set : Fin 768)
  /-- PROMENADE_BLOCK (R138): the descriptor at a position among the promenade slots of a set moves its next block. -/
  | promenadeBlock (set : Fin 768) (k : Fin 16)
  /-- PROMENADE_COMPLETE (R139): a promenade descriptor of a set completes. -/
  | promenadeComplete (set : Fin 768)
  /-- WATCHDOG (R465): an engine watchdog expires. -/
  | watchdog (engine : BitVec 14) (kind : WatchKind)
  /-- WINDOW_ADDITION (R255): an engine of a die adds one row of addends, of a source format (0 W48, 1 FP32, 2 BF16), to a window block, BW48 or WA160, of the context of a slot. -/
  | windowAddition (die : Fin 4) (slot : Fin 32) (wa : Bool) (addr : BitVec 56) (expIndex : BitVec 16) (srcFmt : Fin 3) (addends : List (BitVec 48))
  /-- FREEZE (R416): the freeze engine starts the FREEZE at the head of the queue of a context slot. -/
  | freeze (slot : Fin 32)
  /-- DRAIN_COMPLETE (R416): the drain of a FREEZE is complete. -/
  | drainComplete (slot : Fin 32)
  /-- UPDATE (R202): the freeze engine starts the UPDATE at the head of the queue of a context slot. -/
  | update (slot : Fin 32)
  /-- UPDATE_BLOCK (R209): a fused update unit finishes a block. -/
  | updateBlock (slot : Fin 32)
  /-- UPDATE_COMPLETE (R209): every block of an UPDATE is written. -/
  | updateComplete (slot : Fin 32)
  /-- CHANNEL_GRANT (R221): a grant slot of a memory channel; the requests that reached it since the last one as (class, line), and what error the cells of the granted line show. -/
  | channelGrant (tier : Tier) (unit : Fin 16) (channel : Fin 32) (arrivals : List (Fin 4 × Nat)) (upset : Upset)
  /-- PROMOTION (R221): the head request of a class has waited its age. -/
  | promotion (tier : Tier) (unit : Fin 16) (channel : Fin 32) (cls : Fin 4)
  /-- RESERVE3_WINDOW_END (R221): 64 grants of a channel have been made. -/
  | reserve3WindowEnd (tier : Tier) (unit : Fin 16) (channel : Fin 32)
  /-- CORRECTED_WRITEBACK (R225): the oldest queued write-back of a corrected line is performed. -/
  | correctedWriteback
  /-- CE_RECORD_THRESHOLD (R225): a correction count reaches CE_RECORD_AT; kind 0 stack, 1 tier B controller, 2 tier C, 3 slice. -/
  | ceRecordThreshold (kind : Fin 4) (unit : Fin 16)
  /-- PATROL_READ (R228): patrol scrub reads its next line; what error its cells show. -/
  | patrolRead (upset : Upset)
  /-- UNIT_LOST (R229): a unit that holds waiting requests has answered none of them for 10 us. -/
  | unitLost (tier : Tier) (unit : Fin 16)
  /-- TIER_C_WRITE_DONE (R230): the oldest tier C write is programmed; the further blocks the controller programmed for relocation and metadata. -/
  | tierCWriteDone (extra : BitVec 8)
  /-- WEAR_WARNING (R234): LIFE_USED_BP first reaches WEAR_WARN_BP. -/
  | wearWarning
  /-- TIER_C_READONLY (R234): the spare blocks fall to 2 % of those at manufacture, or below. -/
  | tierCReadonly (spare : Fin 101)
  /-- XLATE_FILL (R271): an address of the context of a slot misses in the translation cache of a die. -/
  | xlateFill (die : Fin 4) (slot : Fin 32) (addr : BitVec 56)
  /-- LOAD (R273): a load of a module, with the EPOCH and number it carries, arrives. -/
  | load (src : BitVec 12) (epoch : BitVec 8) (seq : BitVec 16) (ctx : BitVec 16) (space : BitVec 2) (offset : BitVec 48) (size : BitVec 8)
  /-- STORE (R273): a store of a module arrives. -/
  | store (src : BitVec 12) (epoch : BitVec 8) (seq : BitVec 16) (ctx : BitVec 16) (space : BitVec 2) (offset : BitVec 48) (size : BitVec 8) (data : DWord)
  /-- AMO (R273): an atomic of a module arrives. -/
  | amo (src : BitVec 12) (epoch : BitVec 8) (seq : BitVec 16) (ctx : BitVec 16) (space : BitVec 2) (offset : BitVec 48) (func : BitVec 8) (operand : DWord) (compare : DWord) (posted : Bool)
  /-- READ_BLOCK (R275): a promenade read of a module arrives. -/
  | readBlock (src : BitVec 12) (epoch : BitVec 8) (seq : BitVec 16) (ctx : BitVec 16) (space : BitVec 2) (offset : BitVec 48) (length : BitVec 32)
  /-- WRITE_BLOCK (R275): a promenade write of a module arrives. -/
  | writeBlock (src : BitVec 12) (epoch : BitVec 8) (seq : BitVec 16) (ctx : BitVec 16) (space : BitVec 2) (offset : BitVec 48) (data : List Byte)
  /-- REMOTE_FILL (R275): a FILL of a module arrives. -/
  | remoteFill (src : BitVec 12) (epoch : BitVec 8) (seq : BitVec 16) (ctx : BitVec 16) (space : BitVec 2) (offset : BitVec 48) (pattern : DWord) (length : BitVec 32)
  /-- WINDOW_ADD (R277): a row of addends of a module arrives. -/
  | windowAdd (src : BitVec 12) (epoch : BitVec 8) (seq : BitVec 16) (ctx : BitVec 16) (space : BitVec 2) (offset : BitVec 48) (wa : Bool) (srcFmt : BitVec 4) (expIndex : BitVec 16) (row : List Byte)
  /-- CTL_LOAD (R266): a control-space load of a module arrives. -/
  | ctlLoad (src : BitVec 12) (epoch : BitVec 8) (seq : BitVec 16) (ctx : BitVec 16) (offset : BitVec 48)
  /-- CTL_STORE (R266): a control-space store of a module arrives. -/
  | ctlStore (src : BitVec 12) (epoch : BitVec 8) (seq : BitVec 16) (ctx : BitVec 16) (offset : BitVec 48) (value : Word)
  /-- RESPONSE (R280): a response arrives for the request with number reqSeq that went out on a VC; seq is its own number, epoch the EPOCH that an EPOCH mismatch reports. -/
  | response (src : BitVec 12) (vc : Fin 8) (reqSeq : BitVec 16) (seq : BitVec 16) (status : BitVec 6) (epoch : BitVec 8) (data : List Byte)
  /-- ACK (R276): an acknowledgement arrives for the request with number reqSeq that went out on a VC. -/
  | ack (src : BitVec 12) (vc : Fin 8) (reqSeq : BitVec 16) (status : BitVec 6) (epoch : BitVec 8)
  /-- REQUEST_TIMEOUT (R282): an outstanding request has had no answer for REQ_TIMEOUT_US. -/
  | requestTimeout (dest : BitVec 12) (vc : Fin 8) (seq : BitVec 16)
  /-- COMB_WARMED (R288): an engine. -/
  | combWarmed (engine : Fin 4)
  /-- COMB_SETTLED (R288): an engine, with the words of its nine matrices as measured at a cold start. -/
  | combSettled (engine : Fin 4) (measured : List Word)
  /-- PILOT_CHECK (R288): an engine and the lines found present and within bounds. -/
  | pilotCheck (engine : Fin 4) (lines : BitVec 32)
  /-- SWEEP_START (R297): a lane and its direction. -/
  | sweepStart (lane : Fin 192) (rx : Bool)
  /-- SWEEP_DONE (R297): a lane, its direction and the heater demand at the target position, none for no resonance. -/
  | sweepDone (lane : Fin 192) (rx : Bool) (position : Option (BitVec 16))
  /-- IDENTIFY (R287): a lane, its direction and the one line whose tone is heard, none for no tone or several. -/
  | identify (lane : Fin 192) (rx : Bool) (heard : Option (Fin 32))
  /-- FINE_LOCK (R297): a lane and its direction. -/
  | fineLock (lane : Fin 192) (rx : Bool)
  /-- SETTLE (R297): a lane, its direction and for a receive lane its power, signed, 0.01 dBm. -/
  | settle (lane : Fin 192) (rx : Bool) (power : BitVec 16)
  /-- RECAL_START (R304): a lane and its direction. -/
  | recalStart (lane : Fin 192) (rx : Bool)
  /-- RECAL_DONE (R304): a lane, its direction and the one line whose tone is heard. -/
  | recalDone (lane : Fin 192) (rx : Bool) (heard : Option (Fin 32))
  /-- LOOP_UPDATE (R300): a bank and what the loop finds on its rings. -/
  | loopUpdate (bank : Fin 36) (rings : List RingLoop)
  /-- MATRIX_COMMIT (R296): a write of 1 to a MATRIX_COMMIT bit. -/
  | matrixCommit (p : Path) (port : Fin 12) (bank : Fin 3)
  /-- TARGET_LINE_WRITE (R298): a write of TARGET_LINE. -/
  | targetLineWrite (p : Path) (port : Fin 12) (slot : Fin 16) (line : Fin 32)
  /-- LANE_RETRY (R297): a write of 1 to RETRY. -/
  | laneRetry (p : Path) (port : Fin 12) (slot : Fin 16)
  /-- EQ_CODE_WRITE (R292): a write of EQ_CODE. -/
  | eqCodeWrite (p : Path) (port : Fin 12) (slot : Fin 16) (code : Fin 64)
  /-- LOSS_OF_LIGHT (R308): a receive lane and its power. -/
  | lossOfLight (lane : Fin 192) (power : BitVec 16)
  /-- LIGHT_RETURN (R308): a receive lane and its power. -/
  | lightReturn (lane : Fin 192) (power : BitVec 16)
  /-- LANE_ALIGNED (R317): a receive lane and the sending slot its frames name. -/
  | laneAligned (lane : Fin 192) (slot : Fin 16)
  /-- HELLO_SEND (R317): an aligned lane. -/
  | helloSend (lane : Fin 192)
  /-- HELLO (R319): a lane and the payload of the CTRL flit heard on it. -/
  | hello (lane : Fin 192) (payload : List Byte)
  /-- ACCEPT (R317): a lane and the payload heard on it. -/
  | accept (lane : Fin 192) (payload : List Byte)
  /-- REJECT (R317): a lane and the payload heard on it. -/
  | reject (lane : Fin 192) (payload : List Byte)
  /-- WIDTH (R317): a lane and the payload heard on it. -/
  | width (lane : Fin 192) (payload : List Byte)
  /-- WIDTH_ACK (R317): a lane and the payload heard on it. -/
  | widthAck (lane : Fin 192) (payload : List Byte)
  /-- RETRAIN_TIMEOUT (R317): a link by its lowest lane. -/
  | retrainTimeout (link : Fin 192)
  /-- DISCOVERY_TIMEOUT (R322): a link by its lowest lane. -/
  | discoveryTimeout (link : Fin 192)
  /-- FORWARDED_CLOCK_TIMEOUT (R323): a short-mode port. -/
  | forwardedClockTimeout (port : Fin 12)
  /-- REFORM (R317): a write to REFORM of a port. -/
  | reform (p : Path) (port : Fin 12) (slots : BitVec 16)
  /-- FLIT_RECEIVE (R331): a link, the 256 bytes of the flit in stream order, the symbols corrected and the codewords found uncorrectable since the flit before, and whether the flit lies in an uncorrectable codeword. -/
  | flitReceive (link : Fin 192) (bytes : List Byte) (symbols : Nat) (newBad : Nat) (inBad : Bool)
  /-- FLIT_TRANSMIT (R338): a link whose next flit position comes. -/
  | flitTransmit (link : Fin 192)
  /-- REORDER_TIMEOUT (R447): a link that holds a flit for a REORDER hook. -/
  | reorderTimeout (link : Fin 192)
  /-- REPLAY_TIMEOUT (R332): a link. -/
  | replayTimeout (link : Fin 192)
  /-- LANE_NARROW (R335): a lane and its uncorrectable codewords in the last 1 ms. -/
  | laneNarrow (lane : Fin 192) (codewords : Nat)
  /-- LANE_REJOIN (R335): a lane removed 1 s ago. -/
  | laneRejoin (lane : Fin 192)
  /-- APPLY (R352): a write of APPLY to DRAW_CMD. -/
  | drawApply (p : Path)
  /-- REVERT (R351): a write of REVERT to DRAW_CMD. -/
  | drawRevert (p : Path)
  /-- APPLY_DONE (R352): no operand. -/
  | applyDone
  /-- APPLY_TIMEOUT (R352): no operand. -/
  | applyTimeout
  /-- ROUTE_ENTRY_WRITE (R356): a write of the high word of a routing entry. -/
  | routeEntryWrite (p : Path) (entry : Fin 256) (high : Word)
  /-- GROUP_COMMIT (R364): the path and the word it writes to word 0 of an entry. -/
  | groupCommit (p : Path) (group : Fin 64) (word : Word)
  /-- ROUND_START (R385): a group. -/
  | roundStart (group : Fin 64)
  /-- PART (R376): the sending module and the message, header and data. -/
  | part (src : BitVec 12) (msg : List Byte)
  /-- COUNTS (R379): the sending module and the message. -/
  | counts (src : BitVec 12) (msg : List Byte)
  /-- GRANT (R378): the sending module and the message. -/
  | grant (src : BitVec 12) (msg : List Byte)
  /-- ABORT (R383): the sending module and the message. -/
  | abort (src : BitVec 12) (msg : List Byte)
  /-- LATE_CHECK (R382): a group, whose oldest open comparison finishes. -/
  | lateCheck (group : Fin 64)
  /-- ROUND_TIMEOUT (R388): a group, and whether the wait is for the successor. -/
  | roundTimeout (group : Fin 64) (successor : Bool)
  /-- ROUND_COMPLETE (R387): a group. -/
  | roundComplete (group : Fin 64)
  /-- ADMIT (R396): CMD ADMIT. -/
  | ctxAdmit (path : Path)
  /-- REBIND (R400): CMD REBIND. -/
  | rebind (path : Path)
  /-- RELEASE (R401): CMD RELEASE. -/
  | release (path : Path)
  /-- LEND (R405): CMD LEND. -/
  | lend (path : Path)
  /-- UNLEND (R406): CMD UNLEND. -/
  | unlend (path : Path)
  /-- REBIND_PREEMPT_TIMEOUT (R400): 100 us have passed without every moving set at its point. -/
  | rebindPreemptTimeout
  /-- REBIND_DONE (R401): a REBIND or RELEASE ends, or passes its budget. -/
  | rebindDone (timeout : Bool)
  /-- SET_LENT (R405): a set in a bubble is lent. -/
  | setLent (set : Fin 768)
  /-- EVICTION (R406): a lent set goes back to its owner; the time it took. -/
  | eviction (set : Fin 768) (us : BitVec 16)
  /-- PARITY_PART (R422): a parity contribution arrives: a block of a window. -/
  | parityPart (src : BitVec 12) (context : BitVec 16) (seq : BitVec 32) (window : BitVec 32) (block : Fin 65536) (bytes : List Byte)
  /-- PARITY_TIMEOUT (R424): a stripe member has answered nothing within the round timeout. -/
  | parityTimeout (slot : Fin 32) (member : Fin 4)
  /-- EXPORT (R425): the freeze engine starts the EXPORT at the head of the queue of a context slot. -/
  | exportStart (slot : Fin 32)
  /-- EXPORT_DONE (R425): storage has acknowledged every byte of an EXPORT. -/
  | exportDone (slot : Fin 32)
  /-- RESTORE (R427): the freeze engine starts the RESTORE at the head of the queue of a context slot. -/
  | restore (slot : Fin 32)
  /-- PIECE_READ (R427): a freeze engine of another module asks for blocks of a freeze slot (0, 1) or parity area (2, 3) of the same context here. -/
  | pieceRead (src : BitVec 12) (epoch : BitVec 8) (seq : BitVec 16) (ctx : BitVec 16) (area : Fin 4) (first : BitVec 30) (blocks : BitVec 30)
  /-- RESTORE_DONE (R427): a RESTORE completes. -/
  | restoreDone (slot : Fin 32)
  /-- REBUILD (R428): a write of 1 to FRZ.CMD with CMD_SLOT naming a context slot. -/
  | rebuild (slot : Fin 32)
  /-- REBUILD_DONE (R428): a REBUILD completes. -/
  | rebuildDone (slot : Fin 32)
  /-- JRN_ENABLE_WRITE (R437): a write of the word of JRN_SLOT and JRN_ENABLE. -/
  | jrnEnableWrite (p : Path) (slot : Fin 32) (enable : Bool)
  /-- JOURNAL_FLUSH (R440): no operand. -/
  | journalFlush
  /-- REPLAY_START (R443): a write of 1 to ENC.CMD. -/
  | replayStart (p : Path)
  /-- REPLAY_STOP (R445): a write of 2 to ENC.CMD. -/
  | replayStop (p : Path)
  /-- RECORD_ACCEPT (R454): one CALLCLK cycle of the dance card port. -/
  | recordAccept
  /-- CLEAR_THROUGH (R459): a write to CLEAR_THROUGH. -/
  | clearThrough (path : Path) (seq : Word)
  /-- SEEK_SEQ (R458): a write to SEEK_SEQ. -/
  | seekSeq (path : Path) (seq : Word)
  /-- SEEK_DONE (R458): the seek of a path completes. -/
  | seekDone (path : Path)
  /-- ARCH_SELECT (R462): a write to ARCH_SELECT. -/
  | archSelect (path : Path) (k : BitVec 4)
  /-- ARCHIVE_LOAD_DONE (R462): an archive load ends. -/
  | archiveLoadDone
  /-- CAPTURE_DONE (R467): a hang capture ends. -/
  | captureDone (truncated : Bool)
  /-- DRAIN_TIMEOUT (R470): DRAIN_US passes. -/
  | drainTimeout
  /-- CONTEXT_RESET (R471): a context reset, by RESET_CMD level 1 or cause. -/
  | contextReset (slot : Fin 32)
  /-- ENGINE_RESET (R473): an engine reset, by RESET_CMD level 2 or cause. -/
  | engineReset (engine : BitVec 14)
  /-- PARTITION_RESET (R474): a partition reset, by RESET_CMD level 3 or cause. -/
  | partitionReset (slot : Fin 32)
  /-- WARM_RESET (R475): a warm reset, by RESET_CMD level 4 or cause. -/
  | warmReset
  /-- RESET_COMPLETE (R476): a reset completes within its budget. -/
  | resetComplete
  /-- RESET_TIMEOUT (R476): a reset passes its budget. -/
  | resetTimeout
  /-- ISOLATE_TURN_END (R479): ISOLATE_MS passes while the engine keeps making progress. -/
  | isolateTurnEnd
  /-- NOTICE_RESEND (R483): FM_NOTICE_US passes for a notice. -/
  | noticeResend (seq : Word)
  /-- NOTICE_ACK (R483): a write to NOTICE_ACK. -/
  | noticeAck (path : Path) (seq : Word)
  /-- CALLER_WATCHDOG (R477): the 100 ms watchdog of the Caller fires. -/
  | callerWatchdog
  /-- RETAINED_MEMORY_ERROR (R510): an uncorrectable error in a region of retained memory. -/
  | retainedMemoryError (region : Fin 4)
  /-- WINDOW_WRITE (R490): the port, the BAR2 offset and the bytes written. -/
  | windowWrite (port : Fin 2) (offset : BitVec 34) (bytes : List Byte)
  /-- WINDOW_READ (R490): the port, the BAR2 offset and the number of bytes read. -/
  | windowRead (port : Fin 2) (offset : BitVec 34) (length : Fin 4097)
  /-- PERST_FALL (R547): the port. -/
  | perstFall (port : Fin 2)
  /-- PERST_RISE (R547): the port. -/
  | perstRise (port : Fin 2)
  /-- PCIE_LINK_UP (R493): the port. -/
  | pcieLinkUp (port : Fin 2)
  /-- IN_WORD (R497): the path, the channel and the word. -/
  | inWord (p : Path) (channel : Fin 64) (word : Word)
  /-- HELD_WORD_TIMEOUT (R497): the channel. -/
  | heldWordTimeout (channel : Fin 64)
  /-- MSEND_TIMEOUT (R496): the set whose MSEND waits. -/
  | msendTimeout (set : Fin 768)
  /-- OUT_POP (R498): the path and the channel. -/
  | outPop (p : Path) (channel : Fin 64)
  /-- CHANNEL_BINDING_WRITE (R500): the path, the channel and the word written to its first word. -/
  | channelBindingWrite (p : Path) (channel : Fin 64) (word : Word)
  /-- RING_WRITE (R501): the path, the doorbell and the value. -/
  | ringWrite (p : Path) (doorbell : Fin 256) (value : Word)
  /-- ETH_LINK_CHANGE (R504): the port and the new ETH_STATE. -/
  | ethLinkChange (port : Fin 2) (up : Fin 4)
  /-- EXPORT_CHANNEL_VALID (R506): the path, the export channel and the word written to its first word. -/
  | exportChannelValid (p : Path) (channel : Fin 64) (word : Word)
  /-- INBOUND_RDMA_WRITE (R506): the port it arrives on, the export channel its QPN names, its PSN and rkey, whether its opcode is an RDMA WRITE, its address, its bytes and its immediate. -/
  | inboundRdmaWrite (port : Fin 2) (channel : Fin 64) (psn : BitVec 24) (key : Word) (isWrite : Bool) (addr : BitVec 64) (bytes : List Byte) (imm : Option Word)
  /-- RDMA_ACK (R507): the export channel, the PSN of the operation, whether it is answered with a remote access error NAK, and the bytes a READ returns. -/
  | rdmaAck (channel : Fin 64) (psn : BitVec 24) (nak : Bool) (bytes : List Byte)
  /-- RDMA_TIMEOUT (R507): the export channel and the PSN of the operation. -/
  | rdmaTimeout (channel : Fin 64) (psn : BitVec 24)
  /-- VC0_DATAGRAM (R508): a UDP datagram with a flit header and a message arrives at a service port. -/
  | vc0Datagram (port : Fin 2) (bytes : List Byte)
  /-- STANDBY (R516): STATE_CMD STANDBY. -/
  | standby (path : Path)
  /-- RUN (R516): STATE_CMD RUN. -/
  | run (path : Path)
  /-- DORMANT (R516): STATE_CMD DORMANT. -/
  | dormant (path : Path)
  /-- TRANSITION_DONE (R515): a power transition completes. -/
  | transitionDone
  /-- IDLE_ENTRY (R517): every set has been idle for IDLE_US. -/
  | idleEntry
  /-- IDLE_EXIT (R517): work for a set. -/
  | idleExit
  /-- WAKE (R518): WAKE_N has been held low for 1 ms. -/
  | wake
  /-- TEMP_SAMPLE (R521): a temperature sample, signed, 0.01 degrees. -/
  | tempSample (sensor : TempSensor) (value : BitVec 16)
  /-- THROTTLE_WINDOW (R521): a 32 us window of a die begins. -/
  | throttleWindow (die : Fin 4)
  /-- THROTTLE_DECAY (R521): 1 ms below the hysteresis limit has passed. -/
  | throttleDecay (die : Fin 4)
  /-- POWER_SAMPLE (R523): a 1 ms average of the input power. -/
  | powerSample (vinMv : BitVec 16) (pinW : BitVec 16)
  /-- ALERT_RELEASE (R524): every die has read below the release limit for 1 ms. -/
  | alertRelease
  /-- THERMAL_TRIP (R525): a junction sensor reaches 115 degrees. -/
  | thermalTrip (die : Fin 4) (sensor : Fin 24)
  /-- TRIP_COOLDOWN (R525): every remaining sensor reads below THROTTLE_C. -/
  | tripCooldown
  /-- DROOP (R526): a core rail falls 5 % below nominal. -/
  | droop (die : Fin 4)
  /-- DROOP_RELEASE (R526): DROOP_HOLD_NS has passed with the rail recovered; how long the pause lasted. -/
  | droopRelease (die : Fin 4) (us : BitVec 16)
  /-- CLOCK_LOSS (R513): the reference is missing (false) or the root PLL lost lock (true). -/
  | clockLoss (pll : Bool)
  /-- ENTDAA (R528): ENTDAA assigns a dynamic address. -/
  | entdaa (addr : BitVec 7)
  /-- SETDASA (R528): SETDASA assigns a dynamic address. -/
  | setdasa (addr : BitVec 7)
  /-- SET_ENDPOINT_ID (R529): MCTP Set Endpoint ID. -/
  | setEndpointId (eid : Byte)
  /-- GET_ENDPOINT_ID (R529): MCTP Get Endpoint ID. -/
  | getEndpointId
  /-- GET_MCTP_VERSION_SUPPORT (R529): MCTP Get MCTP Version Support. -/
  | getMctpVersionSupport (msgType : Byte)
  /-- GET_MESSAGE_TYPE_SUPPORT (R529): MCTP Get Message Type Support. -/
  | getMessageTypeSupport
  /-- ATTEST_REQUEST (R536): a type 0x7E MCTP request with a nonce. -/
  | attestRequest (nonce : List Byte)
  /-- REPORT_CMD (R536): a write of 1 to REPORT_CMD. -/
  | reportCmd (path : Path)
  /-- REPORT_DONE (R536): a report of a path has been signed. -/
  | reportDone (path : Path)
  /-- GET_TID (R530): PLDM GetTID. -/
  | getTid
  /-- SET_TID (R530): PLDM SetTID. -/
  | setTid (tid : Byte)
  /-- GET_PLDM_VERSION (R530): PLDM GetPLDMVersion. -/
  | getPldmVersion (pldmType : Byte)
  /-- GET_PLDM_TYPES (R530): PLDM GetPLDMTypes. -/
  | getPldmTypes
  /-- GET_PLDM_COMMANDS (R530): PLDM GetPLDMCommands. -/
  | getPldmCommands (pldmType : Byte)
  /-- GET_SENSOR_READING (R531): PLDM GetSensorReading. -/
  | getSensorReading (sensor : BitVec 16)
  /-- GET_STATE_SENSOR_READINGS (R531): PLDM GetStateSensorReadings. -/
  | getStateSensorReadings (sensor : BitVec 16)
  /-- SET_STATE_EFFECTER_STATES (R531): PLDM SetStateEffecterStates. -/
  | setStateEffecterStates (effecter : BitVec 16) (state : Byte)
  /-- GET_STATE_EFFECTER_STATES (R531): PLDM GetStateEffecterStates. -/
  | getStateEffecterStates (effecter : BitVec 16)
  /-- GET_PDR_REPOSITORY_INFO (R530): PLDM GetPDRRepositoryInfo. -/
  | getPdrRepositoryInfo
  /-- GET_PDR (R530): PLDM GetPDR. -/
  | getPdr (handle : BitVec 32)
  /-- SET_EVENT_RECEIVER (R532): PLDM SetEventReceiver; none disables events. -/
  | setEventReceiver (receiver : Option Byte)
  /-- POLL_FOR_PLATFORM_EVENT_MESSAGE (R532): PLDM PollForPlatformEventMessage. -/
  | pollForPlatformEvent
  /-- EVENT_ACK (R532): a receiver acknowledges an event. -/
  | eventAck (num : Nat)
  /-- EVENT_RESEND (R532): FM_NOTICE_US passes for an unacknowledged event. -/
  | eventResend (num : Nat)
  /-- QUERY_DEVICE_IDENTIFIERS (R530): PLDM QueryDeviceIdentifiers. -/
  | queryDeviceIdentifiers
  /-- GET_FIRMWARE_PARAMETERS (R530): PLDM GetFirmwareParameters. -/
  | getFirmwareParameters
  /-- REQUEST_UPDATE (R533): PLDM RequestUpdate. -/
  | requestUpdate
  /-- PASS_COMPONENT_TABLE (R530): PLDM PassComponentTable. -/
  | passComponentTable (classification : BitVec 16)
  /-- UPDATE_COMPONENT (R533): PLDM UpdateComponent. -/
  | updateComponent (classification : BitVec 16) (size : BitVec 28)
  /-- REQUEST_FIRMWARE_DATA (R533): data answering RequestFirmwareData arrive. -/
  | requestFirmwareData (offset : BitVec 27) (data : List Byte)
  /-- TRANSFER_COMPLETE (R530): PLDM TransferComplete. -/
  | transferComplete
  /-- VERIFY_COMPLETE (R533): PLDM VerifyComplete. -/
  | verifyComplete
  /-- APPLY_COMPLETE (R533): PLDM ApplyComplete. -/
  | applyComplete
  /-- ACTIVATE_FIRMWARE (R533): PLDM ActivateFirmware. -/
  | activateFirmware
  /-- CANCEL_UPDATE (R533): PLDM CancelUpdate. -/
  | cancelUpdate
  /-- UNSUPPORTED_PLDM_COMMAND (R530): any other PLDM command. -/
  | unsupportedPldm (pldmType : Byte) (command : Byte)
  /-- INSERTION (R549): the module is mated in a tray slot. -/
  | insertion (slotId : BitVec 5)
  /-- WITHDRAWAL (R556): the module is withdrawn. -/
  | withdrawal
  /-- PWR_EN_RISE (R551): PWR_EN rises; whether its 100 ms low time is complete and the input has been in range for 10 ms. -/
  | pwrEnRise (lowDone : Bool) (vinOk : Bool)
  /-- PWR_EN_FALL (R553): PWR_EN falls. -/
  | pwrEnFall
  /-- UNDERVOLTAGE (R550): the input has been below 40 V for 50 us. -/
  | undervoltage
  /-- POWER_UP (R551): power-up begins. -/
  | powerUp
  /-- PARITY_GRANT (R422): the holder of a row grants a window. -/
  | parityGrant (src : BitVec 12) (context : BitVec 16) (seq : BitVec 32) (window : BitVec 32)
  /-- CONGESTION_NOTIFICATION_PACKET (R505): the export channel whose queue pair it names. -/
  | congestionNotificationPacket (channel : Fin 64)
deriving DecidableEq, Repr

end Sys2Proof
end

