-- ==== Sys2Proof/Decode.lean ====
section
/-! DEFINITION. The commands of this block are accesses and events: spec/opcode_table.json gives no row any bits, so no word
spells a command. -/

namespace Sys2Proof

/-- The command that a word of the table spells: none, because no row of the table has bits. DESIGN CHOICE, log entry 157. -/
def decodeTableWord (_nbits _w : Nat) : Option Instr := none

end Sys2Proof
end

