-- ==== Sys2Proof/Config.lean ====
section
/-! DEFINITION. What manufacture fixes and what the spec leaves open, as constants without a body: nothing in Lean can
evaluate them or prove a value of them (assumption DESIGN CHOICE, log entry 3). -/

namespace Sys2Proof.Config

/-- The SHA-512 hash of the vendor's public key, fused into slot 0 at manufacture (R45). -/
opaque vendorKeyHash : List Byte

/-- The device public key: the 133-byte point of SEC.DEVICE_PUBKEY (R534). -/
opaque devicePubKey : List Byte

/-- The certificate chain of SEC.DEVICE_CERT (R534). -/
opaque deviceCert : List Byte

/-- The 16-byte serial number (R535). -/
opaque serial : List Byte

/-- The signature r ‖ s of the device key over bytes 0 to 191 of a report (R535): the secret key never leaves the
Caller. -/
opaque attestSign : List Byte → List Byte

/-- The bytes of a parity area's stamp block for a SEQ, a freeze slot and a window bitmap, of which R421 gives no layout.
DESIGN CHOICE, log entry 148. -/
opaque stampBlock : Nat → Nat → Nat → List Byte

/-- The bytes of a message of the freeze engines on VC6 (read, grant or part by its first argument, then its context, SEQ or
area, window or first block, block or count, and data), of which R422 and R427 give no layout. -/
opaque vc6Bytes : Nat → Nat → Nat → Nat → Nat → List Byte → List Byte

/-- Which way a heater drive that lies midway between two codes is rounded (R293 says only: to the nearest). -/
opaque tieUp : Int → Bool

/-- A value the spec leaves open, fresh for each value of the counter it is applied to. -/
opaque freeValue : Nat → BitVec 64

end Sys2Proof.Config
end

