-- ==== Sys2Proof/Machine/Maps.lean ====
section
/-! DEFINITION. Sparse data by key: a list of (key, value) pairs with strictly rising keys and a fixed value for every
key that is not listed. Storing that value removes the entry, so equal contents are equal lists. Memories, the
register words and the per-unit tables of the state are held in this form. -/

namespace Sys2Proof.Machine

/-- Sparse data by key, in strictly rising key order. -/
abbrev SMap (α : Type) := List (Nat × α)

/-- The entry of a key, if one is listed. -/
def SMap.find {α : Type} : SMap α → Nat → Option α
  | [], _ => none
  | (k, v) :: m, a => if a = k then some v else SMap.find m a

/-- The value of a key: the listed one, or `d`. -/
def SMap.get {α : Type} (m : SMap α) (d : α) (a : Nat) : α := (m.find a).getD d

/-- Removes a key. -/
def SMap.erase {α : Type} : SMap α → Nat → SMap α
  | [], _ => []
  | (k, v) :: m, a => if a = k then SMap.erase m a else (k, v) :: SMap.erase m a

/-- Lists a key with a value. -/
def SMap.insert {α : Type} : SMap α → Nat → α → SMap α
  | [], a, w => [(a, w)]
  | (k, v) :: m, a, w =>
    if a = k then (a, w) :: m else if a < k then (a, w) :: (k, v) :: m else (k, v) :: SMap.insert m a w

/-- Stores a value under a key; storing the value that unlisted keys have removes the entry. -/
def SMap.put {α : Type} [DecidableEq α] (m : SMap α) (d : α) (a : Nat) (w : α) : SMap α :=
  if w = d then m.erase a else m.insert a w

/-- The canonical form: keys strictly rising, and no entry equal to what an unlisted key has. -/
def SMap.wf {α : Type} [DecidableEq α] (d : α) : SMap α → Bool
  | [] => true
  | [(_, v)] => decide (v ≠ d)
  | (k, v) :: (k', v') :: m => decide (v ≠ d) && decide (k < k') && SMap.wf d ((k', v') :: m)

/-- Keeps the entries whose key satisfies a test. -/
def SMap.keep {α : Type} (m : SMap α) (p : Nat → Bool) : SMap α := m.filter fun e => p e.1

/-- `n` consecutive values from key `a`. -/
def SMap.read {α : Type} (m : SMap α) (d : α) (a : Nat) : Nat → List α
  | 0 => []
  | n + 1 => m.get d a :: SMap.read m d (a + 1) n

/-- Stores a list of values from key `a` on. -/
def SMap.write {α : Type} [DecidableEq α] (m : SMap α) (d : α) (a : Nat) : List α → SMap α
  | [] => m
  | v :: vs => SMap.write (m.put d a v) d (a + 1) vs

/-- A value as `n` bytes, least significant byte first (R3). -/
def toBytes : Nat → Nat → List Byte
  | 0, _ => []
  | n + 1, v => BitVec.ofNat 8 v :: toBytes n (v / 256)

/-- The value of bytes stored least significant byte first (R3). -/
def ofBytes : List Byte → Nat
  | [] => 0
  | b :: bs => b.toNat + 256 * ofBytes bs

/-- The value of bytes stored most significant byte first (R44). -/
def ofBytesBE (bs : List Byte) : Nat := bs.foldl (fun a b => a * 256 + b.toNat) 0

/-- A value as `n` bytes, most significant byte first (R44). -/
def toBytesBE (n v : Nat) : List Byte := (toBytes n v).reverse

/-- Bits `[h:l]` of a value (R2). -/
def bits (v h l : Nat) : Nat := (v >>> l) % 2 ^ (h + 1 - l)

/-- Bit `[b]` of a value (R2). -/
def bit (v b : Nat) : Bool := Nat.testBit v b

/-- A value with bits `[h:l]` replaced. -/
def setBits (v h l w : Nat) : Nat := v - (bits v h l <<< l) + ((w % 2 ^ (h + 1 - l)) <<< l)

/-- The signed value of an `n`-bit pattern in two's complement. -/
def signed (n v : Nat) : Int := if v % 2 ^ n < 2 ^ (n - 1) then (v % 2 ^ n : Nat) else (v % 2 ^ n : Nat) - (2 ^ n : Nat)

/-- The `n`-bit two's complement pattern of an integer. -/
def unsigned (n : Nat) (i : Int) : Nat := (i % (2 ^ n : Nat)).toNat

/-- A Bool as a bit. -/
def bitOf (b : Bool) : Nat := if b then 1 else 0

/-- The number of set bits among the low `n` bits of a value. -/
def popCount : Nat → Nat → Nat
  | 0, _ => 0
  | n + 1, v => v % 2 + popCount n (v / 2)

/-- The numbers of the set bits among the low `n` bits of a value, lowest first. -/
def setBitsOf (n v : Nat) : List Nat := (List.range n).filter fun b => bit v b

/-- Replaces the entry at a position of a list, if there is one. -/
def listSet {α : Type} : List α → Nat → α → List α
  | [], _, _ => []
  | _ :: xs, 0, y => y :: xs
  | x :: xs, n + 1, y => x :: listSet xs n y

/-- A list cut or padded to a length. -/
def padTo {α : Type} (n : Nat) (d : α) (xs : List α) : List α := (xs.take n) ++ List.replicate (n - xs.length) d

end Sys2Proof.Machine
end

