-- ==== Sys2Proof/Machine/Crypto.lean ====
section
/-! DEFINITION. The digests and the signature check the part computes: SHA-512 (FIPS 180-4) and ECDSA over P-521
(FIPS 186-5) for the image (R44, R45), CRC-32C (R451) and CRC-64 as their rules give them. -/

namespace Sys2Proof.Machine

/-! ### SHA-512 -/

/-- The round constants of SHA-512 (FIPS 180-4). -/
def sha512K : List Nat :=
  [0x428A2F98D728AE22, 0x7137449123EF65CD, 0xB5C0FBCFEC4D3B2F, 0xE9B5DBA58189DBBC]
  ++ [0x3956C25BF348B538, 0x59F111F1B605D019, 0x923F82A4AF194F9B, 0xAB1C5ED5DA6D8118]
  ++ [0xD807AA98A3030242, 0x12835B0145706FBE, 0x243185BE4EE4B28C, 0x550C7DC3D5FFB4E2]
  ++ [0x72BE5D74F27B896F, 0x80DEB1FE3B1696B1, 0x9BDC06A725C71235, 0xC19BF174CF692694]
  ++ [0xE49B69C19EF14AD2, 0xEFBE4786384F25E3, 0x0FC19DC68B8CD5B5, 0x240CA1CC77AC9C65]
  ++ [0x2DE92C6F592B0275, 0x4A7484AA6EA6E483, 0x5CB0A9DCBD41FBD4, 0x76F988DA831153B5]
  ++ [0x983E5152EE66DFAB, 0xA831C66D2DB43210, 0xB00327C898FB213F, 0xBF597FC7BEEF0EE4]
  ++ [0xC6E00BF33DA88FC2, 0xD5A79147930AA725, 0x06CA6351E003826F, 0x142929670A0E6E70]
  ++ [0x27B70A8546D22FFC, 0x2E1B21385C26C926, 0x4D2C6DFC5AC42AED, 0x53380D139D95B3DF]
  ++ [0x650A73548BAF63DE, 0x766A0ABB3C77B2A8, 0x81C2C92E47EDAEE6, 0x92722C851482353B]
  ++ [0xA2BFE8A14CF10364, 0xA81A664BBC423001, 0xC24B8B70D0F89791, 0xC76C51A30654BE30]
  ++ [0xD192E819D6EF5218, 0xD69906245565A910, 0xF40E35855771202A, 0x106AA07032BBD1B8]
  ++ [0x19A4C116B8D2D0C8, 0x1E376C085141AB53, 0x2748774CDF8EEB99, 0x34B0BCB5E19B48A8]
  ++ [0x391C0CB3C5C95A63, 0x4ED8AA4AE3418ACB, 0x5B9CCA4F7763E373, 0x682E6FF3D6B2B8A3]
  ++ [0x748F82EE5DEFB2FC, 0x78A5636F43172F60, 0x84C87814A1F0AB72, 0x8CC702081A6439EC]
  ++ [0x90BEFFFA23631E28, 0xA4506CEBDE82BDE9, 0xBEF9A3F7B2C67915, 0xC67178F2E372532B]
  ++ [0xCA273ECEEA26619C, 0xD186B8C721C0C207, 0xEADA7DD6CDE0EB1E, 0xF57D4F7FEE6ED178]
  ++ [0x06F067AA72176FBA, 0x0A637DC5A2C898A6, 0x113F9804BEF90DAE, 0x1B710B35131C471B]
  ++ [0x28DB77F523047D84, 0x32CAAB7B40C72493, 0x3C9EBE0A15C9BEBC, 0x431D67C49C100D4C]
  ++ [0x4CC5D4BECB3E42B6, 0x597F299CFC657E2A, 0x5FCB6FAB3AD6FAEC, 0x6C44198C4A475817]

/-- The initial hash value of SHA-512 (FIPS 180-4). -/
def sha512H0 : List Nat :=
  [0x6A09E667F3BCC908, 0xBB67AE8584CAA73B, 0x3C6EF372FE94F82B, 0xA54FF53A5F1D36F1]
  ++ [0x510E527FADE682D1, 0x9B05688C2B3E6C1F, 0x1F83D9ABFB41BD6B, 0x5BE0CD19137E2179]

/-- 64-bit rotation to the right. -/
def rotr64 (x n : Nat) : Nat := (x >>> n) ||| ((x <<< (64 - n)) % 2 ^ 64)

/-- Extends the message schedule, held newest word first, by a number of words. -/
def sha512Extend : Nat → List Nat → List Nat
  | 0, ws => ws
  | n + 1, ws =>
    let w (i : Nat) := ws.getD (i - 1) 0
    let s0 := rotr64 (w 15) 1 ^^^ rotr64 (w 15) 8 ^^^ (w 15 >>> 7)
    let s1 := rotr64 (w 2) 19 ^^^ rotr64 (w 2) 61 ^^^ (w 2 >>> 6)
    sha512Extend n (((w 16 + s0 + w 7 + s1) % 2 ^ 64) :: ws)

/-- One round of SHA-512 on the eight working variables. -/
def sha512Round (v : List Nat) (kw : Nat × Nat) : List Nat :=
  match v with
  | [a, b, c, d, e, f, g, h] =>
    let s1 := rotr64 e 14 ^^^ rotr64 e 18 ^^^ rotr64 e 41
    let ch := (e &&& f) ^^^ ((2 ^ 64 - 1 - e) &&& g)
    let t1 := h + s1 + ch + kw.1 + kw.2
    let s0 := rotr64 a 28 ^^^ rotr64 a 34 ^^^ rotr64 a 39
    let maj := (a &&& b) ^^^ (a &&& c) ^^^ (b &&& c)
    [(t1 + s0 + maj) % 2 ^ 64, a, b, c, (d + t1) % 2 ^ 64, e, f, g]
  | _ => v

/-- The big-endian 64-bit words of a byte string. -/
def beWords : Nat → List Byte → List Nat
  | 0, _ => []
  | n + 1, bs => ofBytesBE (bs.take 8) :: beWords n (bs.drop 8)

/-- One 128-byte block of SHA-512. -/
def sha512Block (h : List Nat) (blk : List Byte) : List Nat :=
  let sched := (sha512Extend 64 (beWords 16 blk).reverse).reverse
  let v := (sha512K.zip sched).foldl sha512Round h
  (h.zip v).map fun p => (p.1 + p.2) % 2 ^ 64

/-- The blocks of a padded message. -/
def sha512Blocks : Nat → List Nat → List Byte → List Nat
  | 0, h, _ => h
  | n + 1, h, bs => sha512Blocks n (sha512Block h (bs.take 128)) (bs.drop 128)

/-- SHA-512 of a byte string, 64 bytes, most significant byte first (R44). -/
def sha512 (msg : List Byte) : List Byte :=
  let n := msg.length
  let padded := msg ++ [0x80#8] ++ List.replicate ((239 - n % 128) % 128) 0#8 ++ toBytesBE 16 (8 * n)
  (sha512Blocks (padded.length / 128) sha512H0 padded).flatMap (toBytesBE 8)

/-! ### P-521 -/

/-- The field prime of P-521. -/
def p521P : Nat := 2 ^ 521 - 1
/-- The order of the base point of P-521. -/
def p521N : Nat := 0x1FFFFFFFFFFFFFFFFFFFFFFFFFFFFFFFFFFFFFFFFFFFFFFFFFFFFFFFFFFFFFFFFFFFA51868783BF2F966B7FCC0148F709A5D03BB5C9B8899C47AEBB6FB71E91386409
/-- The coefficient b of P-521. -/
def p521B : Nat := 0x51953EB9618E1C9A1F929A21A0B68540EEA2DA725B99B315F3B8B489918EF109E156193951EC7E937B1652C0BD3BB1BF073573DF883D2C34F1EF451FD46B503F00
/-- The base point of P-521. -/
def p521Gx : Nat := 0xC6858E06B70404E9CD9E3ECB662395B4429C648139053FB521F828AF606B4D3DBAA14B5E77EFE75928FE1DC127A2FFA8DE3348B3C1856A429BF97E7E31C2E5BD66
/-- The base point of P-521. -/
def p521Gy : Nat := 0x11839296A789A3BC0045C8A5FB42C7D1BD998F54449579B446817AFBD17273E662C97EE72995EF42640C550B9013FAD0761353C7086A272C24088BE94769FD16650

/-- A point in Jacobian coordinates; Z = 0 is the point at infinity. -/
structure JPoint where
  x : Nat
  y : Nat
  z : Nat
deriving DecidableEq, Repr

/-- a − b modulo p. -/
def subMod (p a b : Nat) : Nat := (a + p - b % p) % p

/-- Doubles a point of P-521 (a = −3). -/
def jDouble (q : JPoint) : JPoint :=
  let p := p521P
  let d := q.z * q.z % p
  let g := q.y * q.y % p
  let b := q.x * g % p
  let a := 3 * (subMod p q.x d) * ((q.x + d) % p) % p
  let x3 := subMod p (a * a % p) (8 * b % p)
  let s := (q.y + q.z) % p
  let z3 := subMod p (subMod p (s * s % p) g) d
  let y3 := subMod p (a * (subMod p (4 * b % p) x3) % p) (8 * (g * g % p) % p)
  ⟨x3, y3, z3⟩

/-- Adds two points of P-521. -/
def jAdd (q r : JPoint) : JPoint :=
  let p := p521P
  if q.z = 0 then r else if r.z = 0 then q else
  let z1z1 := q.z * q.z % p
  let z2z2 := r.z * r.z % p
  let u1 := q.x * z2z2 % p
  let u2 := r.x * z1z1 % p
  let s1 := q.y * r.z % p * z2z2 % p
  let s2 := r.y * q.z % p * z1z1 % p
  if u1 = u2 then (if s1 = s2 then jDouble q else ⟨1, 1, 0⟩) else
  let h := subMod p u2 u1
  let hh := h * h % p
  let hhh := h * hh % p
  let rr := subMod p s2 s1
  let v := u1 * hh % p
  let x3 := subMod p (subMod p (rr * rr % p) hhh) (2 * v % p)
  let y3 := subMod p (rr * (subMod p v x3) % p) (s1 * hhh % p)
  ⟨x3, y3, q.z * r.z % p * h % p⟩

/-- A multiple of a point, from the low `n` bits of the factor. -/
def jMul : Nat → Nat → JPoint → JPoint
  | 0, _, _ => ⟨1, 1, 0⟩
  | n + 1, k, q => if k % 2 = 1 then jAdd q (jMul n (k / 2) (jDouble q)) else jMul n (k / 2) (jDouble q)

/-- A power modulo m, from the low `n` bits of the exponent. -/
def powMod (m : Nat) : Nat → Nat → Nat → Nat
  | 0, _, _ => 1 % m
  | n + 1, b, e =>
    let r := powMod m n (b * b % m) (e / 2)
    if e % 2 = 1 then r * b % m else r

/-- The ECDSA P-521 check of a signature (r, s) over a 64-byte SHA-512 digest by an uncompressed point (R44, R45). -/
def p521Verify (point digest rBytes sBytes : List Byte) : Bool :=
  let p := p521P
  let n := p521N
  let x := ofBytesBE ((point.drop 1).take 66)
  let y := ofBytesBE ((point.drop 67).take 66)
  let r := ofBytesBE rBytes
  let s := ofBytesBE sBytes
  if point.headD 0 ≠ 4 ∨ x ≥ p ∨ y ≥ p ∨ r = 0 ∨ r ≥ n ∨ s = 0 ∨ s ≥ n then false
  else if y * y % p ≠ (subMod p (x * x % p * x % p) (3 * x % p) + p521B) % p then false
  else
    let z := ofBytesBE digest % n
    let w := powMod n 521 s (n - 2)
    let q := jAdd (jMul 521 (z * w % n) ⟨p521Gx, p521Gy, 1⟩) (jMul 521 (r * w % n) ⟨x, y, 1⟩)
    if q.z = 0 then false
    else
      let zz := q.z * q.z % p
      decide (r * zz % p = q.x) || (decide (r + n < p) && decide ((r + n) * zz % p = q.x))

/-! ### CRCs -/

/-- The eight shifts of one byte in a reflected CRC. -/
def crcShift (poly : Nat) : Nat → Nat → Nat
  | 0, c => c
  | n + 1, c => crcShift poly n (if c % 2 = 1 then (c >>> 1) ^^^ poly else c >>> 1)

/-- A reflected CRC with initial value and final XOR all ones; `poly` is the reflected polynomial. -/
def crcReflected (width poly : Nat) (bs : List Byte) : Nat :=
  (bs.foldl (fun c b => crcShift poly 8 (c ^^^ b.toNat)) (2 ^ width - 1)) ^^^ (2 ^ width - 1)

/-- CRC-32C of R451: polynomial 0x1EDC_6F41, reflected. -/
def crc32c (bs : List Byte) : Nat := crcReflected 32 0x82F63B78 bs

/-- CRC-64/XZ of R328: polynomial 0x42F0_E1EB_A9EA_3693, reflected. -/
def crc64xz (bs : List Byte) : Nat := crcReflected 64 0xC96C5795D7870F42 bs

end Sys2Proof.Machine
end

