-- ==== Sys2Proof/Machine/Image.lean ====
section
/-! DEFINITION. The Icquanen image as bytes: its header and section walk (R39, R40, R44), the checks of VERIFY (R45) and
the checks of PARSE in the order of R562, with the ranges the owning chapters give. Every function here is a plain
function of the image bytes, the strap and the fuses; what start does with the answer is in Start.lean. -/

namespace Sys2Proof.Machine

/-- The start failure codes of R68. -/
inductive StartCode where
  | none | flashRead | imgMagic | imgGeneration | imgLength | imgDigest | keyUnknown | keyRevoked | imgSignature
  | sectionMalformed | sectionMissing | sectionEmpty | sectionUnknown | slotMismatch | feature | clockLock | diePower
  | tooFewSets | tooFewStacks | tierB | tierC | stageTimeout | retainedCopy | misstepPolicy
deriving DecidableEq, Repr

/-- The number of a start failure code (R68). -/
def StartCode.num : StartCode → Nat
  | .none => 0x00 | .flashRead => 0x01 | .imgMagic => 0x02 | .imgGeneration => 0x03 | .imgLength => 0x04
  | .imgDigest => 0x05 | .keyUnknown => 0x06 | .keyRevoked => 0x07 | .imgSignature => 0x08 | .sectionMalformed => 0x09
  | .sectionMissing => 0x0A | .sectionEmpty => 0x0B | .sectionUnknown => 0x0C | .slotMismatch => 0x0D | .feature => 0x0E
  | .clockLock => 0x0F | .diePower => 0x10 | .tooFewSets => 0x11 | .tooFewStacks => 0x12 | .tierB => 0x13 | .tierC => 0x14
  | .stageTimeout => 0x15 | .retainedCopy => 0x16 | .misstepPolicy => 0x17

/-- `n` bytes of a byte string at an offset, as a little-endian value (R3). -/
def leAt (bs : List Byte) (off n : Nat) : Nat := ofBytes ((bs.drop off).take n)

/-- The first error of two checks in order. -/
def firstErr (a b : Option StartCode) : Option StartCode := match a with | some c => some c | .none => b

/-- The first error of a list of checks in order. -/
def firstOf : List (Option StartCode) → Option StartCode
  | [] => .none
  | c :: cs => firstErr c (firstOf cs)

/-- An error when a condition holds. -/
def errIf (b : Bool) (c : StartCode) : Option StartCode := if b then some c else .none

/-! ### Header and section walk -/

/-- A section as the walk finds it (R40). -/
structure Section where
  ty     : Nat
  flags  : Nat
  length : Nat
  value  : List Byte
  pad    : List Byte
deriving DecidableEq, Repr

/-- The length of a value with its padding to a multiple of 8 (R40). -/
def padded8 (n : Nat) : Nat := (n + 7) / 8 * 8

/-- Walks `n` section headers of the bytes from an offset; answers the sections and the offset where the walk ends,
or none where it runs past the end of the bytes. -/
def walkSections (img : List Byte) : Nat → Nat → Option (List Section × Nat)
  | 0, off => some ([], off)
  | n + 1, off =>
    if off + 8 > img.length then .none else
    let len := leAt img (off + 4) 4
    let next := off + 8 + padded8 len
    if next > img.length then .none else
    match walkSections img n next with
    | .none => .none
    | some (ss, e) =>
      some (⟨leAt img off 2, leAt img (off + 2) 2, len, (img.drop (off + 8)).take len,
        (img.drop (off + 8 + len)).take (padded8 len - len)⟩ :: ss, e)

/-- "ICQUANEN". -/
def imgMagic : List Byte := [0x49#8, 0x43#8, 0x51#8, 0x55#8, 0x41#8, 0x4E#8, 0x45#8, 0x4E#8]

/-- The LENGTH field of the header. -/
def imgLength (img : List Byte) : Nat := leAt img 0x10 4
/-- The SECTION_COUNT field of the header. -/
def imgSectionCount (img : List Byte) : Nat := leAt img 0x14 2
/-- The KEY_SLOT field of the header. -/
def imgKeySlot (img : List Byte) : Nat := leAt img 0x16 1
/-- The FEATURES field of the header. -/
def imgFeatures (img : List Byte) : Nat := leAt img 0x18 8
/-- The IMAGE_VERSION field of the header. -/
def imgVersion (img : List Byte) : Nat := leAt img 0x0C 4

/-- The sections of an image, when its walk ends at LENGTH − 332 (R44). -/
def imgSections (img : List Byte) : Option (List Section) :=
  let len := imgLength img
  match walkSections (img.take len) (imgSectionCount img) 0x40 with
  | some (ss, e) => if e + 332 = len then some ss else .none
  | .none => .none

/-- The header checks of IMAGE_READ in the order of R45: MAGIC, GENERATION, LENGTH with the walk, reserved fields. -/
def headerCheck (img : List Byte) : Option StartCode :=
  let len := imgLength img
  firstOf [
    errIf (decide (img.take 8 ≠ imgMagic)) .imgMagic,
    errIf (decide (leAt img 8 1 ≠ 1 ∨ leAt img 0x0A 2 ≠ 1)) .imgGeneration,
    errIf (decide (len < 0x200 ∨ len > 0x8000000 ∨ len > img.length)) .imgLength,
    errIf (imgSections img).isNone .imgLength,
    errIf (decide (leAt img 9 1 ≠ 0 ∨ leAt img 0x17 1 ≠ 0 ∨ leAt img 0x20 32 ≠ 0)) .imgMagic]

/-! ### VERIFY -/

/-- The key slots as the fuses hold them: the key hash of slots 0 to 4 (empty: not fused), the revocation fuses and
the test-privilege bits of customer slots 1 to 4 (bit k − 1). -/
structure Fuses where
  keyHash  : List (List Byte)
  revoked  : Nat
  testPriv : Nat
deriving DecidableEq, Repr

/-- Whether a slot is fused. -/
def Fuses.fused (f : Fuses) (slot : Nat) : Bool := decide (f.keyHash.getD slot [] ≠ [])

/-- Whether a customer slot is revoked; slot 0 cannot be. -/
def Fuses.isRevoked (f : Fuses) (slot : Nat) : Bool := decide (slot ≠ 0) && bit f.revoked (slot - 1)

/-- Whether a slot has test privilege; slot 0 has none on a shipped module. -/
def Fuses.hasPriv (f : Fuses) (slot : Nat) : Bool := decide (slot ≠ 0) && bit f.testPriv (slot - 1)

/-- The mask of fused customer slots (bit k − 1), as CFG.FUSED shows it. -/
def Fuses.fusedMask (f : Fuses) : Nat :=
  (List.range 4).foldl (fun m k => m + (if f.fused (k + 1) then 2 ^ k else 0)) 0

/-- The checks of VERIFY in the order of R45: digest, key block padding, key hash, revocation, signature; with the failure,
the key slot concerned. -/
def verifyCheck (img : List Byte) (f : Fuses) : Option StartCode × Nat :=
  let len := imgLength img
  let keyAt := len - 332
  let covered := img.take (len - 196)
  let digest := (img.drop (len - 196)).take 64
  let point := (img.drop keyAt).take 133
  let slot := imgKeySlot img
  let err := firstOf [
    errIf (decide (sha512 covered ≠ digest)) .imgDigest,
    errIf (decide (leAt img (keyAt + 133) 3 ≠ 0)) .keyUnknown,
    errIf (decide (slot > 4) || !f.fused slot || decide (sha512 point ≠ f.keyHash.getD slot [])) .keyUnknown,
    errIf (f.isRevoked slot) .keyRevoked,
    errIf (!p521Verify point (sha512 covered) ((img.drop (len - 132)).take 66) ((img.drop (len - 66)).take 66)) .imgSignature]
  (err, if err = some .keyUnknown ∨ err = some .keyRevoked then slot else 0)

/-! ### PARSE -/

/-- SECTION_MALFORMED when a condition holds. -/
def bad (b : Bool) : Option StartCode := errIf b .sectionMalformed
/-- SECTION_EMPTY when a condition holds. -/
def empt (b : Bool) : Option StartCode := errIf b .sectionEmpty

/-- The fixed length of a section of R42; none for the variable ones and unknown types. -/
def sectionLength : Nat → Option Nat
  | 0x01 => some 8 | 0x02 => some 8 | 0x03 => some 200 | 0x04 => some 32 | 0x05 => some 8 | 0x06 => some 8
  | 0x08 => some 4 | 0x09 => some 32 | 0x0B => some 16 | 0x0C => some 4 | 0x0D => some 8 | 0x0E => some 4
  | 0x0F => some 4 | _ => .none

/-- Whether all 8-byte entries of a variable-length section pass a check, with the first failure. -/
def entriesCheck (chk : List Byte → Option StartCode) : Nat → List Byte → Option StartCode
  | 0, _ => .none
  | n + 1, v => firstErr (chk (v.take 8)) (entriesCheck chk n (v.drop 8))

/-- The ranges of the eight WATCHDOG fields (R466). -/
def watchdogRanges : List (Nat × Nat × Nat) :=
  [(60000000, 1000, 4000000000), (2000, 500, 100000), (5000, 500, 100000), (10000, 2000, 1000000),
   (3000, 1500, 60000), (1000, 100, 1000), (50000, 1000, 1000000), (1000, 100, 1000000)]

/-- The defaults and ranges of THERMAL (R520). -/
def thermalRanges : List (Nat × Nat × Nat) := [(95, 70, 105), (100, 70, 110), (5, 1, 20)]

/-- A field whose zero selects its default. -/
def orDefault (v d : Nat) : Nat := if v = 0 then d else v

/-- The field checks of one section in offset order (R42, R43, R563 and the owning chapters). -/
def fieldsCheck (ty : Nat) (v : List Byte) : Option StartCode :=
  let u8 (o : Nat) := leAt v o 1
  let u16 (o : Nat) := leAt v o 2
  let u32 (o : Nat) := leAt v o 4
  match ty with
  | 0x01 => bad (decide (u8 0 > 127 ∨ u8 1 > 31 ∨ u8 2 > 1 ∨ leAt v 3 5 ≠ 0))
  | 0x02 => firstOf [empt (decide (u16 0 = 0)), bad (decide (u16 0 ≠ 12000)), empt (decide (u16 2 = 0)),
      bad (decide (u16 2 < 8533 ∨ u16 2 > 10667))]
  | 0x03 => firstOf ([empt (decide (u16 0 = 0)), bad (decide (u16 0 ≥ 0x1000)),
      bad (decide (u16 2 - (u16 2 &&& u16 0) ≠ 0)), empt (decide (u32 4 = 0)), bad (decide (u32 4 < 100 ∨ u32 4 > 10000))]
      ++ (List.range 12).map (fun p =>
        let lines := (List.range 16).map fun s => u8 (8 + 16 * p + s)
        bad (bit (u16 0) p && (lines.any (fun l => decide (l > 31)) || decide (¬ lines.Nodup)))))
  | 0x04 => firstOf ([bad (decide (u8 0 > 1)), bad (decide (u8 1 ≠ 1 ∧ u8 1 ≠ 2)), bad (decide (u8 2 > 1)),
      bad (decide (u8 3 > 1)), empt (decide (u8 4 = 0)), bad (decide (u8 4 > 8)), empt (decide (u8 5 = 0)),
      bad (decide (u8 5 > 16)), bad (decide (u16 6 ≠ 0))]
      ++ (List.range 12).map (fun p => bad (decide (u16 (8 + 2 * p) > 4095 ∧ u16 (8 + 2 * p) ≠ 0xFFFF))))
  | 0x05 => bad (decide (u8 1 > 1 ∨ leAt v 2 6 ≠ 0))
  | 0x06 => firstOf ((List.range 8).map fun k => empt (decide (u8 k = 0)))
  | 0x07 => entriesCheck (fun e => if leAt e 2 2 = 0 then .none else
      bad (decide (leAt e 0 2 + leAt e 2 2 > 4096 ∨ leAt e 6 2 ≠ 0))) (v.length / 8) v
  | 0x08 => firstOf ((List.range 3).map (fun k =>
        let r := thermalRanges.getD k (0, 0, 0)
        bad (decide (u8 k ≠ 0 ∧ (u8 k < r.2.1 ∨ u8 k > r.2.2))))
      ++ [bad (decide (orDefault (u8 1) 100 < orDefault (u8 0) 95)), bad (decide (u8 3 ≠ 0))])
  | 0x09 => firstOf ((List.range 8).map fun k =>
        let r := watchdogRanges.getD k (0, 0, 0)
        bad (decide (u32 (4 * k) ≠ 0 ∧ (u32 (4 * k) < r.2.1 ∨ u32 (4 * k) > r.2.2))))
  | 0x0A => entriesCheck (fun e => if leAt e 2 2 = 0 then .none else
      bad (decide (leAt e 0 2 + leAt e 2 2 > 4096 ∨ leAt e 4 1 > 7 ∨ leAt e 5 3 ≠ 0))) (v.length / 8) v
  | 0x0B => firstOf [empt (decide (u16 12 = 0)), bad (decide (u16 12 < 1280 ∨ u16 12 > 9216)), bad (decide (u16 14 ≠ 0))]
  | 0x0C => firstOf [bad (decide (u8 0 > 3)), bad (decide (u8 1 ≠ 0)), empt (decide (u16 2 = 0)), bad (decide (u16 2 > 2048))]
  | 0x0D => firstOf [empt (decide (u8 0 = 0)), bad (decide (u8 0 > 192)), empt (decide (u8 1 = 0)), bad (decide (u8 1 > 12)),
      bad (decide (u8 2 > 1 ∨ u8 3 > 1 ∨ u8 4 > 1 ∨ leAt v 5 3 ≠ 0))]
  | 0x0E => bad (decide ((u8 0 ≠ 0 ∧ (u8 0 < 0x08 ∨ u8 0 > 0x77)) ∨ (u8 1 ≠ 0 ∧ (u8 1 < 8 ∨ u8 1 > 254)) ∨ u8 3 ≠ 0))
  | 0x0F => bad (decide (leAt v 1 3 ≠ 0))
  | _ => .none

/-- The check of one section (R562, step 1); `seen` holds the types already met. Answers the failure, if any, and
whether the section is skipped under R41. -/
def sectionCheck (seen : List Nat) (s : Section) : Option StartCode × Bool :=
  let known := decide (1 ≤ s.ty ∧ s.ty ≤ 0x0F)
  let required := bit s.flags 0
  let err := firstOf [
    bad (decide (s.flags > 1) || s.pad.any (fun b => decide (b ≠ 0))),
    errIf (!known && required) .sectionUnknown,
    bad (seen.contains s.ty),
    errIf (known && decide (s.length = 0) && decide (s.ty ≠ 0x07 ∧ s.ty ≠ 0x0A ∧ s.ty ≠ 0x0F)) .sectionEmpty,
    bad (match sectionLength s.ty with | some n => decide (s.length ≠ n) | .none => known && decide (s.length % 8 ≠ 0)),
    if known then fieldsCheck s.ty s.value else .none]
  (err, !known && !required)

/-- What PARSE answers: the skipped sections in order (TYPE, LENGTH) and the first failure with its FAIL_ITEM. -/
structure ParseResult where
  skips : List (Nat × Nat)
  err   : Option (StartCode × Nat)
deriving DecidableEq, Repr

/-- R562 step 1 over the sections in image order. -/
def sectionsCheck : List Nat → List Section → ParseResult
  | _, [] => ⟨[], .none⟩
  | seen, s :: ss =>
    match sectionCheck seen s with
    | (some c, _) => ⟨[], some (c, s.ty)⟩
    | (.none, skip) =>
      let r := sectionsCheck (s.ty :: seen) ss
      if skip then { r with skips := (s.ty, s.length) :: r.skips } else r

/-- The value of a section of an image, empty where it is absent. -/
def imgValue (img : List Byte) (ty : Nat) : List Byte :=
  match imgSections img with
  | some ss => (match ss.find? (fun s => decide (s.ty = ty)) with | some s => s.value | .none => [])
  | .none => []

/-- A little-endian field of a section of an image. -/
def imgField (img : List Byte) (ty off n : Nat) : Nat := leAt (imgValue img ty) off n

/-- The router-facing ports in floor mode (R346). -/
def floorRouterPorts : Nat := 0xDB6

/-- Whether a port faces a router, from TOPOLOGY (R346). -/
def imgRouterFacing (img : List Byte) (p : Nat) : Bool := decide (imgField img 0x04 0 1 = 0) && bit floorRouterPorts p

/-- The slot in use: the strap where SLOT_FROM_STRAP is 1 (R51). -/
def imgSlot (img : List Byte) (strap : Nat) : Nat :=
  if imgField img 0x01 2 1 = 1 then strap % 32 else imgField img 0x01 1 1

/-- The partner of an inter-floor port under R347; none for a port of another role. -/
def interFloorPartner (img : List Byte) (strap p : Nat) : Option Nat :=
  let gx := imgField img 0x04 4 1
  let gy := imgField img 0x04 5 1
  let fl := imgField img 0x01 0 1
  let x := fl % gx
  let y := fl / gx
  let at' (x y : Nat) : Nat := (x + gx * y) * 32 + imgSlot img strap
  match p with
  | 0 => some (at' ((x + gx - 1) % gx) y)
  | 3 => some (at' x ((y + gy - 1) % gy))
  | 6 => some (at' x ((y + 1) % gy))
  | 9 => some (at' ((x + 1) % gx) y)
  | _ => .none

/-- The PORT and ALT_PORT codes of R355. -/
def routePortOk (img : List Byte) (code : Nat) : Bool :=
  decide (code = 0xFF) || (decide (code < 12) && !imgRouterFacing img code)
  || (decide (imgField img 0x04 0 1 = 0) && decide (0x80 ≤ code ∧ code < 0xA0))

/-- The 16 lines of a port, as a 32-bit mask. -/
def imgLineSet (img : List Byte) (p : Nat) : Nat :=
  (List.range 16).foldl (fun m s => m ||| 2 ^ (imgField img 0x03 (8 + 16 * p + s) 1 % 32)) 0

/-- Whether a line set holds line (32 − k) mod 32 with every line k it holds (R348). -/
def lineSetClosed (m : Nat) : Bool := (List.range 32).all fun k => !bit m k || bit m ((32 - k) % 32)

/-- R562 step 3: the rules that test sections against one another, each with the FAIL_ITEM of the section that holds
the field found wrong (R291, R312, R348, R360). -/
def crossCheck (img : List Byte) (strap : Nat) : Option (StartCode × Nat) :=
  let mode := imgField img 0x04 0 1
  let enabled := imgField img 0x03 0 2
  let short := imgField img 0x03 2 2
  let neigh (p : Nat) := imgField img 0x04 (8 + 2 * p) 2
  let ports := List.range 12
  let routers := ports.filter fun p => imgRouterFacing img p && bit enabled p
  let entries := (List.range ((imgValue img 0x07).length / 8)).filter fun i => decide (imgField img 0x07 (8 * i + 2) 2 ≠ 0)
  let fails : List (Bool × Nat) := [
    (ports.any (fun p => bit short p && imgRouterFacing img p), 0x03),
    (ports.any (fun p => imgRouterFacing img p && decide (neigh p ≠ 0xFFFF)), 0x04),
    (decide (imgField img 0x01 0 1 ≥ imgField img 0x04 4 1 * imgField img 0x04 5 1), 0x01),
    (decide (mode = 0) && ports.any (fun p => match interFloorPartner img strap p with
        | some q => decide (neigh p ≠ 0xFFFF ∧ neigh p ≠ q) | .none => false), 0x04),
    (decide (mode = 0 ∧ short ≠ 0), 0x03),
    (decide (mode = 0) && (routers.any (fun p => decide (imgLineSet img p ≠ imgLineSet img (routers.headD 0)))
        || routers.any (fun p => !lineSetClosed (imgLineSet img p))), 0x03),
    (decide (mode = 1) && (List.range 6).any (fun p => decide (neigh p ≠ neigh (p + 6))), 0x04),
    (decide ((imgValue img 0x07).length / 8 > 256), 0x07),
    (entries.any (fun i => !routePortOk img (imgField img 0x07 (8 * i + 4) 1)
        || !routePortOk img (imgField img 0x07 (8 * i + 5) 1)), 0x07),
    (decide (imgField img 0x04 1 1 = 2) && !bit (imgFeatures img) 9, 0x04)]
  match fails.find? (·.1) with
  | some (_, item) => some (.sectionMalformed, item)
  | .none => .none

/-- The feature bits that generation 1 implements (R325). -/
def featuresImplemented : Nat := 0xFFF

/-- Every PARSE check in the order of R562. -/
def parseCheck (img : List Byte) (strap : Nat) (f : Fuses) : ParseResult :=
  let ss := (imgSections img).getD []
  let r := sectionsCheck [] ss
  match r.err with
  | some _ => r
  | .none =>
    let missing := (List.range 15).filter fun k => decide (k ≠ 0) && !(ss.any fun s => decide (s.ty = k))
    let slot := imgKeySlot img
    let unimpl := (List.range 64).filter fun b => bit (imgFeatures img) b && !bit featuresImplemented b
    let err : Option (StartCode × Nat) :=
      match missing with
      | m :: _ => some (.sectionMissing, m)
      | [] => match crossCheck img strap with
        | some e => some e
        | .none =>
          if imgField img 0x01 2 1 = 0 ∧ imgField img 0x01 1 1 ≠ strap % 32 then some (.slotMismatch, 0x01)
          else match unimpl with
          | b :: _ => some (.feature, b)
          | [] =>
            if imgField img 0x05 0 1 ≠ 0 ∧ f.hasPriv slot = false then some (.misstepPolicy, slot)
            else if slot ≠ 0 ∧ bit (imgField img 0x0F 0 1) (slot - 1) = true then some (.keyRevoked, slot)
            else .none
    { r with err := err }

/-- The checks of stages 2 to 4 together, as recovery-hold VERIFY makes them (R65): the failure with its stage and
FAIL_ITEM. -/
def fullCheck (img : List Byte) (strap : Nat) (f : Fuses) : Option (StartCode × Nat × Nat) :=
  match headerCheck img with
  | some c => some (c, 2, 0)
  | .none => match verifyCheck img f with
    | (some c, slot) => some (c, 3, slot)
    | (.none, _) => match (parseCheck img strap f).err with
      | some (c, item) => some (c, 4, item)
      | .none => .none

end Sys2Proof.Machine
end

