-- ==== Sys2Proof/Machine/Fields.lean ====
section
/-! DEFINITION. Register fields of the control space: the access codes of R7, the reset and state ladder of R15 to R17,
the limits a field's Meaning puts on a written value, and the read, write and reset of one 32-bit word through
its fields. -/

namespace Sys2Proof.Machine

/-- The access codes of R7. -/
inductive Access where
  | rw | ro | w1c | w1s | wo | rwl
deriving DecidableEq, Repr

/-- What a Kept through entry names: a level of the ladder (R15), None (R17) or Image (R16). -/
inductive Level where
  | none | context | engine | partition | warm | standby | dormant | cold | image
deriving DecidableEq, Repr

/-- The rank of a level on the ladder, shallowest first; None ranks below every reset. -/
def Level.rank : Level → Nat
  | .none => 0 | .context => 1 | .engine => 2 | .partition => 3 | .warm => 4 | .standby => 5 | .dormant => 6
  | .cold => 7 | .image => 3

/-- Whether a field with this Kept through entry keeps its value through a reset of a level. An Image field is
reloaded by every reset from Warm downwards (R16) and is kept by the shallower ones. -/
def Level.keeps (kept reset : Level) : Bool := decide (reset.rank ≤ kept.rank)

/-- What a field's Meaning does to a value that is written. -/
inductive Lim where
  | free                    -- stored as written
  | atLeast (n : Nat)       -- a smaller value is stored as n
  | within (lo hi : Nat)    -- stored at the nearer limit
  | zeroAs (n : Nat)        -- 0 is stored as n
  | onlyIn (lo hi : Nat)    -- a write of another value is discarded
  | lowZero (n : Nat)       -- the low n bits are written as zero
  | bytesNonZero            -- each byte of 0 is stored as 1
deriving DecidableEq, Repr

/-- A register field: the control-space address of its word, two strides with their counts for a field that is
repeated, its bits, access code, Default, Kept through entry and limit. -/
structure Fld where
  base : Nat
  s1   : Nat
  n1   : Nat
  s2   : Nat
  n2   : Nat
  hi   : Nat
  lo   : Nat
  acc  : Access
  dflt : Nat
  kept : Level
  lim  : Lim
deriving DecidableEq, Repr

/-- The address of the word of one copy of a field. -/
def Fld.addr (f : Fld) (i j : Nat) : Nat := f.base + i * f.s1 + j * f.s2

/-- Whether one of a field's copies lies in the word at an address. -/
def Fld.at (f : Fld) (a : Nat) : Bool :=
  decide (f.base ≤ a) &&
  (let d := a - f.base
   if f.n1 ≤ 1 ∧ f.n2 ≤ 1 then decide (d = 0)
   else if f.n2 ≤ 1 then decide (d % f.s1 = 0) && decide (d / f.s1 < f.n1)
   else if f.n1 ≤ 1 then decide (d % f.s2 = 0) && decide (d / f.s2 < f.n2)
   else decide (d / f.s1 < f.n1) && decide (d % f.s1 % f.s2 = 0) && decide (d % f.s1 / f.s2 < f.n2))

/-- The value stored when `v` is written over `old`, under the field's limit. -/
def Lim.store (l : Lim) (old v : Nat) : Nat :=
  match l with
  | .free => v
  | .atLeast n => max n v
  | .within lo hi => min hi (max lo v)
  | .zeroAs n => if v = 0 then n else v
  | .onlyIn lo hi => if lo ≤ v ∧ v ≤ hi then v else old
  | .lowZero n => v / 2 ^ n * 2 ^ n
  | .bytesNonZero => ofBytes ((toBytes 4 v).map fun b => if b = 0 then 1 else b)

/-- The value of a field within its word. -/
def Fld.get (f : Fld) (w : Nat) : Nat := bits w f.hi f.lo

/-- The word with a field set by the module itself. -/
def Fld.set (f : Fld) (w v : Nat) : Nat := setBits w f.hi f.lo v

/-- What a write of the word `v` does to one field of the word `old` (R7, R8): RWL fields are locked once start
has ended. -/
def Fld.write (f : Fld) (locked : Bool) (old v : Nat) : Nat :=
  match f.acc with
  | .rw => f.set old (f.lim.store (f.get old) (f.get v))
  | .rwl => if locked then old else f.set old (f.lim.store (f.get old) (f.get v))
  | .w1c => f.set old (f.get old - (f.get old &&& f.get v))
  | .w1s => f.set old (f.get old ||| f.get v)
  | .ro => old
  | .wo => old

/-- What one field of a word holds after a reset of a level (R15 to R17). -/
def Fld.reset (f : Fld) (l : Level) (old : Nat) : Nat := if f.kept.keeps l then old else f.set old f.dflt

/-- The Default of a word, from the fields that lie in it. -/
def wordDefault (fs : List Fld) (a : Nat) : Nat :=
  fs.foldl (fun w f => if f.at a then f.set w f.dflt else w) 0

/-- A word after a write through its fields; bits of no field are reserved and discarded (R9). -/
def wordWrite (fs : List Fld) (locked : Bool) (a old v : Nat) : Nat :=
  fs.foldl (fun w f => if f.at a then f.write locked w v else w) old

/-- What a read of a word returns: a WO field reads zero (R7), and so do the bits of no field (R9, R10). -/
def wordRead (fs : List Fld) (a old : Nat) : Nat :=
  fs.foldl (fun w f => if f.at a && decide (f.acc ≠ .wo) then f.set w (f.get old) else w) 0

/-- A word after a reset of a level. -/
def wordReset (fs : List Fld) (l : Level) (a old : Nat) : Nat :=
  fs.foldl (fun w f => if f.at a then f.reset l w else w) old

end Sys2Proof.Machine
end

