-- ==== Sys2Proof/Machine/Regs.lean ====
section
/-! DEFINITION. The field table of the control space: one definition per register field of the register tables of spec/
(R36, R69, R237, R262, R285, R310, R345, R361, R392, R410, R433, R448, R449, R463, R486, R509, R538, R539), in the order
of those tables; the reserved fields read as zero by being absent. The per-set window of R102 is computed from the
set state and has no entry here. -/

namespace Sys2Proof.Machine

/-! ### MOD block (R36 of 01_module_at_a_glance.md) -/

/-- R36: Tveddon vendor ID. -/
def MOD_VENDOR : Fld := ⟨0x000000, 0x0, 1, 0x0, 1, 15, 0, .ro, 0xB7D4, .cold, .free⟩
/-- R36: HV48 device ID. -/
def MOD_DEVICE : Fld := ⟨0x000000, 0x0, 1, 0x0, 1, 31, 16, .ro, 0x4830, .cold, .free⟩
/-- R36: silicon stepping: letter in [7:4] (0xA = A), number in [3:0]. -/
def MOD_STEPPING : Fld := ⟨0x000004, 0x0, 1, 0x0, 1, 7, 0, .ro, 0xA1, .cold, .free⟩
/-- R36: architecture generation; 2 and 3 reserved. -/
def MOD_GENERATION : Fld := ⟨0x000004, 0x0, 1, 0x0, 1, 11, 8, .ro, 0x1, .cold, .free⟩
/-- R36: slot within floor, from the image, cross-checked with SLOT_ID[4:0]. -/
def MOD_SLOT : Fld := ⟨0x000008, 0x0, 1, 0x0, 1, 4, 0, .ro, 0x0, .image, .free⟩
/-- R36: floor 0–127, from the image. -/
def MOD_FLOOR : Fld := ⟨0x000008, 0x0, 1, 0x0, 1, 11, 5, .ro, 0x0, .image, .free⟩
/-- R36: 0x0 starting, 0x1 ready, 0x2 recovery hold, 0x3 warm reset in progress; others reserved. -/
def MOD_PHASE : Fld := ⟨0x00000C, 0x0, 1, 0x0, 1, 3, 0, .ro, 0x0, .none, .free⟩
/-- R36: 0b00 Run, 0b01 Idle, 0b10 Standby, 0b11 reserved. -/
def MOD_POWER : Fld := ⟨0x00000C, 0x0, 1, 0x0, 1, 5, 4, .ro, 0x0, .none, .free⟩
/-- R36: 1 while the live dance card holds an unread record of a kind listed in R561. -/
def MOD_FAULT : Fld := ⟨0x00000C, 0x0, 1, 0x0, 1, 6, 6, .ro, 0x0, .none, .free⟩
/-- R36: sets in service after start, 0–768. -/
def MOD_SETS_USABLE : Fld := ⟨0x000010, 0x0, 1, 0x0, 1, 9, 0, .ro, 0x0, .none, .free⟩
/-- R36: arrays in service after start, 0–3,072. -/
def MOD_ARRAYS_USABLE : Fld := ⟨0x000014, 0x0, 1, 0x0, 1, 11, 0, .ro, 0x0, .none, .free⟩
/-- R36: bit s = 1: stack s in service. -/
def MOD_STACK_OK : Fld := ⟨0x000018, 0x0, 1, 0x0, 1, 11, 0, .ro, 0x0, .none, .free⟩
/-- R36: bit e = 1: Spelith engine e in service. -/
def MOD_ENGINE_OK : Fld := ⟨0x000018, 0x0, 1, 0x0, 1, 19, 16, .ro, 0x0, .none, .free⟩
/-- R36: bit d = 1: compute die d in service. -/
def MOD_DIE_OK : Fld := ⟨0x000018, 0x0, 1, 0x0, 1, 23, 20, .ro, 0x0, .none, .free⟩
/-- R36: Caller cycle count since cold start, bits [31:0]; read latches the high word under R11. -/
def MOD_CALLER_CYCLES_LO : Fld := ⟨0x00001C, 0x0, 1, 0x0, 1, 31, 0, .ro, 0x0, .standby, .free⟩
/-- R36: Caller cycle count since cold start, bits [63:32]. -/
def MOD_CALLER_CYCLES_HI : Fld := ⟨0x000020, 0x0, 1, 0x0, 1, 31, 0, .ro, 0x0, .standby, .free⟩
/-- R36: free for software; no effect on the module. -/
def MOD_SCRATCH : Fld := ⟨0x000024, 0x0, 1, 0x0, 1, 31, 0, .rw, 0x0, .warm, .free⟩
/-! ### CFG block (R69 of 02_start_and_configuration.md) -/

/-- R69: stage now running, 1–12. -/
def CFG_STAGE : Fld := ⟨0x020000, 0x0, 1, 0x0, 1, 3, 0, .ro, 0x0, .none, .free⟩
/-- R69: 1 when this start is a warm reset. -/
def CFG_WARM : Fld := ⟨0x020000, 0x0, 1, 0x0, 1, 4, 4, .ro, 0x0, .none, .free⟩
/-- R69: code of R68. -/
def CFG_START_CODE : Fld := ⟨0x020004, 0x0, 1, 0x0, 1, 7, 0, .ro, 0x0, .none, .free⟩
/-- R69: stage that failed. -/
def CFG_FAIL_STAGE : Fld := ⟨0x020004, 0x0, 1, 0x0, 1, 15, 8, .ro, 0x0, .none, .free⟩
/-- R69: section type, die, stack, key slot or feature bit concerned, under R50 and R562. -/
def CFG_FAIL_ITEM : Fld := ⟨0x020004, 0x0, 1, 0x0, 1, 31, 16, .ro, 0x0, .none, .free⟩
/-- R69: bit k − 1 set when stage k completes. -/
def CFG_STAGE_DONE : Fld := ⟨0x020008, 0x0, 1, 0x0, 1, 11, 0, .ro, 0x0, .none, .free⟩
/-- R69: CALLER_CYCLES at ready, bits [31:0]; R11. -/
def CFG_READY_CYCLES_LO : Fld := ⟨0x02000C, 0x0, 1, 0x0, 1, 31, 0, .ro, 0x0, .none, .free⟩
/-- R69: bits [63:32]. -/
def CFG_READY_CYCLES_HI : Fld := ⟨0x020010, 0x0, 1, 0x0, 1, 31, 0, .ro, 0x0, .none, .free⟩
/-- R69: IMAGE_VERSION of the applied image. -/
def CFG_IMAGE_VERSION : Fld := ⟨0x020014, 0x0, 1, 0x0, 1, 31, 0, .ro, 0x0, .image, .free⟩
/-- R69: LENGTH of the applied image. -/
def CFG_IMAGE_LENGTH : Fld := ⟨0x020018, 0x0, 1, 0x0, 1, 27, 0, .ro, 0x0, .image, .free⟩
/-- R69: slot that signed the applied image. -/
def CFG_KEY_SLOT : Fld := ⟨0x02001C, 0x0, 1, 0x0, 1, 2, 0, .ro, 0x0, .image, .free⟩
/-- R69: bit k − 1: customer slot k fused. -/
def CFG_FUSED : Fld := ⟨0x02001C, 0x0, 1, 0x0, 1, 11, 8, .ro, 0x0, .cold, .free⟩
/-- R69: bit k − 1: customer slot k revoked. -/
def CFG_REVOKED : Fld := ⟨0x02001C, 0x0, 1, 0x0, 1, 15, 12, .ro, 0x0, .cold, .free⟩
/-- R69: bit k − 1: customer slot k has test privilege. -/
def CFG_TEST_PRIV : Fld := ⟨0x02001C, 0x0, 1, 0x0, 1, 19, 16, .ro, 0x0, .cold, .free⟩
/-- R69: six words, two stages each; stage 2j + 1 in [15:0] and stage 2j + 2 in [31:16] of word j; duration in ms. -/
def CFG_STAGE_MS_A : Fld := ⟨0x020020, 0x4, 6, 0x0, 1, 15, 0, .ro, 0x0, .none, .free⟩
/-- R69: six words, two stages each; stage 2j + 1 in [15:0] and stage 2j + 2 in [31:16] of word j; duration in ms. -/
def CFG_STAGE_MS_B : Fld := ⟨0x020020, 0x4, 6, 0x0, 1, 31, 16, .ro, 0x0, .none, .free⟩
/-- R69: 1 OPEN, 2 VERIFY, 3 PROGRAM, 4 CLOSE, 5 RESTART, 6 ENTER_HOLD; others discarded. -/
def CFG_HOLD_CMD : Fld := ⟨0x020040, 0x0, 1, 0x0, 1, 3, 0, .wo, 0x0, .none, .free⟩
/-- R69: 0 none, 1 PCIe port 0, 2 PCIe port 1, 3 fabric, 4 Caller. -/
def CFG_OWNER : Fld := ⟨0x020044, 0x0, 1, 0x0, 1, 2, 0, .ro, 0x0, .none, .free⟩
/-- R69: command in progress. -/
def CFG_BUSY : Fld := ⟨0x020044, 0x0, 1, 0x0, 1, 3, 3, .ro, 0x0, .none, .free⟩
/-- R69: completion status of last command, R18. -/
def CFG_RESULT : Fld := ⟨0x020044, 0x0, 1, 0x0, 1, 9, 4, .ro, 0x0, .none, .free⟩
/-- R69: staged copy passed VERIFY and is unchanged since. -/
def CFG_STAGED_OK : Fld := ⟨0x020044, 0x0, 1, 0x0, 1, 10, 10, .ro, 0x0, .none, .free⟩
/-- R69: PROGRAM progress, 0–100. -/
def CFG_PROGRESS : Fld := ⟨0x020044, 0x0, 1, 0x0, 1, 22, 16, .ro, 0x0, .none, .free⟩
/-- R69: 4 KiB page of staging buffer shown in window. -/
def CFG_STAGE_PAGE : Fld := ⟨0x020048, 0x0, 1, 0x0, 1, 26, 12, .rw, 0x0, .none, .free⟩
/-- R69: staged image length in bytes. -/
def CFG_STAGE_LENGTH : Fld := ⟨0x02004C, 0x0, 1, 0x0, 1, 27, 0, .rw, 0x0, .none, .free⟩
/-! ### MEM block (R237 of 08_memory_tiers.md) -/

/-- R237: stacks in service, N of R215. -/
def MEM_A_STACKS : Fld := ⟨0x090000, 0x0, 1, 0x0, 1, 3, 0, .ro, 0x0, .warm, .free⟩
/-- R237: tier B controllers in service, M of R216. -/
def MEM_B_CTRLS : Fld := ⟨0x090000, 0x0, 1, 0x0, 1, 12, 8, .ro, 0x0, .warm, .free⟩
/-- R237: tier A capacity in GiB, N × 64. -/
def MEM_A_GIB : Fld := ⟨0x090004, 0x0, 1, 0x0, 1, 9, 0, .ro, 0x0, .warm, .free⟩
/-- R237: tier B capacity in GiB, M × 80. -/
def MEM_B_GIB : Fld := ⟨0x090004, 0x0, 1, 0x0, 1, 26, 16, .ro, 0x0, .warm, .free⟩
/-- R237: bit c = 1: controller c in service. -/
def MEM_B_OK : Fld := ⟨0x090008, 0x0, 1, 0x0, 1, 15, 0, .ro, 0x0, .warm, .free⟩
/-- R237: TIER_A_RATE, Mb/s per pin. -/
def MEM_A_RATE : Fld := ⟨0x09000C, 0x0, 1, 0x0, 1, 15, 0, .ro, 0x0, .image, .free⟩
/-- R237: TIER_B_RATE, Mb/s per pin. -/
def MEM_B_RATE : Fld := ⟨0x09000C, 0x0, 1, 0x0, 1, 31, 16, .ro, 0x0, .image, .free⟩
/-- R237: patrol period in seconds; 0 stops patrol. -/
def MEM_PATROL_S : Fld := ⟨0x090010, 0x0, 1, 0x0, 1, 31, 0, .rw, 0x0, .image, .free⟩
/-- R237: complete patrol passes; wraps. -/
def MEM_PATROL_PASSES : Fld := ⟨0x090014, 0x0, 1, 0x0, 1, 31, 0, .ro, 0x0, .none, .free⟩
/-- R237: class 1 promotion age, PORTCLK cycles; a value below 16 is stored as 16. -/
def MEM_AGE1 : Fld := ⟨0x090020, 0x0, 1, 0x0, 1, 15, 0, .rw, 0x100, .none, .atLeast 16⟩
/-- R237: class 2 promotion age, as AGE1. -/
def MEM_AGE2 : Fld := ⟨0x090024, 0x0, 1, 0x0, 1, 15, 0, .rw, 0x400, .none, .atLeast 16⟩
/-- R237: class 3 promotion age, as AGE1. -/
def MEM_AGE3 : Fld := ⟨0x090028, 0x0, 1, 0x0, 1, 15, 0, .rw, 0x1000, .none, .atLeast 16⟩
/-- R237: grants per 64 reserved to class 3; above 32 stored as 32; 0 none. -/
def MEM_RESERVE3 : Fld := ⟨0x09002C, 0x0, 1, 0x0, 1, 5, 0, .rw, 0x8, .none, .within 0 32⟩
/-- R237: tier A corrections; saturates. -/
def MEM_A_CE_TOTAL : Fld := ⟨0x090040, 0x0, 1, 0x0, 1, 31, 0, .ro, 0x0, .standby, .free⟩
/-- R237: tier A uncorrectable reads; saturates. -/
def MEM_A_UE_TOTAL : Fld := ⟨0x090044, 0x0, 1, 0x0, 1, 31, 0, .ro, 0x0, .standby, .free⟩
/-- R237: tier B corrections; saturates. -/
def MEM_B_CE_TOTAL : Fld := ⟨0x090048, 0x0, 1, 0x0, 1, 31, 0, .ro, 0x0, .standby, .free⟩
/-- R237: tier B uncorrectable reads; saturates. -/
def MEM_B_UE_TOTAL : Fld := ⟨0x09004C, 0x0, 1, 0x0, 1, 31, 0, .ro, 0x0, .standby, .free⟩
/-- R237: tier C reads that needed a retry; saturates. -/
def MEM_C_CE_TOTAL : Fld := ⟨0x090050, 0x0, 1, 0x0, 1, 31, 0, .ro, 0x0, .standby, .free⟩
/-- R237: tier C uncorrectable reads; saturates. -/
def MEM_C_UE_TOTAL : Fld := ⟨0x090054, 0x0, 1, 0x0, 1, 31, 0, .ro, 0x0, .standby, .free⟩
/-- R237: 0 A, 1 B, 2 C, 3 reserved. -/
def MEM_UE_TIER : Fld := ⟨0x090060, 0x0, 1, 0x0, 1, 1, 0, .ro, 0x0, .none, .free⟩
/-- R237: stack, controller or die port. -/
def MEM_UE_UNIT : Fld := ⟨0x090060, 0x0, 1, 0x0, 1, 5, 2, .ro, 0x0, .none, .free⟩
/-- R237: class of the request under R220. -/
def MEM_UE_CLASS : Fld := ⟨0x090060, 0x0, 1, 0x0, 1, 7, 6, .ro, 0x0, .none, .free⟩
/-- R237: captured fields valid under R226. -/
def MEM_UE_VALID : Fld := ⟨0x090060, 0x0, 1, 0x0, 1, 31, 31, .w1c, 0x0, .none, .free⟩
/-- R237: physical offset, or tier C block, bits [31:0]; R11. -/
def MEM_UE_OFFSET_LO : Fld := ⟨0x090064, 0x0, 1, 0x0, 1, 31, 0, .ro, 0x0, .none, .free⟩
/-- R237: bits [63:32]. -/
def MEM_UE_OFFSET_HI : Fld := ⟨0x090068, 0x0, 1, 0x0, 1, 31, 0, .ro, 0x0, .none, .free⟩
/-- R237: correction count per unit that gives MEM_CE_HIGH; 0 gives no record. -/
def MEM_CE_RECORD_AT : Fld := ⟨0x090070, 0x0, 1, 0x0, 1, 15, 0, .rw, 0x400, .none, .free⟩
/-- R237: word s: stack s corrections since warm reset; saturates. -/
def MEM_STACK_CE : Fld := ⟨0x090100, 0x4, 12, 0x0, 1, 15, 0, .ro, 0x0, .none, .free⟩
/-- R237: stack s uncorrectable reads; saturates. -/
def MEM_STACK_UE : Fld := ⟨0x090100, 0x4, 12, 0x0, 1, 23, 16, .ro, 0x0, .none, .free⟩
/-- R237: stack s lost under R229. -/
def MEM_STACK_LOST : Fld := ⟨0x090100, 0x4, 12, 0x0, 1, 24, 24, .ro, 0x0, .none, .free⟩
/-- R237: retired at next warm reset. -/
def MEM_STACK_RETIRE_PENDING : Fld := ⟨0x090100, 0x4, 12, 0x0, 1, 25, 25, .ro, 0x0, .none, .free⟩
/-- R237: word c: tier B controller c, fields as for stacks. -/
def MEM_CTRL_STATUS : Fld := ⟨0x090140, 0x4, 16, 0x0, 1, 25, 0, .ro, 0x0, .none, .free⟩
/-- R237: word c − 1: promoted grants of class c; wraps. -/
def MEM_AGED : Fld := ⟨0x090180, 0x4, 3, 0x0, 1, 31, 0, .ro, 0x0, .none, .free⟩
/-- R237: grants made from the class 3 reserve; wraps. -/
def MEM_RESERVE3_GRANTS : Fld := ⟨0x090190, 0x0, 1, 0x0, 1, 31, 0, .ro, 0x0, .none, .free⟩
/-- R237: 0 not mounted, 1 read-write, 2 read-only, 3 reserved. -/
def MEM_C_STATE : Fld := ⟨0x090200, 0x0, 1, 0x0, 1, 1, 0, .ro, 0x0, .warm, .free⟩
/-- R237: usable tier C blocks, 536,870,912 when mounted. -/
def MEM_C_BLOCKS : Fld := ⟨0x090204, 0x0, 1, 0x0, 1, 31, 0, .ro, 0x0, .warm, .free⟩
/-- R237: host blocks written since manufacture, bits [31:0]; R11. -/
def MEM_C_HOST_LO : Fld := ⟨0x090208, 0x0, 1, 0x0, 1, 31, 0, .ro, 0x0, .cold, .free⟩
/-- R237: bits [63:32]. -/
def MEM_C_HOST_HI : Fld := ⟨0x09020C, 0x0, 1, 0x0, 1, 31, 0, .ro, 0x0, .cold, .free⟩
/-- R237: flash blocks programmed since manufacture, bits [31:0]; R11. -/
def MEM_C_PROG_LO : Fld := ⟨0x090210, 0x0, 1, 0x0, 1, 31, 0, .ro, 0x0, .cold, .free⟩
/-- R237: bits [63:32]. -/
def MEM_C_PROG_HI : Fld := ⟨0x090214, 0x0, 1, 0x0, 1, 31, 0, .ro, 0x0, .cold, .free⟩
/-- R237: C_PROG >> 31, saturating. -/
def MEM_LIFE_USED_BP : Fld := ⟨0x090218, 0x0, 1, 0x0, 1, 15, 0, .ro, 0x0, .cold, .free⟩
/-- R237: spare blocks left, percent of those at manufacture. -/
def MEM_SPARE_LEFT : Fld := ⟨0x090218, 0x0, 1, 0x0, 1, 23, 16, .ro, 0x0, .cold, .free⟩
/-- R237: LIFE_USED_BP that gives TIER_C_WEAR. -/
def MEM_WEAR_WARN_BP : Fld := ⟨0x09021C, 0x0, 1, 0x0, 1, 15, 0, .rw, 0x2328, .none, .free⟩
/-! ### MSC block (R262 of 09_memory_side_cache.md) -/

/-- R262: slice number, equal to its stack. -/
def MSC_SLICE : Fld := ⟨0x080000, 0x1000, 12, 0x0, 1, 3, 0, .ro, 0x0, .cold, .free⟩
/-- R262: slice and stack in service. -/
def MSC_IN_SERVICE : Fld := ⟨0x080000, 0x1000, 12, 0x0, 1, 4, 4, .ro, 0x0, .warm, .free⟩
/-- R262: stack lost under R229 or R243. -/
def MSC_LOST : Fld := ⟨0x080000, 0x1000, 12, 0x0, 1, 5, 5, .ro, 0x0, .none, .free⟩
/-- R262: class 3 read misses do not allocate, under R240. -/
def MSC_BYPASS3 : Fld := ⟨0x080004, 0x1000, 12, 0x0, 1, 0, 0, .rw, 0x1, .none, .free⟩
/-- R262: row additions that miss allocate, under R258. -/
def MSC_ALLOC_ACC : Fld := ⟨0x080004, 0x1000, 12, 0x0, 1, 1, 1, .rw, 0x1, .none, .free⟩
/-- R262: dirty lines now held, 0–1,572,864. -/
def MSC_DIRTY_LINES : Fld := ⟨0x080010, 0x1000, 12, 0x0, 1, 20, 0, .ro, 0x0, .none, .free⟩
/-- R262: held-bad lines under R242; 0–256, or 257 once the stack is lost under R243. -/
def MSC_HELD_BAD : Fld := ⟨0x080014, 0x1000, 12, 0x0, 1, 8, 0, .ro, 0x0, .none, .free⟩
/-- R262: requests that hit, bits [31:0]; R11; wraps. -/
def MSC_HITS_LO : Fld := ⟨0x080020, 0x1000, 12, 0x0, 1, 31, 0, .ro, 0x0, .none, .free⟩
/-- R262: bits [63:32]. -/
def MSC_HITS_HI : Fld := ⟨0x080024, 0x1000, 12, 0x0, 1, 31, 0, .ro, 0x0, .none, .free⟩
/-- R262: requests that missed, bits [31:0]; R11; wraps. -/
def MSC_MISSES_LO : Fld := ⟨0x080028, 0x1000, 12, 0x0, 1, 31, 0, .ro, 0x0, .none, .free⟩
/-- R262: bits [63:32]. -/
def MSC_MISSES_HI : Fld := ⟨0x08002C, 0x1000, 12, 0x0, 1, 31, 0, .ro, 0x0, .none, .free⟩
/-- R262: atomics applied, bits [31:0]; R11; wraps. -/
def MSC_ATOMICS_LO : Fld := ⟨0x080030, 0x1000, 12, 0x0, 1, 31, 0, .ro, 0x0, .none, .free⟩
/-- R262: bits [63:32]. -/
def MSC_ATOMICS_HI : Fld := ⟨0x080034, 0x1000, 12, 0x0, 1, 31, 0, .ro, 0x0, .none, .free⟩
/-- R262: window row additions applied, bits [31:0]; R11; wraps. -/
def MSC_ROWS_LO : Fld := ⟨0x080038, 0x1000, 12, 0x0, 1, 31, 0, .ro, 0x0, .none, .free⟩
/-- R262: bits [63:32]. -/
def MSC_ROWS_HI : Fld := ⟨0x08003C, 0x1000, 12, 0x0, 1, 31, 0, .ro, 0x0, .none, .free⟩
/-- R262: row additions with an out-of-range addend; saturates. -/
def MSC_OVERRANGE_ROWS : Fld := ⟨0x080040, 0x1000, 12, 0x0, 1, 31, 0, .ro, 0x0, .none, .free⟩
/-- R262: check comparisons against this slice's accumulators that failed; saturates. -/
def MSC_CHECK_FAILS : Fld := ⟨0x080044, 0x1000, 12, 0x0, 1, 31, 0, .ro, 0x0, .none, .free⟩
/-- R262: repairs under R241; saturates. -/
def MSC_SLICE_CE : Fld := ⟨0x080048, 0x1000, 12, 0x0, 1, 31, 0, .ro, 0x0, .none, .free⟩
/-- R262: lines made held-bad; saturates. -/
def MSC_SLICE_UE : Fld := ⟨0x08004C, 0x1000, 12, 0x0, 1, 31, 0, .ro, 0x0, .none, .free⟩
/-- R262: UE_OFFSET captured under R242. -/
def MSC_UE_VALID : Fld := ⟨0x080050, 0x1000, 12, 0x0, 1, 0, 0, .w1c, 0x0, .none, .free⟩
/-- R262: tier A offset of the first held-bad line, bits [31:0]; R11. -/
def MSC_UE_OFFSET_LO : Fld := ⟨0x080054, 0x1000, 12, 0x0, 1, 31, 0, .ro, 0x0, .none, .free⟩
/-- R262: bits [63:32]. -/
def MSC_UE_OFFSET_HI : Fld := ⟨0x080058, 0x1000, 12, 0x0, 1, 31, 0, .ro, 0x0, .none, .free⟩
/-! ### FAB block (R285 of 10_fabric_address_space.md) -/

/-- R285: FLOOR × 32 + SLOT, under R51. -/
def FAB_MODULE_ID : Fld := ⟨0x0EF000, 0x0, 1, 0x0, 1, 11, 0, .ro, 0x0, .image, .free⟩
/-- R285: start count modulo 256; rises at every warm reset and cold start, under R281. -/
def FAB_EPOCH : Fld := ⟨0x0EF000, 0x0, 1, 0x0, 1, 19, 12, .ro, 0x0, .cold, .free⟩
/-- R285: timeout of R282 in µs; a value below 100 is stored as 100. -/
def FAB_REQ_TIMEOUT_US : Fld := ⟨0x0EF004, 0x0, 1, 0x0, 1, 16, 0, .rw, 0x7D0, .none, .atLeast 100⟩
/-- R285: translation cache misses; wraps. -/
def FAB_XLATE_MISSES : Fld := ⟨0x0EF008, 0x0, 1, 0x0, 1, 31, 0, .ro, 0x0, .none, .free⟩
/-- R285: requests refused at the source with ACCESS; saturates. -/
def FAB_ACCESS_OUT : Fld := ⟨0x0EF00C, 0x0, 1, 0x0, 1, 31, 0, .ro, 0x0, .none, .free⟩
/-- R285: requests refused here under R273; saturates. -/
def FAB_ACCESS_IN : Fld := ⟨0x0EF010, 0x0, 1, 0x0, 1, 31, 0, .ro, 0x0, .none, .free⟩
/-- R285: duplicates answered under R280; wraps. -/
def FAB_DUPLICATES : Fld := ⟨0x0EF014, 0x0, 1, 0x0, 1, 31, 0, .ro, 0x0, .none, .free⟩
/-- R285: requests below the window; saturates. -/
def FAB_STALE : Fld := ⟨0x0EF018, 0x0, 1, 0x0, 1, 31, 0, .ro, 0x0, .none, .free⟩
/-- R285: requests ended with TIMEOUT; saturates. -/
def FAB_TIMEOUTS : Fld := ⟨0x0EF01C, 0x0, 1, 0x0, 1, 31, 0, .ro, 0x0, .none, .free⟩
/-- R285: requests refused under R281; saturates. -/
def FAB_EPOCH_MISMATCH : Fld := ⟨0x0EF020, 0x0, 1, 0x0, 1, 31, 0, .ro, 0x0, .none, .free⟩
/-- R285: pairs now closed under R282. -/
def FAB_CLOSED_PAIRS : Fld := ⟨0x0EF024, 0x0, 1, 0x0, 1, 15, 0, .ro, 0x0, .none, .free⟩
/-- R285: source module of the captured refusal. -/
def FAB_IMP_SRC_MODULE : Fld := ⟨0x0EF030, 0x0, 1, 0x0, 1, 11, 0, .ro, 0x0, .none, .free⟩
/-- R285: 0 load, 1 store, 2 atomic, 3 window addition, 4 control space; others reserved. -/
def FAB_IMP_KIND : Fld := ⟨0x0EF030, 0x0, 1, 0x0, 1, 15, 12, .ro, 0x0, .none, .free⟩
/-- R285: space of the captured request. -/
def FAB_IMP_SPACE : Fld := ⟨0x0EF030, 0x0, 1, 0x0, 1, 17, 16, .ro, 0x0, .none, .free⟩
/-- R285: capture valid. -/
def FAB_IMP_VALID : Fld := ⟨0x0EF030, 0x0, 1, 0x0, 1, 31, 31, .w1c, 0x0, .none, .free⟩
/-- R285: source context of the captured request. -/
def FAB_IMP_SRC_CONTEXT : Fld := ⟨0x0EF034, 0x0, 1, 0x0, 1, 15, 0, .ro, 0x0, .none, .free⟩
/-- R285: owner context of the page; 0xFFFF when unowned. -/
def FAB_IMP_OWNER : Fld := ⟨0x0EF034, 0x0, 1, 0x0, 1, 31, 16, .ro, 0x0, .none, .free⟩
/-- R285: offset of the captured request, bits [31:0]; R11. -/
def FAB_IMP_OFFSET_LO : Fld := ⟨0x0EF038, 0x0, 1, 0x0, 1, 31, 0, .ro, 0x0, .none, .free⟩
/-- R285: bits [63:32]. -/
def FAB_IMP_OFFSET_HI : Fld := ⟨0x0EF03C, 0x0, 1, 0x0, 1, 31, 0, .ro, 0x0, .none, .free⟩
/-! ### OPT block (R310 of 11_spelith_optical_engines.md) -/

/-- R310: bit e: engine e's comb in READY. -/
def OPT_COMB_READY : Fld := ⟨0x0D0000, 0x0, 1, 0x0, 1, 3, 0, .ro, 0x0, .none, .free⟩
/-- R310: bit e: engine e's comb FAILED under R288. -/
def OPT_ENGINE_FAILED : Fld := ⟨0x0D0000, 0x0, 1, 0x0, 1, 7, 4, .ro, 0x0, .none, .free⟩
/-- R310: bit p: port p enabled. -/
def OPT_PORT_ENABLE : Fld := ⟨0x0D0004, 0x0, 1, 0x0, 1, 11, 0, .ro, 0x0, .image, .free⟩
/-- R310: bit p: port p in short mode. -/
def OPT_SHORT_MODE : Fld := ⟨0x0D0004, 0x0, 1, 0x0, 1, 27, 16, .ro, 0x0, .image, .free⟩
/-- R310: recalibration interval; below 100 stored as 100, above 10,000 as 10,000. -/
def OPT_RECAL_MS : Fld := ⟨0x0D0008, 0x0, 1, 0x0, 1, 13, 0, .rw, 0x0, .image, .within 100 10000⟩
/-- R310: bit p: port p faces a router, from TOPOLOGY. -/
def OPT_ROUTER_FACING : Fld := ⟨0x0D000C, 0x0, 1, 0x0, 1, 11, 0, .ro, 0x0, .image, .free⟩
/-- R310: identify and recalibration failures; saturates. -/
def OPT_MISLOCKS : Fld := ⟨0x0D0010, 0x0, 1, 0x0, 1, 31, 0, .ro, 0x0, .none, .free⟩
/-- R310: losses of lock under R300; saturates. -/
def OPT_LOCK_LOST : Fld := ⟨0x0D0014, 0x0, 1, 0x0, 1, 31, 0, .ro, 0x0, .none, .free⟩
/-- R310: lanes retired; saturates. -/
def OPT_LANE_RETIREMENTS : Fld := ⟨0x0D0018, 0x0, 1, 0x0, 1, 31, 0, .ro, 0x0, .none, .free⟩
/-- R310: changes faster than 1 °C/ms under R303; saturates. -/
def OPT_TRACK_RATE_EXCEEDED : Fld := ⟨0x0D001C, 0x0, 1, 0x0, 1, 31, 0, .ro, 0x0, .none, .free⟩
/-- R310: 0 OFF, 1 WARMING, 2 SETTLING, 3 READY, 4 FAILED; others reserved. -/
def OPT_E_COMB_STATE : Fld := ⟨0x0D0100, 0x20, 4, 0x0, 1, 2, 0, .ro, 0x0, .none, .free⟩
/-- R310: bit n: line n present under R288. -/
def OPT_E_LINE_OK : Fld := ⟨0x0D0104, 0x20, 4, 0x0, 1, 31, 0, .ro, 0x0, .none, .free⟩
/-- R310: engine temperature, signed, 0.01 °C. -/
def OPT_E_ENGINE_TEMP : Fld := ⟨0x0D0108, 0x20, 4, 0x0, 1, 15, 0, .ro, 0x0, .none, .free⟩
/-- R310: largest change over 1 ms since warm reset, 0.01 °C/ms. -/
def OPT_E_TEMP_RATE_MAX : Fld := ⟨0x0D0108, 0x20, 4, 0x0, 1, 31, 16, .ro, 0x0, .none, .free⟩
/-- R310: heater power of the engine, mW. -/
def OPT_E_HEATER_MW : Fld := ⟨0x0D010C, 0x20, 4, 0x0, 1, 15, 0, .ro, 0x0, .none, .free⟩
/-- R310: engine power, mW. -/
def OPT_E_ENGINE_MW : Fld := ⟨0x0D0110, 0x20, 4, 0x0, 1, 15, 0, .ro, 0x0, .none, .free⟩
/-- R310: port in short mode. -/
def OPT_P_SHORT : Fld := ⟨0x0D1000, 0x100, 12, 0x0, 1, 0, 0, .ro, 0x0, .image, .free⟩
/-- R310: port faces a router. -/
def OPT_P_ROUTER : Fld := ⟨0x0D1000, 0x100, 12, 0x0, 1, 1, 1, .ro, 0x0, .image, .free⟩
/-- R310: short mode: both slot 15 lanes enabled. -/
def OPT_P_CLOCK_OK : Fld := ⟨0x0D1000, 0x100, 12, 0x0, 1, 2, 2, .ro, 0x0, .none, .free⟩
/-- R310: all receive lanes in loss of light. -/
def OPT_P_PORT_LOS : Fld := ⟨0x0D1000, 0x100, 12, 0x0, 1, 3, 3, .ro, 0x0, .none, .free⟩
/-- R310: data lanes held under R307. -/
def OPT_P_HELD : Fld := ⟨0x0D1000, 0x100, 12, 0x0, 1, 4, 4, .ro, 0x0, .none, .free⟩
/-- R310: data lanes transmitting, 0–16. -/
def OPT_P_TX_LANES : Fld := ⟨0x0D1000, 0x100, 12, 0x0, 1, 12, 8, .ro, 0x0, .none, .free⟩
/-- R310: data lanes receiving, 0–16. -/
def OPT_P_RX_LANES : Fld := ⟨0x0D1000, 0x100, 12, 0x0, 1, 20, 16, .ro, 0x0, .none, .free⟩
/-- R310: bit b: bank b clamped under R293. -/
def OPT_P_HEATER_CLAMP : Fld := ⟨0x0D1000, 0x100, 12, 0x0, 1, 23, 21, .w1c, 0x0, .none, .free⟩
/-- R310: automatic equalisation under R292. -/
def OPT_P_EQ_AUTO : Fld := ⟨0x0D1000, 0x100, 12, 0x0, 1, 24, 24, .rw, 0x1, .none, .free⟩
/-- R310: bit s: transmit lane ENABLED or RECAL. -/
def OPT_P_TX_ENABLED : Fld := ⟨0x0D1004, 0x100, 12, 0x0, 1, 15, 0, .ro, 0x0, .none, .free⟩
/-- R310: bit s: receive lane ENABLED or RECAL. -/
def OPT_P_RX_ENABLED : Fld := ⟨0x0D1004, 0x100, 12, 0x0, 1, 31, 16, .ro, 0x0, .none, .free⟩
/-- R310: bit s: receive lane in loss of light. -/
def OPT_P_LOS : Fld := ⟨0x0D1008, 0x100, 12, 0x0, 1, 15, 0, .ro, 0x0, .none, .free⟩
/-- R310: bit s: either lane of slot s retired. -/
def OPT_P_RETIRED : Fld := ⟨0x0D1008, 0x100, 12, 0x0, 1, 31, 16, .ro, 0x0, .none, .free⟩
/-- R310: bit b: commit bank b's shadow under R296; reads 1 until applied. -/
def OPT_P_MATRIX_COMMIT : Fld := ⟨0x0D100C, 0x100, 12, 0x0, 1, 2, 0, .w1s, 0x0, .none, .free⟩
/-- R310: transmit state under R297. -/
def OPT_LN_TX_STATE : Fld := ⟨0x0D1040, 0x100, 12, 0x4, 16, 3, 0, .ro, 0x0, .none, .free⟩
/-- R310: receive state under R297. -/
def OPT_LN_RX_STATE : Fld := ⟨0x0D1040, 0x100, 12, 0x4, 16, 7, 4, .ro, 0x0, .none, .free⟩
/-- R310: transmit line; write under R298. -/
def OPT_LN_TARGET_LINE : Fld := ⟨0x0D1040, 0x100, 12, 0x4, 16, 12, 8, .rw, 0x0, .image, .free⟩
/-- R310: line last identified for transmit. -/
def OPT_LN_TX_LINE : Fld := ⟨0x0D1040, 0x100, 12, 0x4, 16, 17, 13, .ro, 0x0, .none, .free⟩
/-- R310: line last identified for receive. -/
def OPT_LN_RX_LINE : Fld := ⟨0x0D1040, 0x100, 12, 0x4, 16, 22, 18, .ro, 0x0, .none, .free⟩
/-- R310: consecutive transmit failures; 3 when retired reads 0b11. -/
def OPT_LN_TX_FAILS : Fld := ⟨0x0D1040, 0x100, 12, 0x4, 16, 24, 23, .ro, 0x0, .none, .free⟩
/-- R310: equaliser code under R292. -/
def OPT_LN_EQ_CODE : Fld := ⟨0x0D1040, 0x100, 12, 0x4, 16, 30, 25, .rw, 0x0, .none, .free⟩
/-- R310: 1 returns a retired lane of the slot to PARKED. -/
def OPT_LN_RETRY : Fld := ⟨0x0D1040, 0x100, 12, 0x4, 16, 31, 31, .wo, 0x0, .none, .free⟩
/-- R310: modulator heater code, 1 µW per step; stored code at lock. -/
def OPT_LN_TX_HEATER : Fld := ⟨0x0D1080, 0x100, 12, 0x4, 16, 15, 0, .ro, 0x0, .warm, .free⟩
/-- R310: drop-filter heater code. -/
def OPT_LN_RX_HEATER : Fld := ⟨0x0D1080, 0x100, 12, 0x4, 16, 31, 16, .ro, 0x0, .warm, .free⟩
/-- R310: receive power at the photodiode, signed, 0.01 dBm. -/
def OPT_LN_RX_POWER : Fld := ⟨0x0D10C0, 0x100, 12, 0x4, 16, 15, 0, .ro, 0x0, .none, .free⟩
/-- R310: consecutive receive failures; 0b11 when retired. -/
def OPT_LN_RX_FAILS : Fld := ⟨0x0D10C0, 0x100, 12, 0x4, 16, 17, 16, .ro, 0x0, .none, .free⟩
/-- R310: entries under R294; reads active, writes shadow under R296. -/
def OPT_MATRIX_A : Fld := ⟨0x0D8000, 0x4, 4608, 0x0, 1, 15, 0, .rw, 0x0, .warm, .free⟩
/-- R310: entries under R294; reads active, writes shadow under R296. -/
def OPT_MATRIX_B : Fld := ⟨0x0D8000, 0x4, 4608, 0x0, 1, 31, 16, .rw, 0x0, .warm, .free⟩
/-! ### LNK block (R345 of 12_links_and_negotiation.md) -/

/-- R345: links in UP or RETRAIN. -/
def LNK_LINKS_UP : Fld := ⟨0x0C0000, 0x0, 1, 0x0, 1, 7, 0, .ro, 0x0, .none, .free⟩
/-- R345: links in HELD. -/
def LNK_LINKS_HELD : Fld := ⟨0x0C0000, 0x0, 1, 0x0, 1, 15, 8, .ro, 0x0, .none, .free⟩
/-- R345: links with MISSING set. -/
def LNK_LINKS_MISSING : Fld := ⟨0x0C0000, 0x0, 1, 0x0, 1, 23, 16, .ro, 0x0, .none, .free⟩
/-- R345: lowest generation offered. -/
def LNK_GEN_MIN : Fld := ⟨0x0C0004, 0x0, 1, 0x0, 1, 1, 0, .ro, 0x1, .cold, .free⟩
/-- R345: highest generation offered. -/
def LNK_GEN_MAX : Fld := ⟨0x0C0004, 0x0, 1, 0x0, 1, 3, 2, .ro, 0x1, .cold, .free⟩
/-- R345: from TOPOLOGY. -/
def LNK_PORT_AGNOSTIC : Fld := ⟨0x0C0004, 0x0, 1, 0x0, 1, 4, 4, .ro, 0x0, .image, .free⟩
/-- R345: from TOPOLOGY. -/
def LNK_CUTOUT : Fld := ⟨0x0C0004, 0x0, 1, 0x0, 1, 5, 5, .ro, 0x0, .image, .free⟩
/-- R345: offered bits [31:0]. -/
def LNK_FEATURES_LO : Fld := ⟨0x0C0008, 0x0, 1, 0x0, 1, 31, 0, .ro, 0x0, .image, .free⟩
/-- R345: offered bits [63:32]. -/
def LNK_FEATURES_HI : Fld := ⟨0x0C000C, 0x0, 1, 0x0, 1, 31, 0, .ro, 0x0, .image, .free⟩
/-- R345: weight of VC k in bits [8k + 7:8k]; a write of 0 stores 1. -/
def LNK_WEIGHT0_3 : Fld := ⟨0x0C0010, 0x0, 1, 0x0, 1, 31, 0, .rw, 0x0, .image, .bytesNonZero⟩
/-- R345: weight of VC 4 + k in bits [8k + 7:8k]; as above. -/
def LNK_WEIGHT4_7 : Fld := ⟨0x0C0014, 0x0, 1, 0x0, 1, 31, 0, .rw, 0x0, .image, .bytesNonZero⟩
/-- R345: timeout of R332; below 1,000 stored as 1,000. -/
def LNK_REPLAY_TIMEOUT_NS : Fld := ⟨0x0C0018, 0x0, 1, 0x0, 1, 15, 0, .rw, 0xFA0, .none, .atLeast 1000⟩
/-- R345: limit of R333; 0 stored as 1. -/
def LNK_RETRY_LIMIT : Fld := ⟨0x0C0018, 0x0, 1, 0x0, 1, 19, 16, .rw, 0x8, .none, .zeroAs 1⟩
/-- R345: wait of R322. -/
def LNK_DISCOVERY_MS : Fld := ⟨0x0C001C, 0x0, 1, 0x0, 1, 15, 0, .rw, 0xBB8, .none, .free⟩
/-- R345: logical port of physical port k in bits [4k + 3:4k]; 0xF none. -/
def LNK_LOGICAL_0_7 : Fld := ⟨0x0C0020, 0x0, 1, 0x0, 1, 31, 0, .ro, 0xFFFFFFFF, .none, .free⟩
/-- R345: the same for ports 8–11. -/
def LNK_LOGICAL_8_11 : Fld := ⟨0x0C0024, 0x0, 1, 0x0, 1, 15, 0, .ro, 0xFFFF, .none, .free⟩
/-- R345: bad flits received, all links; saturates. -/
def LNK_CRC_ERRORS : Fld := ⟨0x0C0030, 0x0, 1, 0x0, 1, 31, 0, .ro, 0x0, .none, .free⟩
/-- R345: all links; saturates. -/
def LNK_NAKS_SENT : Fld := ⟨0x0C0034, 0x0, 1, 0x0, 1, 31, 0, .ro, 0x0, .none, .free⟩
/-- R345: all links; saturates. -/
def LNK_REPLAYS : Fld := ⟨0x0C0038, 0x0, 1, 0x0, 1, 31, 0, .ro, 0x0, .none, .free⟩
/-- R345: entries to DOWN from UP or RETRAIN; saturates. -/
def LNK_LINK_DOWNS : Fld := ⟨0x0C003C, 0x0, 1, 0x0, 1, 31, 0, .ro, 0x0, .none, .free⟩
/-- R345: under R341; saturates. -/
def LNK_HOPS_DISCARDED : Fld := ⟨0x0C0040, 0x0, 1, 0x0, 1, 31, 0, .ro, 0x0, .none, .free⟩
/-- R345: logical port; 0xF none. -/
def LNK_P_LOGICAL : Fld := ⟨0x0C1000, 0x40, 12, 0x0, 1, 3, 0, .ro, 0xF, .none, .free⟩
/-- R345: HOLD_REASON of the port's link, for a port that does not face a router. -/
def LNK_P_PORT_HOLD : Fld := ⟨0x0C1000, 0x40, 12, 0x0, 1, 7, 4, .ro, 0x0, .none, .free⟩
/-- R345: links on the port, 0–16. -/
def LNK_P_LINKS : Fld := ⟨0x0C1000, 0x40, 12, 0x0, 1, 12, 8, .ro, 0x0, .none, .free⟩
/-- R345: a link of the port is missing under R322. -/
def LNK_P_MISSING : Fld := ⟨0x0C1000, 0x40, 12, 0x0, 1, 13, 13, .ro, 0x0, .none, .free⟩
/-- R345: held under R321. -/
def LNK_P_EXTRA : Fld := ⟨0x0C1000, 0x40, 12, 0x0, 1, 14, 14, .ro, 0x0, .none, .free⟩
/-- R345: LOGICAL differs from p. -/
def LNK_P_SWAPPED : Fld := ⟨0x0C1000, 0x40, 12, 0x0, 1, 15, 15, .ro, 0x0, .none, .free⟩
/-- R345: NEIGHBOUR entry of port p. -/
def LNK_P_EXPECTED : Fld := ⟨0x0C1000, 0x40, 12, 0x0, 1, 31, 16, .ro, 0xFFFF, .image, .free⟩
/-- R345: MODULE_ID of the last HELLO on the port. -/
def LNK_P_SEEN_MODULE : Fld := ⟨0x0C1004, 0x40, 12, 0x0, 1, 11, 0, .ro, 0x0, .none, .free⟩
/-- R345: its PORT. -/
def LNK_P_SEEN_PORT : Fld := ⟨0x0C1004, 0x40, 12, 0x0, 1, 15, 12, .ro, 0x0, .none, .free⟩
/-- R345: a HELLO has been seen. -/
def LNK_P_SEEN_VALID : Fld := ⟨0x0C1004, 0x40, 12, 0x0, 1, 16, 16, .ro, 0x0, .none, .free⟩
/-- R345: bit s: loopback lane s reads its own HELLO. -/
def LNK_P_LOOPBACK_OK : Fld := ⟨0x0C1008, 0x40, 12, 0x0, 1, 15, 0, .ro, 0x0, .none, .free⟩
/-- R345: bit s: return the link whose lowest slot is s from HELD to ALIGN. -/
def LNK_P_REFORM : Fld := ⟨0x0C100C, 0x40, 12, 0x0, 1, 15, 0, .wo, 0x0, .none, .free⟩
/-- R345: state under R317; 7 reserved. -/
def LNK_L_LINK_STATE : Fld := ⟨0x0C4000, 0x40, 192, 0x0, 1, 2, 0, .ro, 0x0, .none, .free⟩
/-- R345: under R344. -/
def LNK_L_HOLD_REASON : Fld := ⟨0x0C4000, 0x40, 192, 0x0, 1, 7, 4, .ro, 0x0, .none, .free⟩
/-- R345: partner module ID. -/
def LNK_L_PARTNER : Fld := ⟨0x0C4000, 0x40, 192, 0x0, 1, 19, 8, .ro, 0x0, .none, .free⟩
/-- R345: partner's physical port. -/
def LNK_L_PARTNER_PORT : Fld := ⟨0x0C4000, 0x40, 192, 0x0, 1, 23, 20, .ro, 0x0, .none, .free⟩
/-- R345: negotiated generation. -/
def LNK_L_GEN : Fld := ⟨0x0C4000, 0x40, 192, 0x0, 1, 25, 24, .ro, 0x0, .none, .free⟩
/-- R345: bit s: slot s carries data out. -/
def LNK_L_TX_LANES : Fld := ⟨0x0C4004, 0x40, 192, 0x0, 1, 15, 0, .ro, 0x0, .none, .free⟩
/-- R345: bit s: slot s carries data in. -/
def LNK_L_RX_LANES : Fld := ⟨0x0C4004, 0x40, 192, 0x0, 1, 31, 16, .ro, 0x0, .none, .free⟩
/-- R345: negotiated bits [31:0]. -/
def LNK_L_NEG_FEATURES_LO : Fld := ⟨0x0C4008, 0x40, 192, 0x0, 1, 31, 0, .ro, 0x0, .none, .free⟩
/-- R345: negotiated bits [63:32]. -/
def LNK_L_NEG_FEATURES_HI : Fld := ⟨0x0C400C, 0x40, 192, 0x0, 1, 31, 0, .ro, 0x0, .none, .free⟩
/-- R345: next LSEQ to be sent. -/
def LNK_L_NEXT_LSEQ : Fld := ⟨0x0C4010, 0x40, 192, 0x0, 1, 15, 0, .ro, 0x0, .none, .free⟩
/-- R345: last LACK received. -/
def LNK_L_LAST_LACK : Fld := ⟨0x0C4010, 0x40, 192, 0x0, 1, 31, 16, .ro, 0x0, .none, .free⟩
/-- R345: flits kept for replay, 0–4,096. -/
def LNK_L_KEPT : Fld := ⟨0x0C4014, 0x40, 192, 0x0, 1, 12, 0, .ro, 0x0, .none, .free⟩
/-- R345: bad flits received; saturates. -/
def LNK_L_LINK_CRC_ERRORS : Fld := ⟨0x0C4018, 0x40, 192, 0x0, 1, 31, 0, .ro, 0x0, .none, .free⟩
/-- R345: symbols corrected; saturates. -/
def LNK_L_FEC_SYMBOLS : Fld := ⟨0x0C401C, 0x40, 192, 0x0, 1, 31, 0, .ro, 0x0, .none, .free⟩
/-- R345: codewords not corrected; saturates. -/
def LNK_L_FEC_UNCORRECTABLE : Fld := ⟨0x0C4020, 0x40, 192, 0x0, 1, 31, 0, .ro, 0x0, .none, .free⟩
/-- R345: replays started; saturates. -/
def LNK_L_LINK_REPLAYS : Fld := ⟨0x0C4024, 0x40, 192, 0x0, 1, 31, 0, .ro, 0x0, .none, .free⟩
/-- R345: entries to RETRAIN; saturates. -/
def LNK_L_RETRAINS : Fld := ⟨0x0C4028, 0x40, 192, 0x0, 1, 31, 0, .ro, 0x0, .none, .free⟩
/-- R345: CALLER_CYCLES at the last entry to UP, bits [31:0]; R11. -/
def LNK_L_UP_CYCLES_LO : Fld := ⟨0x0C4030, 0x40, 192, 0x0, 1, 31, 0, .ro, 0x0, .none, .free⟩
/-- R345: bits [63:32]. -/
def LNK_L_UP_CYCLES_HI : Fld := ⟨0x0C4034, 0x40, 192, 0x0, 1, 31, 0, .ro, 0x0, .none, .free⟩
/-! ### TOP block (R361 of 13_floors_and_tori.md) -/

/-- R361: 0 floor, 1 direct. -/
def TOP_MODE : Fld := ⟨0x0E0000, 0x0, 1, 0x0, 1, 0, 0, .ro, 0x0, .image, .free⟩
/-- R361: 1 single, 2 two. -/
def TOP_NETWORKS : Fld := ⟨0x0E0000, 0x0, 1, 0x0, 1, 2, 1, .ro, 0x0, .image, .free⟩
/-- R361: cut-out under R357 allowed. -/
def TOP_CUTOUT : Fld := ⟨0x0E0000, 0x0, 1, 0x0, 1, 3, 3, .ro, 0x0, .image, .free⟩
/-- R361: floor grid width, 1–8. -/
def TOP_GRID_X : Fld := ⟨0x0E0000, 0x0, 1, 0x0, 1, 7, 4, .ro, 0x0, .image, .free⟩
/-- R361: floor grid height, 1–16. -/
def TOP_GRID_Y : Fld := ⟨0x0E0000, 0x0, 1, 0x0, 1, 12, 8, .ro, 0x0, .image, .free⟩
/-- R361: under R347. -/
def TOP_FLOOR_X : Fld := ⟨0x0E0000, 0x0, 1, 0x0, 1, 15, 13, .ro, 0x0, .image, .free⟩
/-- R361: under R347. -/
def TOP_FLOOR_Y : Fld := ⟨0x0E0000, 0x0, 1, 0x0, 1, 19, 16, .ro, 0x0, .image, .free⟩
/-- R361: port p in bits [2p + 1:2p]: 0 disabled, 1 router-facing, 2 inter-floor, 3 direct torus. -/
def TOP_PORT_ROLE : Fld := ⟨0x0E0004, 0x0, 1, 0x0, 1, 23, 0, .ro, 0x0, .image, .free⟩
/-- R361: bit k: line k in the line set; 0 in direct mode. -/
def TOP_ACTIVE_SET : Fld := ⟨0x0E0008, 0x0, 1, 0x0, 1, 31, 0, .ro, 0x0, .image, .free⟩
/-- R361: line set for the next APPLY. -/
def TOP_PEND_SET : Fld := ⟨0x0E000C, 0x0, 1, 0x0, 1, 31, 0, .rw, 0x0, .image, .free⟩
/-- R361: 1 APPLY, 2 REVERT; 0 and 3 discarded. -/
def TOP_DRAW_CMD : Fld := ⟨0x0E0010, 0x0, 1, 0x0, 1, 1, 0, .wo, 0x0, .none, .free⟩
/-- R361: APPLY in progress. -/
def TOP_BUSY : Fld := ⟨0x0E0014, 0x0, 1, 0x0, 1, 0, 0, .ro, 0x0, .none, .free⟩
/-- R361: status of the last APPLY under R18. -/
def TOP_RESULT : Fld := ⟨0x0E0014, 0x0, 1, 0x0, 1, 6, 1, .ro, 0x0, .none, .free⟩
/-- R361: transmit lanes still to be enabled, 0–128. -/
def TOP_RETUNES_LEFT : Fld := ⟨0x0E0014, 0x0, 1, 0x0, 1, 14, 7, .ro, 0x0, .none, .free⟩
/-- R361: APPLY and REVERT commands completed; wraps. -/
def TOP_DRAWS : Fld := ⟨0x0E0014, 0x0, 1, 0x0, 1, 31, 16, .ro, 0x0, .none, .free⟩
/-- R361: bit s: floor partner at slot s cut. -/
def TOP_CUT_SLOTS : Fld := ⟨0x0E0018, 0x0, 1, 0x0, 1, 31, 0, .ro, 0x0, .none, .free⟩
/-- R361: bit p: partner of port p cut. -/
def TOP_CUT_PORTS : Fld := ⟨0x0E001C, 0x0, 1, 0x0, 1, 11, 0, .ro, 0x0, .none, .free⟩
/-- R361: entries in use, 0–256; above 256 stored as 256. -/
def TOP_ROUTE_COUNT : Fld := ⟨0x0E0020, 0x0, 1, 0x0, 1, 8, 0, .rw, 0x0, .image, .within 0 256⟩
/-- R361: flits with no route under R354; saturates. -/
def TOP_NO_ROUTE : Fld := ⟨0x0E0024, 0x0, 1, 0x0, 1, 31, 0, .ro, 0x0, .none, .free⟩
/-- R361: lookups that used ALT_PORT; saturates. -/
def TOP_ALT_TAKEN : Fld := ⟨0x0E0028, 0x0, 1, 0x0, 1, 31, 0, .ro, 0x0, .none, .free⟩
/-- R361: flits forwarded for other modules; wraps. -/
def TOP_RELAYED : Fld := ⟨0x0E002C, 0x0, 1, 0x0, 1, 31, 0, .ro, 0x0, .none, .free⟩
/-- R361: module B of R358. -/
def TOP_CUT_CUT_MODULE : Fld := ⟨0x0E0100, 0x8, 16, 0x0, 1, 11, 0, .rw, 0x0, .none, .free⟩
/-- R361: module Q of R358. -/
def TOP_CUT_PARTNER : Fld := ⟨0x0E0100, 0x8, 16, 0x0, 1, 27, 16, .rw, 0x0, .none, .free⟩
/-- R361: entry takes part in the next APPLY. -/
def TOP_CUT_VALID : Fld := ⟨0x0E0100, 0x8, 16, 0x0, 1, 31, 31, .rw, 0x0, .none, .free⟩
/-- R361: the entry acted at the last APPLY. -/
def TOP_CUT_APPLIED : Fld := ⟨0x0E0104, 0x8, 16, 0x0, 1, 0, 0, .ro, 0x0, .none, .free⟩
/-- R361: first destination module; low word of the pair under R356. -/
def TOP_RT_DEST_FIRST : Fld := ⟨0x0E1000, 0x8, 256, 0x0, 1, 11, 0, .rw, 0x0, .image, .free⟩
/-- R361: destinations covered, 0–4,096; 0 disables. -/
def TOP_RT_COUNT : Fld := ⟨0x0E1000, 0x8, 256, 0x0, 1, 28, 16, .rw, 0x0, .image, .free⟩
/-- R361: code under R355. -/
def TOP_RT_PORT : Fld := ⟨0x0E1004, 0x8, 256, 0x0, 1, 7, 0, .rw, 0x0, .image, .free⟩
/-- R361: code under R355. -/
def TOP_RT_ALT_PORT : Fld := ⟨0x0E1004, 0x8, 256, 0x0, 1, 15, 8, .rw, 0x0, .image, .free⟩
/-- R361: the last lookup of this entry used ALT_PORT. -/
def TOP_RT_USING_ALT : Fld := ⟨0x0E1004, 0x8, 256, 0x0, 1, 16, 16, .ro, 0x0, .none, .free⟩
/-! ### RND block (R392 of 14_rounds.md) -/

/-- R392: enabled entries, 0–64. -/
def RND_GROUPS_VALID : Fld := ⟨0x0B0000, 0x0, 1, 0x0, 1, 6, 0, .ro, 0x0, .none, .free⟩
/-- R392: wait of R388; below 100 stored as 100. -/
def RND_ROUND_TIMEOUT_US : Fld := ⟨0x0B0004, 0x0, 1, 0x0, 1, 19, 0, .rw, 0x1388, .none, .atLeast 100⟩
/-- R392: failed comparisons; saturates. -/
def RND_CHECK_FAILS : Fld := ⟨0x0B0008, 0x0, 1, 0x0, 1, 31, 0, .ro, 0x0, .none, .free⟩
/-- R392: under R382; saturates. -/
def RND_LATE_CHECK_FAILS : Fld := ⟨0x0B000C, 0x0, 1, 0x0, 1, 31, 0, .ro, 0x0, .none, .free⟩
/-- R392: under R381; saturates. -/
def RND_RESENDS : Fld := ⟨0x0B0010, 0x0, 1, 0x0, 1, 31, 0, .ro, 0x0, .none, .free⟩
/-- R392: under R386; saturates. -/
def RND_ORDER_ABORTS : Fld := ⟨0x0B0014, 0x0, 1, 0x0, 1, 31, 0, .ro, 0x0, .none, .free⟩
/-- R392: under R388; saturates. -/
def RND_PEER_LOSTS : Fld := ⟨0x0B0018, 0x0, 1, 0x0, 1, 31, 0, .ro, 0x0, .none, .free⟩
/-- R392: parts and grants discarded; saturates. -/
def RND_STALE_PARTS : Fld := ⟨0x0B001C, 0x0, 1, 0x0, 1, 31, 0, .ro, 0x0, .none, .free⟩
/-- R392: bits [31:0]; R11; wraps. -/
def RND_PARTS_SENT_LO : Fld := ⟨0x0B0020, 0x0, 1, 0x0, 1, 31, 0, .ro, 0x0, .none, .free⟩
/-- R392: bits [63:32]. -/
def RND_PARTS_SENT_HI : Fld := ⟨0x0B0024, 0x0, 1, 0x0, 1, 31, 0, .ro, 0x0, .none, .free⟩
/-- R392: bits [31:0]; R11; wraps. -/
def RND_PARTS_RECEIVED_LO : Fld := ⟨0x0B0028, 0x0, 1, 0x0, 1, 31, 0, .ro, 0x0, .none, .free⟩
/-- R392: bits [63:32]. -/
def RND_PARTS_RECEIVED_HI : Fld := ⟨0x0B002C, 0x0, 1, 0x0, 1, 31, 0, .ro, 0x0, .none, .free⟩
/-- R392: 0 disabled, 1 idle, 2 running, 3 aborted, 4 lost; others reserved. -/
def RND_G_STATE : Fld := ⟨0x0B0100, 0x10, 64, 0x0, 1, 2, 0, .ro, 0x0, .none, .free⟩
/-- R392: waiting descriptors, 0–8. -/
def RND_G_QUEUED : Fld := ⟨0x0B0100, 0x10, 64, 0x0, 1, 6, 3, .ro, 0x0, .none, .free⟩
/-- R392: axis of the current stage. -/
def RND_G_AXIS : Fld := ⟨0x0B0100, 0x10, 64, 0x0, 1, 8, 7, .ro, 0x0, .none, .free⟩
/-- R392: 0 reduce, 1 gather or broadcast. -/
def RND_G_PHASE : Fld := ⟨0x0B0100, 0x10, 64, 0x0, 1, 9, 9, .ro, 0x0, .none, .free⟩
/-- R392: current step. -/
def RND_G_RING_STEP : Fld := ⟨0x0B0100, 0x10, 64, 0x0, 1, 21, 10, .ro, 0x0, .none, .free⟩
/-- R392: RSEQ of the current or next round. -/
def RND_G_RSEQ : Fld := ⟨0x0B0104, 0x10, 64, 0x0, 1, 31, 0, .ro, 0x0, .none, .free⟩
/-- R392: status of the last completed round. -/
def RND_G_LAST_STATUS : Fld := ⟨0x0B0108, 0x10, 64, 0x0, 1, 5, 0, .ro, 0x0, .none, .free⟩
/-- R392: member index under R388. -/
def RND_G_LOST_MEMBER : Fld := ⟨0x0B0108, 0x10, 64, 0x0, 1, 17, 6, .ro, 0x0, .none, .free⟩
/-- R392: result of the last commit under R364. -/
def RND_G_COMMIT_RESULT : Fld := ⟨0x0B0108, 0x10, 64, 0x0, 1, 23, 18, .ro, 0x0, .none, .free⟩
/-- R392: TAG of the round in progress. -/
def RND_G_TAG : Fld := ⟨0x0B010C, 0x10, 64, 0x0, 1, 15, 0, .ro, 0x0, .none, .free⟩
/-- R392: entry version; a write commits. -/
def RND_E_VERSION : Fld := ⟨0x0B1000, 0x40, 64, 0x0, 1, 15, 0, .rw, 0x0, .partition, .free⟩
/-- R392: entry enabled. -/
def RND_E_VALID : Fld := ⟨0x0B1000, 0x40, 64, 0x0, 1, 16, 16, .rw, 0x0, .partition, .free⟩
/-- R392: owning context. -/
def RND_E_CONTEXT : Fld := ⟨0x0B1004, 0x40, 64, 0x0, 1, 15, 0, .rw, 0x0, .partition, .free⟩
/-- R392: routine's group identity. -/
def RND_E_GROUP_ID : Fld := ⟨0x0B1004, 0x40, 64, 0x0, 1, 31, 16, .rw, 0x0, .partition, .free⟩
/-- R392: job. -/
def RND_E_JOB : Fld := ⟨0x0B1008, 0x40, 64, 0x0, 1, 31, 0, .rw, 0x0, .partition, .free⟩
/-- R392: 1–4. -/
def RND_E_AXES : Fld := ⟨0x0B100C, 0x40, 64, 0x0, 1, 2, 0, .rw, 0x0, .partition, .free⟩
/-- R392: routine set that pushes. -/
def RND_E_PUSH_SET : Fld := ⟨0x0B100C, 0x40, 64, 0x0, 1, 13, 4, .rw, 0x0, .partition, .free⟩
/-- R392: 2–16. -/
def RND_E_RX_SLOTS : Fld := ⟨0x0B100C, 0x40, 64, 0x0, 1, 20, 16, .rw, 0x0, .partition, .free⟩
/-- R392: n0. -/
def RND_E_AXIS0_SIZE : Fld := ⟨0x0B1010, 0x40, 64, 0x0, 1, 12, 0, .rw, 0x0, .partition, .free⟩
/-- R392: n1. -/
def RND_E_AXIS1_SIZE : Fld := ⟨0x0B1010, 0x40, 64, 0x0, 1, 28, 16, .rw, 0x0, .partition, .free⟩
/-- R392: n2. -/
def RND_E_AXIS2_SIZE : Fld := ⟨0x0B1014, 0x40, 64, 0x0, 1, 12, 0, .rw, 0x0, .partition, .free⟩
/-- R392: n3. -/
def RND_E_AXIS3_SIZE : Fld := ⟨0x0B1014, 0x40, 64, 0x0, 1, 28, 16, .rw, 0x0, .partition, .free⟩
/-- R392: this module's member index. -/
def RND_E_SELF : Fld := ⟨0x0B1018, 0x40, 64, 0x0, 1, 11, 0, .rw, 0x0, .partition, .free⟩
/-- R392: 1–1,024. -/
def RND_E_CHUNK_BLOCKS : Fld := ⟨0x0B101C, 0x40, 64, 0x0, 1, 10, 0, .rw, 0x0, .partition, .free⟩
/-- R392: context address of the list, bits [31:0]; R11. -/
def RND_E_MEMBERS_ADDR_LO : Fld := ⟨0x0B1020, 0x40, 64, 0x0, 1, 31, 0, .rw, 0x0, .partition, .free⟩
/-- R392: bits [63:32]. -/
def RND_E_MEMBERS_ADDR_HI : Fld := ⟨0x0B1024, 0x40, 64, 0x0, 1, 31, 0, .rw, 0x0, .partition, .free⟩
/-- R392: context address of the buffer, bits [31:0]; R11. -/
def RND_E_BUF_ADDR_LO : Fld := ⟨0x0B1028, 0x40, 64, 0x0, 1, 31, 0, .rw, 0x0, .partition, .free⟩
/-- R392: bits [63:32]. -/
def RND_E_BUF_ADDR_HI : Fld := ⟨0x0B102C, 0x40, 64, 0x0, 1, 31, 0, .rw, 0x0, .partition, .free⟩
/-- R392: buffer size in bytes. -/
def RND_E_BUF_BYTES : Fld := ⟨0x0B1030, 0x40, 64, 0x0, 1, 31, 0, .rw, 0x0, .partition, .free⟩
/-! ### CTX block (R410 of 15_contexts_and_rebinding.md) -/

/-- R410: context for ADMIT. -/
def CTX_CMD_CONTEXT : Fld := ⟨0x070000, 0x0, 1, 0x0, 1, 15, 0, .rw, 0x0, .none, .free⟩
/-- R410: slot named by the command. -/
def CTX_CMD_SLOT : Fld := ⟨0x070000, 0x0, 1, 0x0, 1, 20, 16, .rw, 0x0, .none, .free⟩
/-- R410: command under R394; others discarded. -/
def CTX_CMD : Fld := ⟨0x070004, 0x0, 1, 0x0, 1, 3, 0, .wo, 0x0, .none, .free⟩
/-- R410: bits [31:0]; R11. -/
def CTX_CMD_ARG_LO : Fld := ⟨0x070008, 0x0, 1, 0x0, 1, 31, 0, .rw, 0x0, .none, .free⟩
/-- R410: bits [63:32]. -/
def CTX_CMD_ARG_HI : Fld := ⟨0x07000C, 0x0, 1, 0x0, 1, 31, 0, .rw, 0x0, .none, .free⟩
/-- R410: first tier C block for ADMIT. -/
def CTX_TC_FIRST : Fld := ⟨0x070010, 0x0, 1, 0x0, 1, 29, 0, .rw, 0x0, .none, .free⟩
/-- R410: command in progress. -/
def CTX_BUSY : Fld := ⟨0x070014, 0x0, 1, 0x0, 1, 0, 0, .ro, 0x0, .none, .free⟩
/-- R410: status of the last command. -/
def CTX_RESULT : Fld := ⟨0x070014, 0x0, 1, 0x0, 1, 6, 1, .ro, 0x0, .none, .free⟩
/-- R410: under R396. -/
def CTX_ERR_ITEM : Fld := ⟨0x070014, 0x0, 1, 0x0, 1, 31, 16, .ro, 0x0, .none, .free⟩
/-- R410: slots not free, 1–32. -/
def CTX_SLOTS_BOUND : Fld := ⟨0x070018, 0x0, 1, 0x0, 1, 5, 0, .ro, 0x1, .none, .free⟩
/-- R410: REBIND and RELEASE commands completed; wraps. -/
def CTX_REBINDS : Fld := ⟨0x07001C, 0x0, 1, 0x0, 1, 31, 0, .ro, 0x0, .none, .free⟩
/-- R410: page number to query. -/
def CTX_PAGE : Fld := ⟨0x070020, 0x0, 1, 0x0, 1, 19, 0, .rw, 0x0, .none, .free⟩
/-- R410: 0 tier A, 1 tier B. -/
def CTX_SPACE : Fld := ⟨0x070020, 0x0, 1, 0x0, 1, 20, 20, .rw, 0x0, .none, .free⟩
/-- R410: owner of the queried page; 0xFFFF unowned. -/
def CTX_PAGE_OWNER : Fld := ⟨0x070024, 0x0, 1, 0x0, 1, 15, 0, .ro, 0xFFFF, .none, .free⟩
/-- R410: evictions under R406; wraps. -/
def CTX_EVICTIONS : Fld := ⟨0x070028, 0x0, 1, 0x0, 1, 31, 0, .ro, 0x0, .none, .free⟩
/-- R410: longest eviction since warm reset, µs. -/
def CTX_EVICT_MAX_US : Fld := ⟨0x07002C, 0x0, 1, 0x0, 1, 15, 0, .ro, 0x0, .none, .free⟩
/-- R410: bound context. -/
def CTX_S_CONTEXT : Fld := ⟨0x070100, 0x40, 32, 0x0, 1, 15, 0, .ro, 0x0, .partition, .free⟩
/-- R410: 0 free, 1 admitting, 2 bound, 3 re-binding, 4 releasing; others reserved. -/
def CTX_S_STATE : Fld := ⟨0x070100, 0x40, 32, 0x0, 1, 18, 16, .ro, 0x0, .partition, .free⟩
/-- R410: guest context. -/
def CTX_S_GUEST : Fld := ⟨0x070100, 0x40, 32, 0x0, 1, 19, 19, .ro, 0x0, .partition, .free⟩
/-- R410: active exponent table under R202 and R203; kept through context, engine and partition resets under R471. -/
def CTX_S_ACTIVE_TABLE : Fld := ⟨0x070100, 0x40, 32, 0x0, 1, 21, 20, .ro, 0x0, .partition, .free⟩
/-- R410: under R199 and R201. -/
def CTX_S_STEP_OVERRANGE : Fld := ⟨0x070100, 0x40, 32, 0x0, 1, 22, 22, .ro, 0x0, .partition, .free⟩
/-- R410: under R383 and R384. -/
def CTX_S_STEP_ABORT : Fld := ⟨0x070100, 0x40, 32, 0x0, 1, 23, 23, .ro, 0x0, .none, .free⟩
/-- R410: job. -/
def CTX_S_JOB : Fld := ⟨0x070104, 0x40, 32, 0x0, 1, 31, 0, .ro, 0x0, .partition, .free⟩
/-- R410: current step number. -/
def CTX_S_STEP_NO : Fld := ⟨0x070108, 0x40, 32, 0x0, 1, 31, 0, .ro, 0x0, .partition, .free⟩
/-- R410: sets bound. -/
def CTX_S_SETS : Fld := ⟨0x07010C, 0x40, 32, 0x0, 1, 9, 0, .ro, 0x0, .partition, .free⟩
/-- R410: under R398. -/
def CTX_S_LINK_SHARE : Fld := ⟨0x07010C, 0x40, 32, 0x0, 1, 22, 16, .ro, 0x0, .partition, .free⟩
/-- R410: first tier C block. -/
def CTX_S_EXT_FIRST : Fld := ⟨0x070110, 0x40, 32, 0x0, 1, 29, 0, .ro, 0x0, .partition, .free⟩
/-- R410: extent size. -/
def CTX_S_EXT_BLOCKS : Fld := ⟨0x070114, 0x40, 32, 0x0, 1, 29, 0, .ro, 0x0, .partition, .free⟩
/-- R410: status of the first context fault. -/
def CTX_S_FAULT_STATUS : Fld := ⟨0x070118, 0x40, 32, 0x0, 1, 5, 0, .ro, 0x0, .none, .free⟩
/-- R410: physical set that raised it. -/
def CTX_S_FAULT_SET : Fld := ⟨0x070118, 0x40, 32, 0x0, 1, 15, 6, .ro, 0x0, .none, .free⟩
/-- R410: a context fault is recorded. -/
def CTX_S_FAULT_VALID : Fld := ⟨0x070118, 0x40, 32, 0x0, 1, 16, 16, .w1c, 0x0, .none, .free⟩
/-- R410: admission record offset, bits [31:0]; R11. -/
def CTX_S_RECORD_LO : Fld := ⟨0x07011C, 0x40, 32, 0x0, 1, 31, 0, .ro, 0x0, .partition, .free⟩
/-- R410: bits [63:32]. -/
def CTX_S_RECORD_HI : Fld := ⟨0x070120, 0x40, 32, 0x0, 1, 31, 0, .ro, 0x0, .partition, .free⟩
/-- R410: owner slot of the LEND. -/
def CTX_S_LENDER_SLOT : Fld := ⟨0x070124, 0x40, 32, 0x0, 1, 4, 0, .ro, 0x0, .partition, .free⟩
/-- R410: a LEND is in force. -/
def CTX_S_LEND_VALID : Fld := ⟨0x070124, 0x40, 32, 0x0, 1, 5, 5, .ro, 0x0, .partition, .free⟩
/-- R410: sets now running this guest. -/
def CTX_S_LENT_NOW : Fld := ⟨0x070124, 0x40, 32, 0x0, 1, 15, 6, .ro, 0x0, .none, .free⟩
/-- R410: bubble number. -/
def CTX_S_LEND_BUBBLE : Fld := ⟨0x070124, 0x40, 32, 0x0, 1, 31, 16, .ro, 0x0, .partition, .free⟩
/-- R410: tier A pages owned. -/
def CTX_S_PAGES_A : Fld := ⟨0x070128, 0x40, 32, 0x0, 1, 19, 0, .ro, 0x0, .partition, .free⟩
/-- R410: tier B pages owned. -/
def CTX_S_PAGES_B : Fld := ⟨0x07012C, 0x40, 32, 0x0, 1, 19, 0, .ro, 0x0, .partition, .free⟩
/-- R410: physical set per routine set; other bits zero. -/
def CTX_SET_MAP_A : Fld := ⟨0x074000, 0x4, 12288, 0x0, 1, 9, 0, .ro, 0x3FF, .partition, .free⟩
/-- R410: physical set per routine set; other bits zero. -/
def CTX_SET_MAP_B : Fld := ⟨0x074000, 0x4, 12288, 0x0, 1, 25, 16, .ro, 0x3FF, .partition, .free⟩
/-! ### FRZ block (R433 of 16_freezes_and_restart.md) -/

/-- R433: context slot for CMD. -/
def FRZ_CMD_SLOT : Fld := ⟨0x0A0000, 0x0, 1, 0x0, 1, 4, 0, .rw, 0x0, .none, .free⟩
/-- R433: 1 REBUILD; others discarded; discarded while BUSY. -/
def FRZ_CMD : Fld := ⟨0x0A0004, 0x0, 1, 0x0, 1, 3, 0, .wo, 0x0, .none, .free⟩
/-- R433: REBUILD in progress. -/
def FRZ_BUSY : Fld := ⟨0x0A0008, 0x0, 1, 0x0, 1, 0, 0, .ro, 0x0, .none, .free⟩
/-- R433: status of the last REBUILD under R18. -/
def FRZ_RESULT : Fld := ⟨0x0A0008, 0x0, 1, 0x0, 1, 6, 1, .ro, 0x0, .none, .free⟩
/-- R433: REBUILD progress, 0–100. -/
def FRZ_PROGRESS : Fld := ⟨0x0A0008, 0x0, 1, 0x0, 1, 13, 7, .ro, 0x0, .none, .free⟩
/-- R433: FREEZEs completed with DONE; wraps. -/
def FRZ_FREEZES_DONE : Fld := ⟨0x0A000C, 0x0, 1, 0x0, 1, 31, 0, .ro, 0x0, .none, .free⟩
/-- R433: FREEZE, RESTORE and EXPORT failures; saturates. -/
def FRZ_FREEZE_FAILS : Fld := ⟨0x0A0010, 0x0, 1, 0x0, 1, 31, 0, .ro, 0x0, .none, .free⟩
/-- R433: under R424; saturates. -/
def FRZ_PARITY_FAILS : Fld := ⟨0x0A0014, 0x0, 1, 0x0, 1, 31, 0, .ro, 0x0, .none, .free⟩
/-- R433: parts discarded under R422; saturates. -/
def FRZ_STALE_PARITY : Fld := ⟨0x0A0018, 0x0, 1, 0x0, 1, 31, 0, .ro, 0x0, .none, .free⟩
/-- R433: REBUILDs completed with DONE; wraps. -/
def FRZ_REBUILDS : Fld := ⟨0x0A001C, 0x0, 1, 0x0, 1, 31, 0, .ro, 0x0, .none, .free⟩
/-- R433: blocks per slot; 0 disables freezes of the context. -/
def FRZ_S_SLOT_BLOCKS : Fld := ⟨0x0A0100, 0x40, 32, 0x0, 1, 29, 0, .rw, 0x0, .partition, .free⟩
/-- R433: blocks per parity area. -/
def FRZ_S_PARITY_BLOCKS : Fld := ⟨0x0A0104, 0x40, 32, 0x0, 1, 29, 0, .rw, 0x0, .partition, .free⟩
/-- R433: 1 or 2 under R423; 0 means no parity. -/
def FRZ_S_PARITY_SLOTS : Fld := ⟨0x0A0104, 0x40, 32, 0x0, 1, 31, 30, .rw, 0x0, .partition, .free⟩
/-- R433: module ID of stripe member 0. -/
def FRZ_S_MEMBER0 : Fld := ⟨0x0A0108, 0x40, 32, 0x0, 1, 11, 0, .rw, 0x0, .partition, .free⟩
/-- R433: member 1. -/
def FRZ_S_MEMBER1 : Fld := ⟨0x0A0108, 0x40, 32, 0x0, 1, 27, 16, .rw, 0x0, .partition, .free⟩
/-- R433: member 2. -/
def FRZ_S_MEMBER2 : Fld := ⟨0x0A010C, 0x40, 32, 0x0, 1, 11, 0, .rw, 0x0, .partition, .free⟩
/-- R433: member 3. -/
def FRZ_S_MEMBER3 : Fld := ⟨0x0A010C, 0x40, 32, 0x0, 1, 27, 16, .rw, 0x0, .partition, .free⟩
/-- R433: this module's member index. -/
def FRZ_S_SELF : Fld := ⟨0x0A0110, 0x40, 32, 0x0, 1, 1, 0, .rw, 0x0, .partition, .free⟩
/-- R433: stripe configuration in force. -/
def FRZ_S_STRIPE_VALID : Fld := ⟨0x0A0110, 0x40, 32, 0x0, 1, 2, 2, .rw, 0x0, .partition, .free⟩
/-- R433: context address of the 512 MiB staging buffer in tier A, bits [31:0]; R11. -/
def FRZ_S_STAGE_ADDR_LO : Fld := ⟨0x0A0114, 0x40, 32, 0x0, 1, 31, 0, .rw, 0x0, .partition, .free⟩
/-- R433: bits [63:32]. -/
def FRZ_S_STAGE_ADDR_HI : Fld := ⟨0x0A0118, 0x40, 32, 0x0, 1, 31, 0, .rw, 0x0, .partition, .free⟩
/-- R433: SEQ of the newest complete freeze. -/
def FRZ_S_LAST_SEQ : Fld := ⟨0x0A011C, 0x40, 32, 0x0, 1, 31, 0, .ro, 0x0, .none, .free⟩
/-- R433: slot holding it. -/
def FRZ_S_LAST_SLOT : Fld := ⟨0x0A0120, 0x40, 32, 0x0, 1, 0, 0, .ro, 0x0, .none, .free⟩
/-- R433: 0 idle, 1 draining, 2 waiting under R423, 3 rebuilding; others reserved. -/
def FRZ_S_DRAIN_STATE : Fld := ⟨0x0A0120, 0x40, 32, 0x0, 1, 3, 1, .ro, 0x0, .none, .free⟩
/-- R433: 0 none, 1 running, 2 complete, 3 failed; others reserved. -/
def FRZ_S_PARITY_STATE : Fld := ⟨0x0A0120, 0x40, 32, 0x0, 1, 6, 4, .ro, 0x0, .none, .free⟩
/-- R433: waiting descriptors, 0–8. -/
def FRZ_S_QUEUED : Fld := ⟨0x0A0120, 0x40, 32, 0x0, 1, 10, 7, .ro, 0x0, .none, .free⟩
/-- R433: SEQ whose parity phase this member has completed. -/
def FRZ_S_PROTECTED_SEQ : Fld := ⟨0x0A0124, 0x40, 32, 0x0, 1, 31, 0, .ro, 0x0, .none, .free⟩
/-- R433: blocks written by the current or last drain. -/
def FRZ_S_DRAIN_BLOCKS : Fld := ⟨0x0A0128, 0x40, 32, 0x0, 1, 29, 0, .ro, 0x0, .none, .free⟩
/-- R433: parity windows stamped in this member's row. -/
def FRZ_S_WINDOWS_DONE : Fld := ⟨0x0A012C, 0x40, 32, 0x0, 1, 15, 0, .ro, 0x0, .none, .free⟩
/-! ### ENC block (R448 of 17_encore_and_misstep.md) -/

/-- R448: context slot served. -/
def ENC_JRN_SLOT : Fld := ⟨0x100000, 0x0, 1, 0x0, 1, 4, 0, .rw, 0x0, .none, .free⟩
/-- R448: journal on, under R437. -/
def ENC_JRN_ENABLE : Fld := ⟨0x100000, 0x0, 1, 0x0, 1, 5, 5, .rw, 0x0, .none, .free⟩
/-- R448: first ring block within the extent. -/
def ENC_JRN_OFFSET : Fld := ⟨0x100004, 0x0, 1, 0x0, 1, 29, 0, .rw, 0x0, .none, .free⟩
/-- R448: ring size; 0 disables. -/
def ENC_JRN_BLOCKS : Fld := ⟨0x100008, 0x0, 1, 0x0, 1, 29, 0, .rw, 0x0, .none, .free⟩
/-- R448: staging area, bits [31:0]; R11. -/
def ENC_JRN_STAGE_ADDR_LO : Fld := ⟨0x10000C, 0x0, 1, 0x0, 1, 31, 0, .rw, 0x0, .none, .free⟩
/-- R448: bits [63:32]. -/
def ENC_JRN_STAGE_ADDR_HI : Fld := ⟨0x100010, 0x0, 1, 0x0, 1, 31, 0, .rw, 0x0, .none, .free⟩
/-- R448: witness table, bits [31:0]; R11. -/
def ENC_WIT_ADDR_LO : Fld := ⟨0x100014, 0x0, 1, 0x0, 1, 31, 0, .rw, 0x0, .none, .free⟩
/-- R448: bits [63:32]. -/
def ENC_WIT_ADDR_HI : Fld := ⟨0x100018, 0x0, 1, 0x0, 1, 31, 0, .rw, 0x0, .none, .free⟩
/-- R448: 0–64; above 64 stored as 64. -/
def ENC_WIT_COUNT : Fld := ⟨0x10001C, 0x0, 1, 0x0, 1, 6, 0, .rw, 0x0, .none, .within 0 64⟩
/-- R448: next ring block to be written. -/
def ENC_JRN_HEAD : Fld := ⟨0x100020, 0x0, 1, 0x0, 1, 29, 0, .ro, 0x0, .none, .free⟩
/-- R448: oldest step held. -/
def ENC_OLDEST_STEP : Fld := ⟨0x100024, 0x0, 1, 0x0, 1, 31, 0, .ro, 0x0, .none, .free⟩
/-- R448: newest step held. -/
def ENC_NEWEST_STEP : Fld := ⟨0x100028, 0x0, 1, 0x0, 1, 31, 0, .ro, 0x0, .none, .free⟩
/-- R448: 0 off, 1 recording, 2 replaying, 3 reserved. -/
def ENC_JRN_STATE : Fld := ⟨0x10002C, 0x0, 1, 0x0, 1, 1, 0, .ro, 0x0, .none, .free⟩
/-- R448: under R440. -/
def ENC_OVERFLOW : Fld := ⟨0x10002C, 0x0, 1, 0x0, 1, 2, 2, .w1c, 0x0, .none, .free⟩
/-- R448: an attempt ended INCOMPLETE. -/
def ENC_INCOMPLETE : Fld := ⟨0x10002C, 0x0, 1, 0x0, 1, 3, 3, .w1c, 0x0, .none, .free⟩
/-- R448: status of the last JRN_ENABLE write. -/
def ENC_CFG_RESULT : Fld := ⟨0x10002C, 0x0, 1, 0x0, 1, 9, 4, .ro, 0x0, .none, .free⟩
/-- R448: input wait under R440; saturates. -/
def ENC_STALL_US : Fld := ⟨0x100030, 0x0, 1, 0x0, 1, 31, 0, .ro, 0x0, .none, .free⟩
/-- R448: records written, bits [31:0]; R11; wraps. -/
def ENC_RECORDS_LO : Fld := ⟨0x100034, 0x0, 1, 0x0, 1, 31, 0, .ro, 0x0, .none, .free⟩
/-- R448: bits [63:32]. -/
def ENC_RECORDS_HI : Fld := ⟨0x100038, 0x0, 1, 0x0, 1, 31, 0, .ro, 0x0, .none, .free⟩
/-- R448: step f. -/
def ENC_REPLAY_FIRST : Fld := ⟨0x100040, 0x0, 1, 0x0, 1, 31, 0, .rw, 0x0, .none, .free⟩
/-- R448: step n. -/
def ENC_REPLAY_LAST : Fld := ⟨0x100044, 0x0, 1, 0x0, 1, 31, 0, .rw, 0x0, .none, .free⟩
/-- R448: 1 REPLAY_START, 2 REPLAY_STOP; others discarded; discarded while BUSY. -/
def ENC_CMD : Fld := ⟨0x100048, 0x0, 1, 0x0, 1, 1, 0, .wo, 0x0, .none, .free⟩
/-- R448: replay in progress. -/
def ENC_BUSY : Fld := ⟨0x10004C, 0x0, 1, 0x0, 1, 0, 0, .ro, 0x0, .none, .free⟩
/-- R448: status of the last replay. -/
def ENC_RESULT : Fld := ⟨0x10004C, 0x0, 1, 0x0, 1, 6, 1, .ro, 0x0, .none, .free⟩
/-- R448: 0 idle, 1 running, 2 done, 3 mismatch, 4 diverged, 5 stopped; others reserved. -/
def ENC_REPLAY_STATE : Fld := ⟨0x10004C, 0x0, 1, 0x0, 1, 9, 7, .ro, 0x0, .none, .free⟩
/-- R448: step of the first mismatch. -/
def ENC_MISMATCH_STEP : Fld := ⟨0x100050, 0x0, 1, 0x0, 1, 31, 0, .ro, 0x0, .none, .free⟩
/-- R448: its attempt. -/
def ENC_MISMATCH_ATTEMPT : Fld := ⟨0x100054, 0x0, 1, 0x0, 1, 7, 0, .ro, 0x0, .none, .free⟩
/-- R448: its UPDATE number. -/
def ENC_MISMATCH_UPDATE : Fld := ⟨0x100054, 0x0, 1, 0x0, 1, 15, 8, .ro, 0x0, .none, .free⟩
/-- R448: fields valid. -/
def ENC_MISMATCH_VALID : Fld := ⟨0x100054, 0x0, 1, 0x0, 1, 31, 31, .w1c, 0x0, .none, .free⟩
/-- R448: WID that differed. -/
def ENC_MISMATCH_WID : Fld := ⟨0x100058, 0x0, 1, 0x0, 1, 31, 0, .ro, 0x0, .none, .free⟩
/-- R448: digests computed; wraps. -/
def ENC_DIGESTS : Fld := ⟨0x10005C, 0x0, 1, 0x0, 1, 31, 0, .ro, 0x0, .none, .free⟩
/-! ### MIS block (R449 of 17_encore_and_misstep.md) -/

/-- R449: from SECURITY.MISSTEP_PERMIT. -/
def MIS_PERMIT : Fld := ⟨0x0F0000, 0x0, 1, 0x0, 1, 0, 0, .ro, 0x0, .image, .free⟩
/-- R449: master enable. -/
def MIS_ARM : Fld := ⟨0x0F0004, 0x0, 1, 0x0, 1, 0, 0, .rw, 0x0, .none, .free⟩
/-- R449: acts of all injectors; saturates. -/
def MIS_FIRED_TOTAL : Fld := ⟨0x0F0008, 0x0, 1, 0x0, 1, 31, 0, .ro, 0x0, .none, .free⟩
/-- R449: injector on. -/
def MIS_I_ENABLE : Fld := ⟨0x0F0100, 0x20, 8, 0x0, 1, 0, 0, .rw, 0x0, .none, .free⟩
/-- R449: 1 DROP, 2 CORRUPT, 3 REORDER, 4 ABOVE_CRC; a write of another value is discarded. -/
def MIS_I_HOOK : Fld := ⟨0x0F0100, 0x20, 8, 0x0, 1, 3, 1, .rw, 0x0, .none, .onlyIn 1 4⟩
/-- R449: bit v: VC v eligible. -/
def MIS_I_VC_MASK : Fld := ⟨0x0F0100, 0x20, 8, 0x0, 1, 11, 4, .rw, 0x0, .none, .free⟩
/-- R449: lowest lane of the link, 0–191. -/
def MIS_I_LANE : Fld := ⟨0x0F0100, 0x20, 8, 0x0, 1, 23, 16, .rw, 0x0, .none, .free⟩
/-- R449: MISSTEP absent on the link. -/
def MIS_I_NOT_NEGOTIATED : Fld := ⟨0x0F0100, 0x20, 8, 0x0, 1, 24, 24, .ro, 0x0, .none, .free⟩
/-- R449: eligible flits per act; 0 stored as 1. -/
def MIS_I_INTERVAL : Fld := ⟨0x0F0104, 0x20, 8, 0x0, 1, 23, 0, .rw, 0x0, .none, .zeroAs 1⟩
/-- R449: acts left; 0 acts never. -/
def MIS_I_COUNT : Fld := ⟨0x0F0108, 0x20, 8, 0x0, 1, 15, 0, .rw, 0x0, .none, .free⟩
/-- R449: byte of the flit, or of the payload for ABOVE_CRC, where above 231 is stored as 231. -/
def MIS_I_BYTE : Fld := ⟨0x0F010C, 0x20, 8, 0x0, 1, 7, 0, .rw, 0x0, .none, .free⟩
/-- R449: XOR pattern. -/
def MIS_I_MASK : Fld := ⟨0x0F010C, 0x20, 8, 0x0, 1, 15, 8, .rw, 0x0, .none, .free⟩
/-- R449: CORRUPT, long mode: symbols corrupted. -/
def MIS_I_SYMBOLS : Fld := ⟨0x0F010C, 0x20, 8, 0x0, 1, 20, 16, .rw, 0x0, .none, .free⟩
/-- R449: acts of this injector; saturates. -/
def MIS_I_FIRED : Fld := ⟨0x0F0110, 0x20, 8, 0x0, 1, 31, 0, .ro, 0x0, .none, .free⟩
/-! ### DCD block (R463 of 18_dance_card.md) -/

/-- R463: ring offset of the oldest held record. -/
def DCD_HEAD : Fld := ⟨0x050000, 0x0, 1, 0x0, 1, 23, 0, .ro, 0x0, .standby, .free⟩
/-- R463: ring offset of the next record. -/
def DCD_TAIL : Fld := ⟨0x050004, 0x0, 1, 0x0, 1, 23, 0, .ro, 0x0, .standby, .free⟩
/-- R463: bytes held, 0–16,777,216. -/
def DCD_USED : Fld := ⟨0x050008, 0x0, 1, 0x0, 1, 24, 0, .ro, 0x0, .standby, .free⟩
/-- R463: SEQ at HEAD; 0 when empty. -/
def DCD_FIRST_SEQ : Fld := ⟨0x05000C, 0x0, 1, 0x0, 1, 31, 0, .ro, 0x0, .standby, .free⟩
/-- R463: SEQ the next record takes. -/
def DCD_NEXT_SEQ : Fld := ⟨0x050010, 0x0, 1, 0x0, 1, 31, 0, .ro, 0x1, .standby, .free⟩
/-- R463: records dropped since cold start; saturates. -/
def DCD_DROPPED : Fld := ⟨0x050014, 0x0, 1, 0x0, 1, 31, 0, .ro, 0x0, .standby, .free⟩
/-- R463: drops awaiting a DROP_NOTE; saturates. -/
def DCD_DROP_PENDING : Fld := ⟨0x050018, 0x0, 1, 0x0, 1, 31, 0, .ro, 0x0, .standby, .free⟩
/-- R463: under R459. -/
def DCD_CLEAR_THROUGH : Fld := ⟨0x05001C, 0x0, 1, 0x0, 1, 31, 0, .wo, 0x0, .none, .free⟩
/-- R463: per path; bits [2:0] read zero and are written as zero. -/
def DCD_CURSOR : Fld := ⟨0x050020, 0x0, 1, 0x0, 1, 23, 0, .rw, 0x0, .standby, .free⟩
/-- R463: per path; 0 live card, 1 archive view. -/
def DCD_VIEW : Fld := ⟨0x050020, 0x0, 1, 0x0, 1, 24, 24, .rw, 0x0, .standby, .free⟩
/-- R463: per path, under R458. -/
def DCD_SEEK_SEQ : Fld := ⟨0x050024, 0x0, 1, 0x0, 1, 31, 0, .wo, 0x0, .none, .free⟩
/-- R463: per path. -/
def DCD_SEEK_BUSY : Fld := ⟨0x050028, 0x0, 1, 0x0, 1, 0, 0, .ro, 0x0, .none, .free⟩
/-- R463: per path. -/
def DCD_SEEK_FOUND : Fld := ⟨0x050028, 0x0, 1, 0x0, 1, 1, 1, .ro, 0x0, .none, .free⟩
/-- R463: per path; LENGTH field at CURSOR in the view. -/
def DCD_LENGTH_AT_CURSOR : Fld := ⟨0x050028, 0x0, 1, 0x0, 1, 31, 16, .ro, 0x0, .none, .free⟩
/-- R463: 1–8 under R462; other values discarded; discarded while ARCH_BUSY. -/
def DCD_ARCH_SELECT : Fld := ⟨0x050030, 0x0, 1, 0x0, 1, 3, 0, .wo, 0x0, .none, .free⟩
/-- R463: load or save in progress. -/
def DCD_ARCH_BUSY : Fld := ⟨0x050034, 0x0, 1, 0x0, 1, 0, 0, .ro, 0x0, .none, .free⟩
/-- R463: status of the last load under R18. -/
def DCD_ARCH_RESULT : Fld := ⟨0x050034, 0x0, 1, 0x0, 1, 6, 1, .ro, 0x0, .none, .free⟩
/-- R463: complete archives, 0–8. -/
def DCD_ARCH_COUNT : Fld := ⟨0x050034, 0x0, 1, 0x0, 1, 10, 7, .ro, 0x0, .cold, .free⟩
/-- R463: k of the view; 0 none. -/
def DCD_ARCH_LOADED : Fld := ⟨0x050034, 0x0, 1, 0x0, 1, 14, 11, .ro, 0x0, .standby, .free⟩
/-- R463: saves not made or interrupted; saturates. -/
def DCD_ARCH_FAILS : Fld := ⟨0x050038, 0x0, 1, 0x0, 1, 31, 0, .ro, 0x0, .standby, .free⟩
/-- R463: BYTES of the view. -/
def DCD_ARCH_BYTES : Fld := ⟨0x05003C, 0x0, 1, 0x0, 1, 31, 0, .ro, 0x0, .standby, .free⟩
/-- R463: records accepted since cold start, bits [31:0]; R11. -/
def DCD_RECORDS_LO : Fld := ⟨0x050040, 0x0, 1, 0x0, 1, 31, 0, .ro, 0x0, .standby, .free⟩
/-- R463: bits [63:32]. -/
def DCD_RECORDS_HI : Fld := ⟨0x050044, 0x0, 1, 0x0, 1, 31, 0, .ro, 0x0, .standby, .free⟩
/-! ### HNG block (R486 of 19_hangs_fences_and_resets.md) -/

/-- R486: under R477. -/
def HNG_AUTO_ESCALATE : Fld := ⟨0x060000, 0x0, 1, 0x0, 1, 0, 0, .rw, 0x1, .warm, .free⟩
/-- R486: 0 none, 1 context, 2 engine, 3 partition, 4 warm, 5 power cycle requested. -/
def HNG_LEVEL : Fld := ⟨0x060004, 0x0, 1, 0x0, 1, 2, 0, .ro, 0x0, .standby, .free⟩
/-- R486: a reset is in progress. -/
def HNG_BUSY : Fld := ⟨0x060004, 0x0, 1, 0x0, 1, 3, 3, .ro, 0x0, .standby, .free⟩
/-- R486: status of the last reset under R18. -/
def HNG_RESULT : Fld := ⟨0x060004, 0x0, 1, 0x0, 1, 9, 4, .ro, 0x0, .standby, .free⟩
/-- R486: slot concerned. -/
def HNG_SLOT : Fld := ⟨0x060004, 0x0, 1, 0x0, 1, 14, 10, .ro, 0x0, .standby, .free⟩
/-- R486: engine concerned. -/
def HNG_ENGINE_ID : Fld := ⟨0x060004, 0x0, 1, 0x0, 1, 28, 15, .ro, 0x3FFF, .standby, .free⟩
/-- R486: 1–4 starts that level under R478; others discarded. -/
def HNG_RESET_LEVEL : Fld := ⟨0x060008, 0x0, 1, 0x0, 1, 2, 0, .wo, 0x0, .none, .free⟩
/-- R486: slot for levels 1 and 3. -/
def HNG_RESET_SLOT : Fld := ⟨0x060008, 0x0, 1, 0x0, 1, 7, 3, .wo, 0x0, .none, .free⟩
/-- R486: engine for level 2. -/
def HNG_RESET_ENGINE : Fld := ⟨0x060008, 0x0, 1, 0x0, 1, 21, 8, .wo, 0x0, .none, .free⟩
/-- R486: image order 0 of R466. -/
def HNG_ENGINE_WD_US : Fld := ⟨0x060010, 0x0, 1, 0x0, 1, 31, 0, .rw, 0x0, .image, .within 1000 4000000000⟩
/-- R486: image order 1 of R466. -/
def HNG_CONTEXT_RESET_US : Fld := ⟨0x060014, 0x0, 1, 0x0, 1, 31, 0, .rw, 0x0, .image, .within 500 100000⟩
/-- R486: image order 2 of R466. -/
def HNG_ENGINE_RESET_US : Fld := ⟨0x060018, 0x0, 1, 0x0, 1, 31, 0, .rw, 0x0, .image, .within 500 100000⟩
/-- R486: image order 3 of R466. -/
def HNG_PARTITION_RESET_US : Fld := ⟨0x06001C, 0x0, 1, 0x0, 1, 31, 0, .rw, 0x0, .image, .within 2000 1000000⟩
/-- R486: image order 4 of R466. -/
def HNG_WARM_RESET_MS : Fld := ⟨0x060020, 0x0, 1, 0x0, 1, 31, 0, .rw, 0x0, .image, .within 1500 60000⟩
/-- R486: image order 5 of R466. -/
def HNG_DRAIN_US : Fld := ⟨0x060024, 0x0, 1, 0x0, 1, 31, 0, .rw, 0x0, .image, .within 100 1000⟩
/-- R486: image order 6 of R466. -/
def HNG_HANG_CAPTURE_US : Fld := ⟨0x060028, 0x0, 1, 0x0, 1, 31, 0, .rw, 0x0, .image, .within 1000 1000000⟩
/-- R486: image order 7 of R466. -/
def HNG_FM_NOTICE_US : Fld := ⟨0x06002C, 0x0, 1, 0x0, 1, 31, 0, .rw, 0x0, .image, .within 100 1000000⟩
/-- R486: under R479; 0 stored as 100. -/
def HNG_ISOLATE_MS : Fld := ⟨0x060030, 0x0, 1, 0x0, 1, 15, 0, .rw, 0x1388, .warm, .zeroAs 100⟩
/-- R486: first tier B page under R468. -/
def HNG_BULK_PAGE_FIRST : Fld := ⟨0x060034, 0x0, 1, 0x0, 1, 19, 0, .rw, 0x0, .warm, .free⟩
/-- R486: pages; 0 for none. -/
def HNG_BULK_PAGES : Fld := ⟨0x060038, 0x0, 1, 0x0, 1, 11, 0, .rw, 0x0, .warm, .free⟩
/-- R486: HANG record the area holds. -/
def HNG_BULK_SEQ : Fld := ⟨0x06003C, 0x0, 1, 0x0, 1, 31, 0, .ro, 0x0, .warm, .free⟩
/-- R486: notice destination. -/
def HNG_FM_MODULE : Fld := ⟨0x060040, 0x0, 1, 0x0, 1, 11, 0, .rw, 0x0, .warm, .free⟩
/-- R486: notices sent on VC0. -/
def HNG_FM_VALID : Fld := ⟨0x060040, 0x0, 1, 0x0, 1, 12, 12, .rw, 0x0, .warm, .free⟩
/-- R486: number of the next notice. -/
def HNG_NOTICE_SEQ : Fld := ⟨0x060044, 0x0, 1, 0x0, 1, 31, 0, .ro, 0x1, .standby, .free⟩
/-- R486: under R483. -/
def HNG_NOTICE_ACK : Fld := ⟨0x060048, 0x0, 1, 0x0, 1, 31, 0, .wo, 0x0, .none, .free⟩
/-- R486: notices awaiting acknowledgement. -/
def HNG_NOTICE_PENDING : Fld := ⟨0x06004C, 0x0, 1, 0x0, 1, 15, 0, .ro, 0x0, .standby, .free⟩
/-- R486: saturates. -/
def HNG_WATCHDOGS_FIRED : Fld := ⟨0x060050, 0x0, 1, 0x0, 1, 31, 0, .ro, 0x0, .standby, .free⟩
/-- R486: saturates. -/
def HNG_CONTEXT_RESETS : Fld := ⟨0x060054, 0x0, 1, 0x0, 1, 7, 0, .ro, 0x0, .standby, .free⟩
/-- R486: saturates. -/
def HNG_ENGINE_RESETS : Fld := ⟨0x060054, 0x0, 1, 0x0, 1, 15, 8, .ro, 0x0, .standby, .free⟩
/-- R486: saturates. -/
def HNG_PARTITION_RESETS : Fld := ⟨0x060054, 0x0, 1, 0x0, 1, 23, 16, .ro, 0x0, .standby, .free⟩
/-- R486: warm resets since cold start; saturates. -/
def HNG_WARM_RESETS : Fld := ⟨0x060054, 0x0, 1, 0x0, 1, 31, 24, .ro, 0x0, .standby, .free⟩
/-- R486: budgets exceeded under R476; saturates. -/
def HNG_ESCALATIONS : Fld := ⟨0x060058, 0x0, 1, 0x0, 1, 31, 0, .ro, 0x0, .standby, .free⟩
/-- R486: under R470; saturates. -/
def HNG_LATE_RESPONSES : Fld := ⟨0x06005C, 0x0, 1, 0x0, 1, 31, 0, .ro, 0x0, .none, .free⟩
/-- R486: under R483; saturates. -/
def HNG_NOTICES_LOST : Fld := ⟨0x060060, 0x0, 1, 0x0, 1, 31, 0, .ro, 0x0, .standby, .free⟩
/-- R486: hangs with no guilty suspect; saturates. -/
def HNG_UNATTRIBUTED : Fld := ⟨0x060064, 0x0, 1, 0x0, 1, 31, 0, .ro, 0x0, .standby, .free⟩
/-- R486: bit i: slot i is a suspect. -/
def HNG_SUSPECTS : Fld := ⟨0x060070, 0x0, 1, 0x0, 1, 31, 0, .ro, 0x0, .none, .free⟩
/-- R486: slot in its turn. -/
def HNG_UNDER_TEST : Fld := ⟨0x060074, 0x0, 1, 0x0, 1, 4, 0, .ro, 0x0, .none, .free⟩
/-- R486: a turn is in progress. -/
def HNG_TESTING : Fld := ⟨0x060074, 0x0, 1, 0x0, 1, 5, 5, .ro, 0x0, .none, .free⟩
/-- R486: under R480. -/
def HNG_GUILTY_SLOT : Fld := ⟨0x060074, 0x0, 1, 0x0, 1, 10, 6, .ro, 0x0, .none, .free⟩
/-- R486: GUILTY_SLOT valid. -/
def HNG_GUILTY_VALID : Fld := ⟨0x060074, 0x0, 1, 0x0, 1, 11, 11, .w1c, 0x0, .none, .free⟩
/-- R486: under R477; saturates. -/
def HNG_CALLER_RESTARTS : Fld := ⟨0x060078, 0x0, 1, 0x0, 1, 7, 0, .ro, 0x0, .standby, .free⟩
/-- R486: bit i: slot i's context or partition fenced. -/
def HNG_FENCED_SLOTS : Fld := ⟨0x060080, 0x0, 1, 0x0, 1, 31, 0, .ro, 0x0, .none, .free⟩
/-- R486: module fence in force. -/
def HNG_MODULE_FENCED : Fld := ⟨0x060084, 0x0, 1, 0x0, 1, 0, 0, .ro, 0x0, .none, .free⟩
/-- R486: PWRCYC_REQ_N driven low. -/
def HNG_PWRCYC_REQ : Fld := ⟨0x060084, 0x0, 1, 0x0, 1, 1, 1, .ro, 0x0, .none, .free⟩
/-! ### MBX block (R509 of 20_host_and_service_ports.md) -/

/-- R509: bit k: port k data link active. -/
def MBX_PCIE_UP : Fld := ⟨0x040000, 0x0, 1, 0x0, 1, 1, 0, .ro, 0x0, .none, .free⟩
/-- R509: bit k: service port k up. -/
def MBX_ETH_UP : Fld := ⟨0x040000, 0x0, 1, 0x0, 1, 3, 2, .ro, 0x0, .none, .free⟩
/-- R509: from HOST. -/
def MBX_MSIX_VECTORS : Fld := ⟨0x040004, 0x0, 1, 0x0, 1, 11, 0, .ro, 0x0, .image, .free⟩
/-- R509: from HOST. -/
def MBX_PCIE_ENABLE : Fld := ⟨0x040004, 0x0, 1, 0x0, 1, 13, 12, .ro, 0x0, .image, .free⟩
/-- R509: window writes refused; saturates. -/
def MBX_HOST_DROPS : Fld := ⟨0x040008, 0x0, 1, 0x0, 1, 31, 0, .ro, 0x0, .none, .free⟩
/-- R509: under R503; saturates. -/
def MBX_UNBOUND_RINGS : Fld := ⟨0x04000C, 0x0, 1, 0x0, 1, 31, 0, .ro, 0x0, .none, .free⟩
/-- R509: under R500; saturates. -/
def MBX_UNBOUND_WORDS : Fld := ⟨0x040010, 0x0, 1, 0x0, 1, 31, 0, .ro, 0x0, .none, .free⟩
/-- R509: a refused window access is captured. -/
def MBX_CAP_VALID : Fld := ⟨0x040014, 0x0, 1, 0x0, 1, 0, 0, .w1c, 0x0, .none, .free⟩
/-- R509: its port. -/
def MBX_CAP_PORT : Fld := ⟨0x040014, 0x0, 1, 0x0, 1, 1, 1, .ro, 0x0, .none, .free⟩
/-- R509: its status under R18. -/
def MBX_CAP_STATUS : Fld := ⟨0x040014, 0x0, 1, 0x0, 1, 7, 2, .ro, 0x0, .none, .free⟩
/-- R509: BAR2 offset bits [33:2]. -/
def MBX_CAP_OFFSET : Fld := ⟨0x040018, 0x0, 1, 0x0, 1, 31, 0, .ro, 0x0, .none, .free⟩
/-- R509: window's context. -/
def MBX_W_CONTEXT : Fld := ⟨0x040100, 0x80, 2, 0x10, 8, 15, 0, .rw, 0x0, .partition, .free⟩
/-- R509: window in use. -/
def MBX_W_VALID : Fld := ⟨0x040100, 0x80, 2, 0x10, 8, 16, 16, .rw, 0x0, .partition, .free⟩
/-- R509: writes allowed. -/
def MBX_W_WRITABLE : Fld := ⟨0x040100, 0x80, 2, 0x10, 8, 17, 17, .rw, 0x0, .partition, .free⟩
/-- R509: context address bits [31:0]; bits [20:0] written as zero; R11. -/
def MBX_W_BASE_LO : Fld := ⟨0x040104, 0x80, 2, 0x10, 8, 31, 0, .rw, 0x0, .partition, .lowZero 21⟩
/-- R509: bits [55:32]. -/
def MBX_W_BASE_HI : Fld := ⟨0x040108, 0x80, 2, 0x10, 8, 23, 0, .rw, 0x0, .partition, .free⟩
/-- R509: channel's context. -/
def MBX_C_CONTEXT : Fld := ⟨0x041000, 0x40, 64, 0x0, 1, 15, 0, .rw, 0x0, .partition, .free⟩
/-- R509: set end. -/
def MBX_C_ROUTINE_SET : Fld := ⟨0x041000, 0x40, 64, 0x0, 1, 25, 16, .rw, 0x3FF, .partition, .free⟩
/-- R509: channel bound. -/
def MBX_C_VALID : Fld := ⟨0x041000, 0x40, 64, 0x0, 1, 26, 26, .rw, 0x0, .partition, .free⟩
/-- R509: 0 port 0, 1 port 1, 2 no interrupt, 3 reserved. -/
def MBX_C_HOST : Fld := ⟨0x041000, 0x40, 64, 0x0, 1, 28, 27, .rw, 0x2, .partition, .free⟩
/-- R509: MSI-X vector. -/
def MBX_C_VECTOR : Fld := ⟨0x041004, 0x40, 64, 0x0, 1, 10, 0, .rw, 0x0, .partition, .free⟩
/-- R509: under R496 and R497; below 10 stored as 10. -/
def MBX_C_TIMEOUT_US : Fld := ⟨0x041008, 0x40, 64, 0x0, 1, 19, 0, .rw, 0x3E8, .partition, .atLeast 10⟩
/-- R509: push to the set under R497. -/
def MBX_C_IN_WORD : Fld := ⟨0x04100C, 0x40, 64, 0x0, 1, 31, 0, .wo, 0x0, .none, .free⟩
/-- R509: oldest from-set word. -/
def MBX_C_OUT_HEAD : Fld := ⟨0x041010, 0x40, 64, 0x0, 1, 31, 0, .ro, 0x0, .none, .free⟩
/-- R509: 1 removes OUT_HEAD. -/
def MBX_C_OUT_POP : Fld := ⟨0x041014, 0x40, 64, 0x0, 1, 0, 0, .wo, 0x0, .none, .free⟩
/-- R509: words queued to the set, 0–16. -/
def MBX_C_TO_SET_COUNT : Fld := ⟨0x041018, 0x40, 64, 0x0, 1, 4, 0, .ro, 0x0, .none, .free⟩
/-- R509: words queued from the set, 0–16. -/
def MBX_C_FROM_SET_COUNT : Fld := ⟨0x041018, 0x40, 64, 0x0, 1, 12, 8, .ro, 0x0, .none, .free⟩
/-- R509: a word is held. -/
def MBX_C_PENDING : Fld := ⟨0x041018, 0x40, 64, 0x0, 1, 16, 16, .ro, 0x0, .none, .free⟩
/-- R509: under R497. -/
def MBX_C_TO_SET_TIMEOUT : Fld := ⟨0x041018, 0x40, 64, 0x0, 1, 17, 17, .w1c, 0x0, .none, .free⟩
/-- R509: under R496. -/
def MBX_C_FROM_SET_TIMEOUT : Fld := ⟨0x041018, 0x40, 64, 0x0, 1, 18, 18, .w1c, 0x0, .none, .free⟩
/-- R509: under R498. -/
def MBX_C_UNDERRUN : Fld := ⟨0x041018, 0x40, 64, 0x0, 1, 19, 19, .w1c, 0x0, .none, .free⟩
/-- R509: wraps. -/
def MBX_C_WORDS_IN : Fld := ⟨0x04101C, 0x40, 64, 0x0, 1, 31, 0, .ro, 0x0, .none, .free⟩
/-- R509: wraps. -/
def MBX_C_WORDS_OUT : Fld := ⟨0x041020, 0x40, 64, 0x0, 1, 31, 0, .ro, 0x0, .none, .free⟩
/-- R509: doorbell's context. -/
def MBX_D_CONTEXT : Fld := ⟨0x042000, 0x10, 256, 0x0, 1, 15, 0, .rw, 0x0, .partition, .free⟩
/-- R509: target set, DIR 0. -/
def MBX_D_ROUTINE_SET : Fld := ⟨0x042000, 0x10, 256, 0x0, 1, 25, 16, .rw, 0x3FF, .partition, .free⟩
/-- R509: target counter, DIR 0. -/
def MBX_D_COUNTER : Fld := ⟨0x042000, 0x10, 256, 0x0, 1, 31, 26, .rw, 0x0, .partition, .free⟩
/-- R509: doorbell bound. -/
def MBX_D_VALID : Fld := ⟨0x042004, 0x10, 256, 0x0, 1, 0, 0, .rw, 0x0, .partition, .free⟩
/-- R509: 0 to the set, 1 to an agent. -/
def MBX_D_DIR : Fld := ⟨0x042004, 0x10, 256, 0x0, 1, 1, 1, .rw, 0x0, .partition, .free⟩
/-- R509: as for channels. -/
def MBX_D_HOST : Fld := ⟨0x042004, 0x10, 256, 0x0, 1, 3, 2, .rw, 0x2, .partition, .free⟩
/-- R509: MSI-X vector, DIR 1. -/
def MBX_D_VECTOR : Fld := ⟨0x042004, 0x10, 256, 0x0, 1, 14, 4, .rw, 0x0, .partition, .free⟩
/-- R509: under R501. -/
def MBX_D_RING : Fld := ⟨0x042008, 0x10, 256, 0x0, 1, 31, 0, .wo, 0x0, .none, .free⟩
/-- R509: DIR 1 rings; wraps. -/
def MBX_D_COUNT : Fld := ⟨0x04200C, 0x10, 256, 0x0, 1, 30, 0, .ro, 0x0, .none, .free⟩
/-- R509: DIR 1, under R501. -/
def MBX_D_PENDING : Fld := ⟨0x04200C, 0x10, 256, 0x0, 1, 31, 31, .w1c, 0x0, .none, .free⟩
/-- R509: 0 down, 1 training, 2 up at 1.6 Tb/s, 3 up at 800 Gb/s. -/
def MBX_K_ETH_STATE : Fld := ⟨0x048000, 0x40, 2, 0x0, 1, 1, 0, .ro, 0x0, .none, .free⟩
/-- R509: MAC bytes 0–3. -/
def MBX_K_MAC_LO : Fld := ⟨0x048004, 0x40, 2, 0x0, 1, 31, 0, .ro, 0x0, .image, .free⟩
/-- R509: MAC bytes 4–5. -/
def MBX_K_MAC_HI : Fld := ⟨0x048008, 0x40, 2, 0x0, 1, 15, 0, .ro, 0x0, .image, .free⟩
/-- R509: from SERVICE. -/
def MBX_K_MTU : Fld := ⟨0x048008, 0x40, 2, 0x0, 1, 31, 16, .ro, 0x0, .image, .free⟩
/-- R509: saturates. -/
def MBX_K_FEC_CORRECTED : Fld := ⟨0x04800C, 0x40, 2, 0x0, 1, 31, 0, .ro, 0x0, .none, .free⟩
/-- R509: saturates. -/
def MBX_K_FEC_UNCORRECTABLE : Fld := ⟨0x048010, 0x40, 2, 0x0, 1, 31, 0, .ro, 0x0, .none, .free⟩
/-- R509: saturates. -/
def MBX_K_RX_DROPS : Fld := ⟨0x048014, 0x40, 2, 0x0, 1, 31, 0, .ro, 0x0, .none, .free⟩
/-- R509: RoCEv2 retransmissions; saturates. -/
def MBX_K_RETRANSMITS : Fld := ⟨0x048018, 0x40, 2, 0x0, 1, 31, 0, .ro, 0x0, .none, .free⟩
/-- R509: low half of the subnet part, bits [31:0] as transmitted last; R11. -/
def MBX_IPV6_PREFIX_LO : Fld := ⟨0x048080, 0x0, 1, 0x0, 1, 31, 0, .rw, 0x0, .warm, .free⟩
/-- R509: high half of the subnet part, bits [63:32]. -/
def MBX_IPV6_PREFIX_HI : Fld := ⟨0x048084, 0x0, 1, 0x0, 1, 31, 0, .rw, 0x0, .warm, .free⟩
/-- R509: pair ready under R506. -/
def MBX_T_VALID : Fld := ⟨0x049000, 0x40, 64, 0x0, 1, 0, 0, .rw, 0x0, .partition, .free⟩
/-- R509: 0 port 0, 1 port 1, 2 either, 3 reserved. -/
def MBX_T_PORT : Fld := ⟨0x049000, 0x40, 64, 0x0, 1, 2, 1, .rw, 0x0, .partition, .free⟩
/-- R509: remote QPN. -/
def MBX_T_DEST_QPN : Fld := ⟨0x049000, 0x40, 64, 0x0, 1, 26, 3, .rw, 0x0, .partition, .free⟩
/-- R509: local context. -/
def MBX_T_CONTEXT : Fld := ⟨0x049004, 0x40, 64, 0x0, 1, 15, 0, .rw, 0x0, .partition, .free⟩
/-- R509: doorbell rung by immediates. -/
def MBX_T_DOORBELL : Fld := ⟨0x049004, 0x40, 64, 0x0, 1, 23, 16, .rw, 0x0, .partition, .free⟩
/-- R509: immediates ring. -/
def MBX_T_DB_VALID : Fld := ⟨0x049004, 0x40, 64, 0x0, 1, 24, 24, .rw, 0x0, .partition, .free⟩
/-- R509: inbound writes admitted. -/
def MBX_T_INBOUND : Fld := ⟨0x049004, 0x40, 64, 0x0, 1, 25, 25, .rw, 0x0, .partition, .free⟩
/-- R509: IPv6 address, word j bits [32j + 31:32j]. -/
def MBX_T_DEST_IP : Fld := ⟨0x049008, 0x40, 64, 0x4, 4, 31, 0, .rw, 0x0, .partition, .free⟩
/-- R509: remote key. -/
def MBX_T_RKEY : Fld := ⟨0x049018, 0x40, 64, 0x0, 1, 31, 0, .rw, 0x0, .partition, .free⟩
/-- R509: first PSN. -/
def MBX_T_START_PSN : Fld := ⟨0x04901C, 0x40, 64, 0x0, 1, 23, 0, .rw, 0x0, .partition, .free⟩
/-- R509: R11. -/
def MBX_T_REMOTE_BASE_LO : Fld := ⟨0x049020, 0x40, 64, 0x0, 1, 31, 0, .rw, 0x0, .partition, .free⟩
/-- R509: MBX_T_REMOTE_BASE_HI. -/
def MBX_T_REMOTE_BASE_HI : Fld := ⟨0x049024, 0x40, 64, 0x0, 1, 31, 0, .rw, 0x0, .partition, .free⟩
/-- R509: bytes; R11. -/
def MBX_T_REMOTE_LEN_LO : Fld := ⟨0x049028, 0x40, 64, 0x0, 1, 31, 0, .rw, 0x0, .partition, .free⟩
/-- R509: MBX_T_REMOTE_LEN_HI. -/
def MBX_T_REMOTE_LEN_HI : Fld := ⟨0x04902C, 0x40, 64, 0x0, 1, 31, 0, .rw, 0x0, .partition, .free⟩
/-- R509: context address; bits [20:0] written as zero; R11. -/
def MBX_T_LOCAL_BASE_LO : Fld := ⟨0x049030, 0x40, 64, 0x0, 1, 31, 0, .rw, 0x0, .partition, .lowZero 21⟩
/-- R509: bits [55:32]. -/
def MBX_T_LOCAL_BASE_HI : Fld := ⟨0x049034, 0x40, 64, 0x0, 1, 23, 0, .rw, 0x0, .partition, .free⟩
/-- R509: inbound window in 2 MiB pages. -/
def MBX_T_LOCAL_PAGES : Fld := ⟨0x049038, 0x40, 64, 0x0, 1, 19, 0, .rw, 0x0, .partition, .free⟩
/-- R509: 0 reset, 1 ready to send, 2 error, 3 reserved. -/
def MBX_T_QP_STATE : Fld := ⟨0x04903C, 0x40, 64, 0x0, 1, 1, 0, .ro, 0x0, .none, .free⟩
/-! ### PWR block (R538 of 21_caller_power_and_clocks.md) -/

/-- R538: 1 STANDBY, 2 RUN, 3 DORMANT; 0 discarded. -/
def PWR_STATE_CMD : Fld := ⟨0x010000, 0x0, 1, 0x0, 1, 1, 0, .wo, 0x0, .none, .free⟩
/-- R538: a transition is in progress. -/
def PWR_TRANSITION : Fld := ⟨0x010004, 0x0, 1, 0x0, 1, 0, 0, .ro, 0x0, .standby, .free⟩
/-- R538: status of the last command under R18. -/
def PWR_RESULT : Fld := ⟨0x010004, 0x0, 1, 0x0, 1, 6, 1, .ro, 0x0, .standby, .free⟩
/-- R538: Idle allowed under R517. -/
def PWR_IDLE_EN : Fld := ⟨0x010008, 0x0, 1, 0x0, 1, 0, 0, .rw, 0x1, .warm, .free⟩
/-- R538: below 10 stored as 10. -/
def PWR_IDLE_US : Fld := ⟨0x010008, 0x0, 1, 0x0, 1, 31, 16, .rw, 0x3E8, .warm, .atLeast 10⟩
/-- R538: under R520. -/
def PWR_THROTTLE_C : Fld := ⟨0x01000C, 0x0, 1, 0x0, 1, 7, 0, .rw, 0x0, .image, .free⟩
/-- R538: under R520. -/
def PWR_ALERT_C : Fld := ⟨0x01000C, 0x0, 1, 0x0, 1, 15, 8, .rw, 0x0, .image, .free⟩
/-- R538: under R520. -/
def PWR_HYSTERESIS_C : Fld := ⟨0x01000C, 0x0, 1, 0x0, 1, 23, 16, .rw, 0x0, .image, .free⟩
/-- R538: under R523; stored within 1,000–3,200. -/
def PWR_POWER_LIMIT_W : Fld := ⟨0x010010, 0x0, 1, 0x0, 1, 12, 0, .rw, 0xC80, .none, .within 1000 3200⟩
/-- R538: under R526; below 100 stored as 100. -/
def PWR_DROOP_HOLD_NS : Fld := ⟨0x010014, 0x0, 1, 0x0, 1, 11, 0, .rw, 0x1F4, .none, .atLeast 100⟩
/-- R538: level of die d in bits [4d + 3:4d]. -/
def PWR_LEVEL : Fld := ⟨0x010018, 0x0, 1, 0x0, 1, 15, 0, .ro, 0x0, .none, .free⟩
/-- R538: ALERT_N driven low. -/
def PWR_ALERT : Fld := ⟨0x010018, 0x0, 1, 0x0, 1, 16, 16, .ro, 0x0, .none, .free⟩
/-- R538: under R525. -/
def PWR_TRIPPED : Fld := ⟨0x010018, 0x0, 1, 0x0, 1, 17, 17, .ro, 0x0, .standby, .free⟩
/-- R538: die that tripped. -/
def PWR_TRIP_DIE : Fld := ⟨0x010018, 0x0, 1, 0x0, 1, 19, 18, .ro, 0x0, .standby, .free⟩
/-- R538: reference present. -/
def PWR_REF_OK : Fld := ⟨0x010018, 0x0, 1, 0x0, 1, 20, 20, .ro, 0x0, .none, .free⟩
/-- R538: root PLL locked. -/
def PWR_ROOT_LOCKED : Fld := ⟨0x010018, 0x0, 1, 0x0, 1, 21, 21, .ro, 0x0, .none, .free⟩
/-- R538: hottest junction, signed, 0.01 °C. -/
def PWR_D_JUNCTION : Fld := ⟨0x010020, 0x4, 4, 0x0, 1, 15, 0, .ro, 0x0, .none, .free⟩
/-- R538: highest since warm reset. -/
def PWR_D_JUNCTION_MAX : Fld := ⟨0x010020, 0x4, 4, 0x0, 1, 31, 16, .ro, 0x0, .none, .free⟩
/-- R538: signed, 0.01 °C. -/
def PWR_S_STACK_TEMP : Fld := ⟨0x010040, 0x4, 12, 0x0, 1, 15, 0, .ro, 0x0, .none, .free⟩
/-- R538: signed, 0.01 °C. -/
def PWR_PLATE_IN : Fld := ⟨0x010070, 0x0, 1, 0x0, 1, 15, 0, .ro, 0x0, .none, .free⟩
/-- R538: signed, 0.01 °C. -/
def PWR_PLATE_OUT : Fld := ⟨0x010070, 0x0, 1, 0x0, 1, 31, 16, .ro, 0x0, .none, .free⟩
/-- R538: input voltage, mV. -/
def PWR_VIN_MV : Fld := ⟨0x010074, 0x0, 1, 0x0, 1, 15, 0, .ro, 0x0, .none, .free⟩
/-- R538: input power over 1 ms, W. -/
def PWR_PIN_W : Fld := ⟨0x010074, 0x0, 1, 0x0, 1, 31, 16, .ro, 0x0, .none, .free⟩
/-- R538: under R522; saturates. -/
def PWR_THROTTLE_US : Fld := ⟨0x010078, 0x0, 1, 0x0, 1, 31, 0, .ro, 0x0, .standby, .free⟩
/-- R538: saturates. -/
def PWR_DROOP_EVENTS : Fld := ⟨0x01007C, 0x0, 1, 0x0, 1, 31, 0, .ro, 0x0, .standby, .free⟩
/-- R538: saturates. -/
def PWR_DROOP_US : Fld := ⟨0x010080, 0x0, 1, 0x0, 1, 31, 0, .ro, 0x0, .standby, .free⟩
/-- R538: under R513; saturates. -/
def PWR_CLOCK_LOSSES : Fld := ⟨0x010084, 0x0, 1, 0x0, 1, 15, 0, .ro, 0x0, .standby, .free⟩
/-- R538: wraps. -/
def PWR_IDLE_ENTRIES : Fld := ⟨0x010084, 0x0, 1, 0x0, 1, 31, 16, .ro, 0x0, .none, .free⟩
/-! ### SEC block (R539 of 21_caller_power_and_clocks.md) -/

/-- R539: from SECURITY. -/
def SEC_ATTEST_MODE : Fld := ⟨0x030000, 0x0, 1, 0x0, 1, 0, 0, .ro, 0x0, .image, .free⟩
/-- R539: per path; 1 signs a report under R536. -/
def SEC_REPORT_CMD : Fld := ⟨0x030004, 0x0, 1, 0x0, 1, 0, 0, .wo, 0x0, .none, .free⟩
/-- R539: per path. -/
def SEC_BUSY : Fld := ⟨0x030008, 0x0, 1, 0x0, 1, 0, 0, .ro, 0x0, .none, .free⟩
/-- R539: per path; status of the last report. -/
def SEC_RESULT : Fld := ⟨0x030008, 0x0, 1, 0x0, 1, 6, 1, .ro, 0x0, .none, .free⟩
/-- R539: bytes of DEVICE_CERT. -/
def SEC_CERT_LENGTH : Fld := ⟨0x03000C, 0x0, 1, 0x0, 1, 11, 0, .ro, 0x0, .cold, .free⟩
/-- R539: per path; 64 bytes. -/
def SEC_NONCE : Fld := ⟨0x030040, 0x4, 16, 0x0, 1, 31, 0, .rw, 0x0, .none, .free⟩
/-- R539: per path; the 324-byte report. -/
def SEC_REPORT : Fld := ⟨0x030100, 0x4, 81, 0x0, 1, 31, 0, .ro, 0x0, .none, .free⟩
/-- R539: 133-byte point and three zero bytes. -/
def SEC_DEVICE_PUBKEY : Fld := ⟨0x030400, 0x4, 34, 0x0, 1, 31, 0, .ro, 0x0, .cold, .free⟩
/-- R539: DER chain; zero beyond CERT_LENGTH. -/
def SEC_DEVICE_CERT : Fld := ⟨0x031000, 0x4, 1024, 0x0, 1, 31, 0, .ro, 0x0, .cold, .free⟩

/-- The fields of control-space block 0x000. -/
def blockFields0 : List Fld :=
  [ MOD_VENDOR, MOD_DEVICE, MOD_STEPPING, MOD_GENERATION, MOD_SLOT, MOD_FLOOR, MOD_PHASE, MOD_POWER, MOD_FAULT, MOD_SETS_USABLE, MOD_ARRAYS_USABLE, MOD_STACK_OK, MOD_ENGINE_OK, MOD_DIE_OK, MOD_CALLER_CYCLES_LO, MOD_CALLER_CYCLES_HI, MOD_SCRATCH]

/-- The fields of control-space block 0x002. -/
def blockFields2 : List Fld :=
  [CFG_STAGE, CFG_WARM, CFG_START_CODE, CFG_FAIL_STAGE, CFG_FAIL_ITEM, CFG_STAGE_DONE, CFG_READY_CYCLES_LO, CFG_READY_CYCLES_HI, CFG_IMAGE_VERSION, CFG_IMAGE_LENGTH, CFG_KEY_SLOT, CFG_FUSED, CFG_REVOKED, CFG_TEST_PRIV, CFG_STAGE_MS_A, CFG_STAGE_MS_B, CFG_HOLD_CMD, CFG_OWNER, CFG_BUSY, CFG_RESULT, CFG_STAGED_OK, CFG_PROGRESS, CFG_STAGE_PAGE, CFG_STAGE_LENGTH]

/-- The fields of control-space block 0x009. -/
def blockFields9 : List Fld :=
  [MEM_A_STACKS, MEM_B_CTRLS, MEM_A_GIB, MEM_B_GIB, MEM_B_OK, MEM_A_RATE, MEM_B_RATE, MEM_PATROL_S, MEM_PATROL_PASSES, MEM_AGE1, MEM_AGE2, MEM_AGE3, MEM_RESERVE3, MEM_A_CE_TOTAL, MEM_A_UE_TOTAL, MEM_B_CE_TOTAL, MEM_B_UE_TOTAL, MEM_C_CE_TOTAL, MEM_C_UE_TOTAL, MEM_UE_TIER, MEM_UE_UNIT, MEM_UE_CLASS, MEM_UE_VALID, MEM_UE_OFFSET_LO, MEM_UE_OFFSET_HI, MEM_CE_RECORD_AT, MEM_STACK_CE, MEM_STACK_UE, MEM_STACK_LOST, MEM_STACK_RETIRE_PENDING, MEM_CTRL_STATUS, MEM_AGED, MEM_RESERVE3_GRANTS, MEM_C_STATE, MEM_C_BLOCKS, MEM_C_HOST_LO, MEM_C_HOST_HI, MEM_C_PROG_LO, MEM_C_PROG_HI, MEM_LIFE_USED_BP]
  ++ [MEM_SPARE_LEFT, MEM_WEAR_WARN_BP]

/-- The fields of control-space block 0x008. -/
def blockFields8 : List Fld :=
  [MSC_SLICE, MSC_IN_SERVICE, MSC_LOST, MSC_BYPASS3, MSC_ALLOC_ACC, MSC_DIRTY_LINES, MSC_HELD_BAD, MSC_HITS_LO, MSC_HITS_HI, MSC_MISSES_LO, MSC_MISSES_HI, MSC_ATOMICS_LO, MSC_ATOMICS_HI, MSC_ROWS_LO, MSC_ROWS_HI, MSC_OVERRANGE_ROWS, MSC_CHECK_FAILS, MSC_SLICE_CE, MSC_SLICE_UE, MSC_UE_VALID, MSC_UE_OFFSET_LO, MSC_UE_OFFSET_HI]

/-- The fields of control-space block 0x00E. -/
def blockFields14 : List Fld :=
  [FAB_MODULE_ID, FAB_EPOCH, FAB_REQ_TIMEOUT_US, FAB_XLATE_MISSES, FAB_ACCESS_OUT, FAB_ACCESS_IN, FAB_DUPLICATES, FAB_STALE, FAB_TIMEOUTS, FAB_EPOCH_MISMATCH, FAB_CLOSED_PAIRS, FAB_IMP_SRC_MODULE, FAB_IMP_KIND, FAB_IMP_SPACE, FAB_IMP_VALID, FAB_IMP_SRC_CONTEXT, FAB_IMP_OWNER, FAB_IMP_OFFSET_LO, FAB_IMP_OFFSET_HI, TOP_MODE, TOP_NETWORKS, TOP_CUTOUT, TOP_GRID_X, TOP_GRID_Y, TOP_FLOOR_X, TOP_FLOOR_Y, TOP_PORT_ROLE, TOP_ACTIVE_SET, TOP_PEND_SET, TOP_DRAW_CMD, TOP_BUSY, TOP_RESULT, TOP_RETUNES_LEFT, TOP_DRAWS, TOP_CUT_SLOTS, TOP_CUT_PORTS, TOP_ROUTE_COUNT, TOP_NO_ROUTE, TOP_ALT_TAKEN, TOP_RELAYED]
  ++ [TOP_CUT_CUT_MODULE, TOP_CUT_PARTNER, TOP_CUT_VALID, TOP_CUT_APPLIED, TOP_RT_DEST_FIRST, TOP_RT_COUNT, TOP_RT_PORT, TOP_RT_ALT_PORT, TOP_RT_USING_ALT]

/-- The fields of control-space block 0x00D. -/
def blockFields13 : List Fld :=
  [OPT_COMB_READY, OPT_ENGINE_FAILED, OPT_PORT_ENABLE, OPT_SHORT_MODE, OPT_RECAL_MS, OPT_ROUTER_FACING, OPT_MISLOCKS, OPT_LOCK_LOST, OPT_LANE_RETIREMENTS, OPT_TRACK_RATE_EXCEEDED, OPT_E_COMB_STATE, OPT_E_LINE_OK, OPT_E_ENGINE_TEMP, OPT_E_TEMP_RATE_MAX, OPT_E_HEATER_MW, OPT_E_ENGINE_MW, OPT_P_SHORT, OPT_P_ROUTER, OPT_P_CLOCK_OK, OPT_P_PORT_LOS, OPT_P_HELD, OPT_P_TX_LANES, OPT_P_RX_LANES, OPT_P_HEATER_CLAMP, OPT_P_EQ_AUTO, OPT_P_TX_ENABLED, OPT_P_RX_ENABLED, OPT_P_LOS, OPT_P_RETIRED, OPT_P_MATRIX_COMMIT, OPT_LN_TX_STATE, OPT_LN_RX_STATE, OPT_LN_TARGET_LINE, OPT_LN_TX_LINE, OPT_LN_RX_LINE, OPT_LN_TX_FAILS, OPT_LN_EQ_CODE, OPT_LN_RETRY, OPT_LN_TX_HEATER, OPT_LN_RX_HEATER]
  ++ [OPT_LN_RX_POWER, OPT_LN_RX_FAILS, OPT_MATRIX_A, OPT_MATRIX_B]

/-- The fields of control-space block 0x00C. -/
def blockFields12 : List Fld :=
  [LNK_LINKS_UP, LNK_LINKS_HELD, LNK_LINKS_MISSING, LNK_GEN_MIN, LNK_GEN_MAX, LNK_PORT_AGNOSTIC, LNK_CUTOUT, LNK_FEATURES_LO, LNK_FEATURES_HI, LNK_WEIGHT0_3, LNK_WEIGHT4_7, LNK_REPLAY_TIMEOUT_NS, LNK_RETRY_LIMIT, LNK_DISCOVERY_MS, LNK_LOGICAL_0_7, LNK_LOGICAL_8_11, LNK_CRC_ERRORS, LNK_NAKS_SENT, LNK_REPLAYS, LNK_LINK_DOWNS, LNK_HOPS_DISCARDED, LNK_P_LOGICAL, LNK_P_PORT_HOLD, LNK_P_LINKS, LNK_P_MISSING, LNK_P_EXTRA, LNK_P_SWAPPED, LNK_P_EXPECTED, LNK_P_SEEN_MODULE, LNK_P_SEEN_PORT, LNK_P_SEEN_VALID, LNK_P_LOOPBACK_OK, LNK_P_REFORM, LNK_L_LINK_STATE, LNK_L_HOLD_REASON, LNK_L_PARTNER, LNK_L_PARTNER_PORT, LNK_L_GEN, LNK_L_TX_LANES, LNK_L_RX_LANES]
  ++ [LNK_L_NEG_FEATURES_LO, LNK_L_NEG_FEATURES_HI, LNK_L_NEXT_LSEQ, LNK_L_LAST_LACK, LNK_L_KEPT, LNK_L_LINK_CRC_ERRORS, LNK_L_FEC_SYMBOLS, LNK_L_FEC_UNCORRECTABLE, LNK_L_LINK_REPLAYS, LNK_L_RETRAINS, LNK_L_UP_CYCLES_LO, LNK_L_UP_CYCLES_HI]

/-- The fields of control-space block 0x00B. -/
def blockFields11 : List Fld :=
  [RND_GROUPS_VALID, RND_ROUND_TIMEOUT_US, RND_CHECK_FAILS, RND_LATE_CHECK_FAILS, RND_RESENDS, RND_ORDER_ABORTS, RND_PEER_LOSTS, RND_STALE_PARTS, RND_PARTS_SENT_LO, RND_PARTS_SENT_HI, RND_PARTS_RECEIVED_LO, RND_PARTS_RECEIVED_HI, RND_G_STATE, RND_G_QUEUED, RND_G_AXIS, RND_G_PHASE, RND_G_RING_STEP, RND_G_RSEQ, RND_G_LAST_STATUS, RND_G_LOST_MEMBER, RND_G_COMMIT_RESULT, RND_G_TAG, RND_E_VERSION, RND_E_VALID, RND_E_CONTEXT, RND_E_GROUP_ID, RND_E_JOB, RND_E_AXES, RND_E_PUSH_SET, RND_E_RX_SLOTS, RND_E_AXIS0_SIZE, RND_E_AXIS1_SIZE, RND_E_AXIS2_SIZE, RND_E_AXIS3_SIZE, RND_E_SELF, RND_E_CHUNK_BLOCKS, RND_E_MEMBERS_ADDR_LO, RND_E_MEMBERS_ADDR_HI, RND_E_BUF_ADDR_LO, RND_E_BUF_ADDR_HI]
  ++ [RND_E_BUF_BYTES]

/-- The fields of control-space block 0x007. -/
def blockFields7 : List Fld :=
  [CTX_CMD_CONTEXT, CTX_CMD_SLOT, CTX_CMD, CTX_CMD_ARG_LO, CTX_CMD_ARG_HI, CTX_TC_FIRST, CTX_BUSY, CTX_RESULT, CTX_ERR_ITEM, CTX_SLOTS_BOUND, CTX_REBINDS, CTX_PAGE, CTX_SPACE, CTX_PAGE_OWNER, CTX_EVICTIONS, CTX_EVICT_MAX_US, CTX_S_CONTEXT, CTX_S_STATE, CTX_S_GUEST, CTX_S_ACTIVE_TABLE, CTX_S_STEP_OVERRANGE, CTX_S_STEP_ABORT, CTX_S_JOB, CTX_S_STEP_NO, CTX_S_SETS, CTX_S_LINK_SHARE, CTX_S_EXT_FIRST, CTX_S_EXT_BLOCKS, CTX_S_FAULT_STATUS, CTX_S_FAULT_SET, CTX_S_FAULT_VALID, CTX_S_RECORD_LO, CTX_S_RECORD_HI, CTX_S_LENDER_SLOT, CTX_S_LEND_VALID, CTX_S_LENT_NOW, CTX_S_LEND_BUBBLE, CTX_S_PAGES_A, CTX_S_PAGES_B, CTX_SET_MAP_A]
  ++ [CTX_SET_MAP_B]

/-- The fields of control-space block 0x00A. -/
def blockFields10 : List Fld :=
  [FRZ_CMD_SLOT, FRZ_CMD, FRZ_BUSY, FRZ_RESULT, FRZ_PROGRESS, FRZ_FREEZES_DONE, FRZ_FREEZE_FAILS, FRZ_PARITY_FAILS, FRZ_STALE_PARITY, FRZ_REBUILDS, FRZ_S_SLOT_BLOCKS, FRZ_S_PARITY_BLOCKS, FRZ_S_PARITY_SLOTS, FRZ_S_MEMBER0, FRZ_S_MEMBER1, FRZ_S_MEMBER2, FRZ_S_MEMBER3, FRZ_S_SELF, FRZ_S_STRIPE_VALID, FRZ_S_STAGE_ADDR_LO, FRZ_S_STAGE_ADDR_HI, FRZ_S_LAST_SEQ, FRZ_S_LAST_SLOT, FRZ_S_DRAIN_STATE, FRZ_S_PARITY_STATE, FRZ_S_QUEUED, FRZ_S_PROTECTED_SEQ, FRZ_S_DRAIN_BLOCKS, FRZ_S_WINDOWS_DONE]

/-- The fields of control-space block 0x010. -/
def blockFields16 : List Fld :=
  [ENC_JRN_SLOT, ENC_JRN_ENABLE, ENC_JRN_OFFSET, ENC_JRN_BLOCKS, ENC_JRN_STAGE_ADDR_LO, ENC_JRN_STAGE_ADDR_HI, ENC_WIT_ADDR_LO, ENC_WIT_ADDR_HI, ENC_WIT_COUNT, ENC_JRN_HEAD, ENC_OLDEST_STEP, ENC_NEWEST_STEP, ENC_JRN_STATE, ENC_OVERFLOW, ENC_INCOMPLETE, ENC_CFG_RESULT, ENC_STALL_US, ENC_RECORDS_LO, ENC_RECORDS_HI, ENC_REPLAY_FIRST, ENC_REPLAY_LAST, ENC_CMD, ENC_BUSY, ENC_RESULT, ENC_REPLAY_STATE, ENC_MISMATCH_STEP, ENC_MISMATCH_ATTEMPT, ENC_MISMATCH_UPDATE, ENC_MISMATCH_VALID, ENC_MISMATCH_WID, ENC_DIGESTS]

/-- The fields of control-space block 0x00F. -/
def blockFields15 : List Fld :=
  [MIS_PERMIT, MIS_ARM, MIS_FIRED_TOTAL, MIS_I_ENABLE, MIS_I_HOOK, MIS_I_VC_MASK, MIS_I_LANE, MIS_I_NOT_NEGOTIATED, MIS_I_INTERVAL, MIS_I_COUNT, MIS_I_BYTE, MIS_I_MASK, MIS_I_SYMBOLS, MIS_I_FIRED]

/-- The fields of control-space block 0x005. -/
def blockFields5 : List Fld :=
  [DCD_HEAD, DCD_TAIL, DCD_USED, DCD_FIRST_SEQ, DCD_NEXT_SEQ, DCD_DROPPED, DCD_DROP_PENDING, DCD_CLEAR_THROUGH, DCD_CURSOR, DCD_VIEW, DCD_SEEK_SEQ, DCD_SEEK_BUSY, DCD_SEEK_FOUND, DCD_LENGTH_AT_CURSOR, DCD_ARCH_SELECT, DCD_ARCH_BUSY, DCD_ARCH_RESULT, DCD_ARCH_COUNT, DCD_ARCH_LOADED, DCD_ARCH_FAILS, DCD_ARCH_BYTES, DCD_RECORDS_LO, DCD_RECORDS_HI]

/-- The fields of control-space block 0x006. -/
def blockFields6 : List Fld :=
  [HNG_AUTO_ESCALATE, HNG_LEVEL, HNG_BUSY, HNG_RESULT, HNG_SLOT, HNG_ENGINE_ID, HNG_RESET_LEVEL, HNG_RESET_SLOT, HNG_RESET_ENGINE, HNG_ENGINE_WD_US, HNG_CONTEXT_RESET_US, HNG_ENGINE_RESET_US, HNG_PARTITION_RESET_US, HNG_WARM_RESET_MS, HNG_DRAIN_US, HNG_HANG_CAPTURE_US, HNG_FM_NOTICE_US, HNG_ISOLATE_MS, HNG_BULK_PAGE_FIRST, HNG_BULK_PAGES, HNG_BULK_SEQ, HNG_FM_MODULE, HNG_FM_VALID, HNG_NOTICE_SEQ, HNG_NOTICE_ACK, HNG_NOTICE_PENDING, HNG_WATCHDOGS_FIRED, HNG_CONTEXT_RESETS, HNG_ENGINE_RESETS, HNG_PARTITION_RESETS, HNG_WARM_RESETS, HNG_ESCALATIONS, HNG_LATE_RESPONSES, HNG_NOTICES_LOST, HNG_UNATTRIBUTED, HNG_SUSPECTS, HNG_UNDER_TEST, HNG_TESTING, HNG_GUILTY_SLOT, HNG_GUILTY_VALID]
  ++ [HNG_CALLER_RESTARTS, HNG_FENCED_SLOTS, HNG_MODULE_FENCED, HNG_PWRCYC_REQ]

/-- The fields of control-space block 0x004. -/
def blockFields4 : List Fld :=
  [MBX_PCIE_UP, MBX_ETH_UP, MBX_MSIX_VECTORS, MBX_PCIE_ENABLE, MBX_HOST_DROPS, MBX_UNBOUND_RINGS, MBX_UNBOUND_WORDS, MBX_CAP_VALID, MBX_CAP_PORT, MBX_CAP_STATUS, MBX_CAP_OFFSET, MBX_W_CONTEXT, MBX_W_VALID, MBX_W_WRITABLE, MBX_W_BASE_LO, MBX_W_BASE_HI, MBX_C_CONTEXT, MBX_C_ROUTINE_SET, MBX_C_VALID, MBX_C_HOST, MBX_C_VECTOR, MBX_C_TIMEOUT_US, MBX_C_IN_WORD, MBX_C_OUT_HEAD, MBX_C_OUT_POP, MBX_C_TO_SET_COUNT, MBX_C_FROM_SET_COUNT, MBX_C_PENDING, MBX_C_TO_SET_TIMEOUT, MBX_C_FROM_SET_TIMEOUT, MBX_C_UNDERRUN, MBX_C_WORDS_IN, MBX_C_WORDS_OUT, MBX_D_CONTEXT, MBX_D_ROUTINE_SET, MBX_D_COUNTER, MBX_D_VALID, MBX_D_DIR, MBX_D_HOST, MBX_D_VECTOR]
  ++ [MBX_D_RING, MBX_D_COUNT, MBX_D_PENDING, MBX_K_ETH_STATE, MBX_K_MAC_LO, MBX_K_MAC_HI, MBX_K_MTU, MBX_K_FEC_CORRECTED, MBX_K_FEC_UNCORRECTABLE, MBX_K_RX_DROPS, MBX_K_RETRANSMITS, MBX_IPV6_PREFIX_LO, MBX_IPV6_PREFIX_HI, MBX_T_VALID, MBX_T_PORT, MBX_T_DEST_QPN, MBX_T_CONTEXT, MBX_T_DOORBELL, MBX_T_DB_VALID, MBX_T_INBOUND, MBX_T_DEST_IP, MBX_T_RKEY, MBX_T_START_PSN, MBX_T_REMOTE_BASE_LO, MBX_T_REMOTE_BASE_HI, MBX_T_REMOTE_LEN_LO, MBX_T_REMOTE_LEN_HI, MBX_T_LOCAL_BASE_LO, MBX_T_LOCAL_BASE_HI, MBX_T_LOCAL_PAGES, MBX_T_QP_STATE]

/-- The fields of control-space block 0x001. -/
def blockFields1 : List Fld :=
  [PWR_STATE_CMD, PWR_TRANSITION, PWR_RESULT, PWR_IDLE_EN, PWR_IDLE_US, PWR_THROTTLE_C, PWR_ALERT_C, PWR_HYSTERESIS_C, PWR_POWER_LIMIT_W, PWR_DROOP_HOLD_NS, PWR_LEVEL, PWR_ALERT, PWR_TRIPPED, PWR_TRIP_DIE, PWR_REF_OK, PWR_ROOT_LOCKED, PWR_D_JUNCTION, PWR_D_JUNCTION_MAX, PWR_S_STACK_TEMP, PWR_PLATE_IN, PWR_PLATE_OUT, PWR_VIN_MV, PWR_PIN_W, PWR_THROTTLE_US, PWR_DROOP_EVENTS, PWR_DROOP_US, PWR_CLOCK_LOSSES, PWR_IDLE_ENTRIES]

/-- The fields of control-space block 0x003. -/
def blockFields3 : List Fld :=
  [SEC_ATTEST_MODE, SEC_REPORT_CMD, SEC_BUSY, SEC_RESULT, SEC_CERT_LENGTH, SEC_NONCE, SEC_REPORT, SEC_DEVICE_PUBKEY, SEC_DEVICE_CERT]

/-- The fields of a 64 KiB block of the control space (R33); none for an unassigned block. -/
def blockFields (b : Nat) : List Fld :=
  match b with
  | 0 => blockFields0
  | 1 => blockFields1
  | 2 => blockFields2
  | 3 => blockFields3
  | 4 => blockFields4
  | 5 => blockFields5
  | 6 => blockFields6
  | 7 => blockFields7
  | 8 => blockFields8
  | 9 => blockFields9
  | 10 => blockFields10
  | 11 => blockFields11
  | 12 => blockFields12
  | 13 => blockFields13
  | 14 => blockFields14
  | 15 => blockFields15
  | 16 => blockFields16
  | _ => []

end Sys2Proof.Machine
end

