-- ==== Sys2Proof/Machine/State.lean ====
section
/-! DEFINITION. The state of the module as plain data: every piece of state the spec gives the machine, and the queue of
commands that wait. The word of every control-space register that is not computed from another field is held in `regs`,
a sparse map whose unlisted words read as their Default (Regs.lean); everything the registers do not show is held in
the structures below. INVENTORY.md lists each piece with its rule and its value at reset. -/

namespace Sys2Proof.Machine

/-! ### Access paths (R11 to R13) -/

/-- What one access path keeps: the latch and the held word of R11 as (address, value), the dance card cursor, view and
seek of R456 and R458, and the attestation nonce and report of R536. -/
structure PathState where
  latch        : Option (Nat × Word)
  held         : Option (Nat × Word)
  cursor       : Nat
  view         : Nat
  seek         : Option Nat
  seekFound    : Bool
  nonce        : List Word
  report       : List Byte
  signing      : Option (List Word)
  reportResult : Nat
deriving DecidableEq, Repr

/-- A path at its Defaults. -/
def PathState.init : PathState := ⟨none, none, 0, 0, none, false, List.replicate 16 0, [], none, 0⟩

/-- The access paths: the two PCIe ports, the Caller, and up to 16 fabric source modules (R13). -/
structure Paths where
  pcie0  : PathState
  pcie1  : PathState
  caller : PathState
  fabric : List (Nat × PathState)
deriving DecidableEq, Repr

/-- Every path at its Defaults, and no fabric entry taken. -/
def Paths.init : Paths := ⟨.init, .init, .init, []⟩

/-! ### Start, image and recovery hold (R38 to R70) -/

/-- A command that arrived while the module was starting and is held (R53). -/
inductive HeldCmd where
  | inWord (path : Path) (channel : Nat) (word : Word)
  | ring (path : Path) (doorbell : Nat) (value : Word)
deriving DecidableEq, Repr

/-- The staging buffer's verification in progress: what the checks found on the copy as it stood at VERIFY (the start
code, none for a copy that passes), and whether the copy has changed since (R65, R70). -/
structure Verifying where
  found   : Option Nat
  changed : Bool
deriving DecidableEq, Repr

/-- Start and recovery hold: the flash, the retained image copy with its digest, the CALLER_CYCLES at which each stage
began, the stages begun and the stages a warm reset skips (masks, bit k − 1), the staging buffer and its owner. -/
structure Boot where
  flash      : SMap Byte
  image      : List Byte
  digest     : List Byte
  stageStart : List Nat
  started    : Nat
  skipped    : Nat
  staging    : SMap Byte
  owner      : Option Path
  verifying  : Option Verifying
  programming : Bool
  heldWarm   : Bool
  held       : List HeldCmd
deriving DecidableEq, Repr

/-- What start found on one set (R57 to R59): retired; its arrays in service; the failed row of each array whose spare
row is in use; the same as the die's fuses hold it (R154). DEDUCED, log entry 10. -/
structure SetUnit where
  retired : Bool
  arrOk   : Nat
  spare   : List (Option Nat)
deriving DecidableEq, Repr

/-- A set with every array in service and no spare row in use. -/
def SetUnit.good : SetUnit := ⟨false, 0xF, [none, none, none, none]⟩

/-- The start results the Caller retains (R59, R229, R510): the units out of service, as masks, and the sets with a
finding; whether the training values, heater codes and matrices stored at the last start are held. -/
structure Units where
  dieBad    : Nat
  stackBad  : Nat
  pkgBad    : Nat
  engineBad : Nat
  sets      : SMap SetUnit
  trained   : Bool
deriving DecidableEq, Repr

/-- No finding. -/
def Units.init : Units := ⟨0, 0, 0, 0, [], false⟩

/-! ### The dance card (R450 to R464) -/

/-- A record: its SEQ and CYCLES (zero until accepted), SOURCE fields, context, step and body items (R450, R452). -/
structure Rec where
  seq    : Nat
  cycles : Nat
  type   : Nat
  plane  : Plane
  kind   : Nat
  unit   : Nat
  ctx    : Nat
  step   : Nat
  items  : List Nat
deriving DecidableEq, Repr

/-- A complete archive (R461). -/
structure Archive where
  reason  : Nat
  epoch   : Nat
  saveNo  : Nat
  modId   : Nat
  next    : Nat
  dropped : Nat
  cycles  : Nat
  recs    : List Rec
deriving DecidableEq, Repr

/-- The dance card: the records held from HEAD to TAIL, oldest first; the three planes' queues; the drop counts; the
eight archives, newest first, and the archive view. -/
structure Dcd where
  recs        : List Rec
  head        : Nat
  nextSeq     : Nat
  accepted    : Nat
  queueM      : List Rec
  queueC      : List Rec
  queueD      : List Rec
  dropped     : Nat
  dropPending : Nat
  dropFirst   : Nat
  dropLast    : Nat
  view        : List Rec
  loaded      : Nat
  loading     : Option Nat
  archResult  : Nat
  archFails   : Nat
deriving DecidableEq, Repr

/-- An empty card after a cold start. -/
def Dcd.init : Dcd := ⟨[], 0, 1, 0, [], [], [], 0, 0, 0, 0, [], 0, none, 0, 0⟩

/-! ### Hangs, fences and notices (R465 to R486) -/

/-- An unacknowledged notice: its number, the end-to-end number of its message (R278), its 40 bytes and how often it has been
sent (R482, R483). -/
structure Notice where
  seq   : Nat
  e2e   : Nat
  bytes : List Byte
  sends : Nat
deriving DecidableEq, Repr

/-- How far a reset has come: its hang capture runs, or it has begun. -/
inductive ResetPhase where
  | capturing | running
deriving DecidableEq, Repr

/-- A reset in progress (R471 to R478): level (1 context to 4 warm), slot, engine, the suspects, when it began, and
whether it only captures and records because AUTO_ESCALATE is 0 (R477). -/
structure ResetJob where
  level    : Nat
  slot     : Nat
  engine   : Nat
  suspects : Nat
  phase    : ResetPhase
  began    : Nat
  noStart  : Bool
  guilty   : Option Nat
deriving DecidableEq, Repr

/-- The escalation state: resets in progress (the one the registers show first), unacknowledged notices, the suspects
still to take their isolation turn, the engine under test, the times of Caller restarts, the resets of each slot since
binding and the slots' resume flags (R472). -/
structure Hng where
  jobs      : List ResetJob
  notices   : List Notice
  turns     : List Nat
  testEng   : Nat
  found     : Bool
  restarts  : List Nat
  resets    : SMap Nat
  updDone   : Nat
  updTorn   : Nat
  frzLost   : Nat
deriving DecidableEq, Repr

/-- No escalation. -/
def Hng.init : Hng := ⟨[], [], [], 0x3FFF, false, [], [], 0, 0, 0⟩

/-! ### Power, clocks and thermal (R510 to R527) -/

/-- Whether and how the module is powered (R514, R550, R551). -/
inductive PowerMode where
  | off        -- PWR_EN low, or unpowered
  | latched    -- after an undervoltage shutdown
  | powering   -- power-up has begun, PGOOD low
  | on         -- Run, Idle, start, warm reset or recovery hold
  | standby
  | dormant
deriving DecidableEq, Repr

/-- A power transition in progress: the target of STATE_CMD and the cause of its record. -/
inductive Transition where
  | toStandby | toRun | toDormant
deriving DecidableEq, Repr

/-- Power and thermal state that no register shows: the powered dies; the transition in progress; the thermal and power
levels each die has reached and takes at its next window (R521, R523); the dies paused by a throttle window and by a
droop (R522, R526); the droops since each die's last DROOP record and the CALLER_CYCLES of that record; and a wake that
arrived as Dormant was entered (R518). -/
structure Pwr where
  mode      : PowerMode
  diesOn    : Nat
  trans     : Option Transition
  oldState  : Nat
  thermal   : List Nat
  power     : Nat
  throttled : Nat
  drooping  : Nat
  droops    : List Nat
  droopRec  : List (Option Nat)
  wakeSoon  : Bool
deriving DecidableEq, Repr

/-- Power at time zero of a cold start: powered, no die up yet, nothing throttled. -/
def Pwr.init : Pwr := ⟨.on, 0, none, 0, [0, 0, 0, 0], 0, 0, 0, [0, 0, 0, 0], [none, none, none, none], false⟩

/-! ### Pins (R540 to R557) -/

/-- Whether the module is seated, and the levels of PWR_EN, PERSTk_N, SLOT_ID and PGOOD. ALERT_N and PWRCYC_REQ_N follow
the registers ALERT and PWRCYC_REQ; WAKE_N acts only as a low of 1 ms, which is a command (R555). -/
structure Pins where
  mated  : Bool
  pwrEn  : Bool
  perst0 : Bool
  perst1 : Bool
  slotId : Nat
  pgood  : Bool
deriving DecidableEq, Repr

/-! ### Management link (R528 to R533) -/

/-- A platform event: its number, content and how often it has been sent (R532). -/
inductive PldmEvent where
  | stateSensor (id old new : Nat)
  | threshold (id level : Nat)
  | oem (notice : List Byte)
deriving DecidableEq, Repr

/-- A PLDM firmware update in progress (R533). DEDUCED, log entry 39. -/
inductive FwPhase where
  | idle | requested | transferring | transferred | verified | applied
deriving DecidableEq, Repr

/-- The management link: the I3C dynamic address, the EID and TID once set, the event receiver, events awaiting
acknowledgement (number, event, sends), events held for polling, and the firmware update. -/
structure Mgmt where
  dynAddr  : Option Nat
  eid      : Nat
  tid      : Nat
  receiver : Option Nat
  sent     : List (Nat × PldmEvent × Nat)
  heldEv   : List (Nat × PldmEvent)
  nextEv   : Nat
  fw       : FwPhase
  fwSize   : Nat
  programmed : Bool
deriving DecidableEq, Repr

/-- Nothing assigned. -/
def Mgmt.init : Mgmt := ⟨none, 0, 0, none, [], [], 1, .idle, 0, false⟩

/-! ### Messages -/

/-- The PLDM commands of R530. -/
inductive PldmCmd where
  | getTID | setTID | getPLDMVersion | getPLDMTypes | getPLDMCommands
  | getSensorReading | getStateSensorReadings | setStateEffecterStates | getStateEffecterStates | getPDRRepositoryInfo
  | getPDR | setEventReceiver | platformEventMessage | pollForPlatformEventMessage
  | queryDeviceIdentifiers | getFirmwareParameters | requestUpdate | passComponentTable | updateComponent
  | requestFirmwareData | transferComplete | verifyComplete | applyComplete | activateFirmware | cancelUpdate
deriving DecidableEq, Repr

/-- An outbound RDMA operation of the service NIC (R506): a write or a read at a remote offset, with its packet sequence
number. -/
inductive RdmaOp where
  | write (psn : Nat) (offset : Nat) (bytes : List Byte)
  | read (psn : Nat) (offset length : Nat)
  | nak (psn : Nat)
deriving DecidableEq, Repr

/-- How a BAR2 read ends for the host (R490, R491, R493). -/
inductive HostReply where
  | data (bytes : List Byte)
  | completerAbort
  | unsupportedRequest
deriving DecidableEq, Repr



/-! ### Memory tiers and cache slices (R213 to R263) -/

/-- A request for one 64-byte line that waits at a memory channel (R220, R221): its class, its line, and whether it has
been promoted. -/
structure LineReq where
  cls      : Nat
  line     : Nat
  promoted : Bool
deriving DecidableEq, Repr

/-- One memory channel (R221): the requests that wait, oldest first; the grants of the current window of 64 and those
made from the class 3 reserve; whether the last grant was a promoted one. -/
structure Chan where
  queue        : List LineReq
  grants       : Nat
  used3        : Nat
  lastPromoted : Bool
deriving DecidableEq, Repr

/-- A channel with nothing waiting. -/
def Chan.init : Chan := ⟨[], 0, 0, false⟩

/-- Tiers A and B and the cache slices: the bytes; per line, what error its cells hold (1 correctable, 2 uncorrectable)
in DRAM and in the slice of tier A; the held-bad lines; corrected lines that await their write-back as (tier, line); the
units whose MEM_CE_HIGH record is written; the channels; the line patrol reads next (R228, R236); the check
accumulators of the slices (R260), by 64 × slice + group. -/
structure Mem where
  a          : SMap Byte
  b          : SMap Byte
  errA       : SMap Nat
  errB       : SMap Nat
  errS       : SMap Nat
  held       : SMap Bool
  writebacks : List (Nat × Nat)
  ceRecorded : SMap Bool
  chans      : SMap Chan
  patrol     : Nat
  checks     : SMap Nat
deriving DecidableEq, Repr

/-- Zeroed tiers with no error. -/
def Mem.init : Mem := ⟨[], [], [], [], [], [], [], [], [], 0, []⟩

/-- Who waits for a tier C write (R24): a promenade descriptor of a set (by its order number), the drain of a context slot,
the rest of the freeze engine (parity and rebuilds), or the journal. -/
inductive TcWaiter where
  | prom (set id : Nat)
  | drain (slot : Nat)
  | parity (slot : Nat)
  | journal
deriving DecidableEq, Repr

/-- A tier C write that is not yet programmed (R230): its first block, its bytes, and who waits for it. -/
structure TcWrite where
  block : Nat
  bytes : List Byte
  who   : TcWaiter
deriving DecidableEq, Repr

/-- Tier C (R230 to R234): the bytes of its blocks by 4096 × block + offset, the blocks that cannot be read (R232), the
writes in flight, oldest first, and whether the TIER_C_WEAR record is written. -/
structure TierC where
  bytes  : SMap Byte
  bad    : SMap Bool
  flying : List TcWrite
  warned : Bool
deriving DecidableEq, Repr

/-- A tier C never written. DESIGN CHOICE, log entry 9. -/
def TierC.init : TierC := ⟨[], [], [], false⟩

/-! ### Fabric (R264 to R285) -/

/-- What a request between modules asks (R275); the last is a freeze engine's read of another module's tier C (R427): blocks of
freeze slot 0 or 1, or of parity area 0 or 1 (areas 2 and 3), of the same context there. -/
inductive ReqOp where
  | load (n : Nat)
  | store (bytes : List Byte)
  | amo (func opnd cmp : Nat)
  | readBlock (n : Nat)
  | writeBlock (bytes : List Byte)
  | fill (pattern : Nat) (n : Nat)
  | windowAdd (expIndex : Nat) (wa : Bool) (srcFmt : Nat) (bytes : List Byte)
  | ctlLoad
  | ctlStore (v : Nat)
  | tcBlocks (area first n : Nat)
deriving DecidableEq, Repr

/-- Who waits for a request this module has sent: a set's load or atomic into a register with the access size, sign
extension and the instruction's address, a set's posted store or atomic with its context address, a promenade descriptor (by the order number of its
push) with the context address, a draining tile, or a restore, a rebuild or the repair of a block (R232) of the freeze engine. -/
inductive Waiter where
  | reg (set rd size : Nat) (sext : Bool) (pc : Nat)
  | posted (set : Nat)
  | prom (set id : Nat)
  | tile (set id : Nat)
  | restore (slot : Nat)
  | rebuild (slot : Nat)
  | repair (slot fslot block : Nat)
deriving DecidableEq, Repr

/-- A request this module has sent and that awaits its response or acknowledgement (R276, R278, R282), with the key of
its RESPONSE record (R439). -/
structure Sent where
  dest   : Nat
  vc     : Nat
  seq    : Nat
  ctx    : Nat
  addr   : Nat
  op     : ReqOp
  waiter : Waiter
  key    : Nat
deriving DecidableEq, Repr

/-- The response of a request (R280): its status and data, for the response store. -/
structure Resp where
  seq    : Nat
  status : Nat
  data   : List Byte
deriving DecidableEq, Repr

/-- A request that has arrived (R273, R278): its source, VC, number, context, place and what it asks. -/
structure Arrival where
  src   : Nat
  vc    : Nat
  seq   : Nat
  ctx   : Nat
  space : Nat
  off   : Nat
  op    : ReqOp
deriving DecidableEq, Repr

/-- What a destination keeps per source module and VC (R280): the highest number accepted, as a count that does not
wrap, the numbers recorded within the window with their responses, and whether its FABRIC_STALE record is written. -/
structure RxPair where
  top   : Option Nat
  got   : List Resp
  stale : Bool
deriving DecidableEq, Repr

/-- A pair nothing has arrived on. -/
def RxPair.init : RxPair := ⟨none, [], false⟩

/-- The fabric state: the four translation caches, most recently used entry first, as (slot, span entry); per
8 × destination + VC the next sequence number; per destination the EPOCH last learnt; the pairs closed, as (context,
8 × destination + VC); the requests outstanding; per 8 × source + VC the receive record; the requests a context's drain ended
with ABORTED, whose late responses are counted (R470); and the arrivals on VC0 and VC4 to VC7 that wait for a missing
number (R339). -/
structure Fab where
  xlate  : List (List (Nat × List Byte))
  txSeq  : SMap Nat
  epochs : SMap Nat
  closed : List (Nat × Nat)
  sent   : List Sent
  rx     : SMap RxPair
  gone   : List Sent
  held   : List Arrival
deriving DecidableEq, Repr

/-- Nothing sent or received. -/
def Fab.init : Fab := ⟨[[], [], [], []], [], [], [], [], [], [], []⟩

/-! ### Sets (R71 to R102, R141 to R195) -/

/-- What a set is doing (STATE of R102). -/
inductive SetRun where
  | unbound | idle | running | waiting | stopped | inReset
deriving DecidableEq, Repr

/-- A stall inside a mailbox instruction (R128): MSEND of a word to a full queue, or MRECV into a register.
DEDUCED, log entry 111. -/
inductive Stall where
  | msend (channel : Nat) (word : Nat)
  | mrecv (channel : Nat) (rd : Nat)
deriving DecidableEq, Repr

/-- A tile or fused sequence in a queue (R78, R124): its 64 bytes, the set that pushed it and the local address it was
pushed from, for a fused sequence the body length and the context address of the body, and after a fault or a hard
pre-emption the first row not yet drained of each block that is to be redone (R99, R169). DEDUCED, log entry 103. -/
structure Tile where
  id    : Nat
  desc  : List Byte
  owner : Nat
  addr  : Nat
  body  : Option (Nat × Nat)
  redo  : Option (SMap Nat)
deriving DecidableEq, Repr

/-- A tile that runs: the blocks not yet dealt to an array with the first row each is to drain (R79, R169), the worst
status met, and the array on which it failed, so that nothing more of it runs. -/
structure TileRun where
  tile   : Tile
  left   : List (Nat × Nat)
  status : Nat
  failed : Option Nat
deriving DecidableEq, Repr

/-- What a stationary bank is loaded with (R145): address, format, transpose, for MX where its scales lie, and for FP32
which piece (R162). DEDUCED, log entry 100. -/
structure BankKey where
  addr  : Nat
  fmt   : Nat
  xpose : Bool
  scale : Nat
  low   : Bool
deriving DecidableEq, Repr

/-- A loaded stationary block: its key and its elements (k, n) at 64 k + n as patterns of its format, with the 64 scales
of an MX format. -/
structure Bank where
  key    : BankKey
  elems  : List Nat
  scales : List Nat
deriving DecidableEq, Repr

/-- The activity ramp of an array (R152, R153). -/
inductive Ramp where
  | idle | up | active | down
deriving DecidableEq, Repr

/-- A block on an array: the running tile by its order number, the block number, its rows, and the next row to drain. -/
structure Blk where
  tile  : Nat
  block : Nat
  rows  : Nat
  next  : Nat
deriving DecidableEq, Repr

/-- One matrix array (R149 to R153): the accumulator bank by 64 × row + column, as W48 patterns; the block its passes
belong to and how many of its rows have entered in the pass in progress; the block whose passes are over and whose rows
drain; its ramp. -/
structure Arr where
  acc     : SMap Nat
  cur     : Option Blk
  entered : Nat
  drain   : Option Blk
  ramp    : Ramp
deriving DecidableEq, Repr

/-- An array with nothing in progress. -/
def Arr.init : Arr := ⟨[], none, 0, none, .idle⟩

/-- The pass in progress on a set (R145, R192): the running tile, the K-step, for FP32 which of the three passes, and
whether its stationary block is in the active bank, so that rows may enter. -/
structure Pass where
  tile  : Nat
  kstep : Nat
  sub   : Nat
  begun : Bool
deriving DecidableEq, Repr

/-- A fused sequence in progress (R188 to R195): producer and consumer (by order number), the body words and where they
lie, rows per run, the runs in all, the run and body position, the rows forwarded and not yet taken by row number, the
rows taken, the rows given, the format and length of a given row, and the entry copies of the vector registers and
predicates. -/
structure Fused where
  producer : Nat
  consumer : Option Nat
  body     : List (BitVec 64)
  bodyAddr : Nat
  takes    : Nat
  runs     : Nat
  run      : Nat
  pos      : Nat
  ready    : SMap (List Nat)
  taken    : Nat
  given    : List (List Nat)
  giveFmt  : Nat
  giveLen  : Nat
  entryV   : SMap Word
  entryP   : SMap (BitVec 128)
deriving DecidableEq, Repr

/-- A promenade descriptor that holds a slot (R136, R138): its order number, its 64 bytes, the local address it was
pushed from, whether it has started; the row and the position in it of the next block (for REDUCE_WRITE the addend row);
the bytes of that block read so far and how many of them are written; its status, whether that status ends it, and the
unit a stopping status names. -/
structure Prom where
  id      : Nat
  desc    : List Byte
  addr    : Nat
  started : Bool
  row     : Nat
  pos     : Nat
  buf     : List Byte
  put     : Nat
  status  : Nat
  ending  : Bool
  source  : Nat
deriving DecidableEq, Repr

/-- The first stopping fault of a set (R101, R102). -/
structure SetFault where
  status : Nat
  source : Nat
  array  : Nat
  owner  : Nat
  addr   : Nat
deriving DecidableEq, Repr

/-- One set: its binding; its scalar, vector and predicate registers and counters; set memory with the words in
error (1 single-bit, 2 double-bit); its tile queue, tiles that run and promenade slots; its crew; its arrays and
stationary banks; its fault; its wait and stall; its pre-emption; its fused sequence and function tables; the
CALLER_CYCLES at which it was bound; the bubble it is in with the address behind its BUBBLE and, on a lent set, the owner's slot and its counters in the
second bank, with whether it is to be evicted (R405, R406). DESIGN CHOICE, log entry 158. -/
structure SetState where
  slot       : Nat
  routine    : Nat
  run        : SetRun
  regs       : SMap (BitVec 64)
  pc         : BitVec 64
  v          : SMap Word
  p          : SMap (BitVec 128)
  c          : SMap (BitVec 64)
  mem        : SMap Byte
  err        : SMap Nat
  queue      : List Tile
  tiles      : List TileRun
  proms      : List Prom
  nextId     : Nat
  crewId     : Nat
  crewSize   : Nat
  crewIndex  : Nat
  cutin      : Bool
  crew       : List Nat
  frozen     : Bool
  taken      : Nat
  given      : Nat
  eccFixed   : Nat
  arrs       : List Arr
  active     : Option Bank
  shadow     : Option Bank
  pass       : Option Pass
  arrFaults  : List Nat
  fault      : Option SetFault
  wait       : Option (Nat × BitVec 64)
  stall      : Option Stall
  soft       : Bool
  hard       : Bool
  atPoint    : Bool
  fused      : Option Fused
  tabs       : SMap Byte
  loaded     : Nat
  boundAt    : Nat
  bubble     : Option (Nat × Nat)
  lentFrom   : Option Nat
  ownerC     : SMap (BitVec 64)
  evict      : Bool
deriving DecidableEq, Repr

/-- An unbound set with everything zero. -/
def SetState.init : SetState where
  slot := 0
  routine := 0x3FF
  run := .unbound
  regs := []
  pc := 0
  v := []
  p := []
  c := []
  mem := []
  err := []
  queue := []
  tiles := []
  proms := []
  nextId := 0
  crewId := 0x3FF
  crewSize := 0
  crewIndex := 0
  cutin := false
  crew := []
  frozen := false
  taken := 0
  given := 0
  eccFixed := 0
  arrs := [Arr.init, Arr.init, Arr.init, Arr.init]
  active := none
  shadow := none
  pass := none
  arrFaults := [0, 0, 0, 0]
  fault := none
  wait := none
  stall := none
  soft := false
  hard := false
  atPoint := false
  fused := none
  tabs := []
  loaded := 0
  boundAt := 0
  bubble := none
  lentFrom := none
  ownerC := []
  evict := false


/-! ### Rounds (R362 to R392) -/

/-- A round or freeze descriptor in its queue (R385, R412): its 64 bytes, the local address and the set it was pushed from,
the slot of its context, and the context's step number at the push. -/
structure RoundDesc where
  desc : List Byte
  addr : Nat
  set  : Nat
  slot : Nat
  step : Nat
deriving DecidableEq, Repr

/-- The name of a chunk within a round: the kind of its stage (0 reduce, 1 gather, 2 broadcast, 3 count exchange), axis, ring
step and chunk number. -/
structure ChunkId where
  kind  : Nat
  axis  : Nat
  stepT : Nat
  chunk : Nat
deriving DecidableEq, Repr

/-- A chunk's content in transport format: its data, its trailer, and its flag NOCHECK. -/
structure ChunkData where
  data    : List Byte
  trailer : Nat
  nocheck : Bool
deriving DecidableEq, Repr

/-- A round in progress: its descriptor; the stages as (kind, axis) and the current one; how many chunks of the stage have
been sent, and how many received and placed; the counts known, by member; the slots granted so far by the successor of
each stage (4 × PHASE + axis); the messages of chunks that are arriving; the blocks held in transport format with their
NOCHECK flags; the chunks placed that a later step forwards; the chunks kept for a resend; the chunks asked for again; the
comparisons of chunks released early that are to finish, with their outcome; and the worst status. -/
structure RoundRun where
  desc     : RoundDesc
  stages   : List (Nat × Nat)
  stage    : Nat
  sent     : Nat
  got      : Nat
  counts   : SMap Nat
  slots    : SMap Nat
  arriving : List (ChunkId × List (List Byte))
  vals     : SMap (List Byte × Bool)
  ready    : List (ChunkId × ChunkData)
  kept     : List (ChunkId × ChunkData)
  resent   : List ChunkId
  late     : List (ChunkId × Bool)
  status   : Nat
deriving DecidableEq, Repr

/-- A group of the round table: the words written to its shadow since the last commit (R364); the waiting descriptors; the
round in progress; and the messages held for a later round, stage or version, with their source module. -/
structure Group where
  shadow  : SMap Word
  queue   : List RoundDesc
  run     : Option RoundRun
  heldP   : List (Nat × List Byte)
deriving DecidableEq, Repr

/-- A group with nothing queued. -/
def Group.init : Group := ⟨[], [], none, []⟩

/-! ### Encore (R433 to R445) -/

/-- A journal record (R438, R439). -/
structure JRec where
  type    : Nat
  attempt : Nat
  flags   : Nat
  step    : Nat
  ordinal : Nat
  key     : Nat
  addr    : Nat
  data    : List Byte
deriving DecidableEq, Repr

/-- The journal engine: whether the current attempt is journalled; its number, the next ordinal and the UPDATEs counted in
it; whether it is incomplete, and whether its recording has stopped for want of room; the records staged, oldest first, and
the bytes written that do not yet fill a block; the steps the ring holds, oldest first, as (step, blocks); the next remote
request number of each routine set; and the records of a replay not yet consumed, with whether the context has reached its
first step. -/
structure Enc where
  active     : Bool
  attempt    : Nat
  ordinal    : Nat
  updates    : Nat
  incomplete : Bool
  stopped    : Bool
  staged     : List JRec
  tail       : List Byte
  held       : List (Nat × Nat)
  reqNo      : SMap Nat
  replay     : Option (List JRec)
  reached    : Bool
deriving DecidableEq, Repr

/-- Journal off, nothing staged. -/
def Enc.init : Enc := ⟨false, 0, 0, 0, false, false, [], [], [], [], none, false⟩

/-! ### Contexts (R393 to R410) -/

/-- A command of the CTX block in progress (R394, R400): REBIND or RELEASE, its slot, its list, and the sets that are still to
reach their pre-emption point. -/
structure CtxJob where
  cmd    : Nat
  slot   : Nat
  list   : List (List Byte)
  moving : List Nat
deriving DecidableEq, Repr

/-- What a bound slot holds beyond its registers: the admission record as read at ADMIT (its 128 bytes), the set map
(routine set to physical set), the import, bubble and crew tables' entries, the exponent directory and the set bitmap as
read at binding, the routine sets that have ever run, the sets saved by a switch (R402, R405) by routine set number, and whether the first
out-of-range addend since the flag was last cleared has been recorded (R199), whether a STEP has been issued since binding,
the journalling bit of the current step (R436), and whether the context has faulted and nothing further happens
until a reset or a RELEASE names the slot (R481). -/
structure Slot where
  record  : List Byte
  setMap  : SMap Nat
  imports : List (List Byte)
  bubbles : List (List Byte)
  crews   : List (List Byte)
  bitmap  : Nat
  expDir  : List (Nat × Nat)
  started : List Nat
  saved   : SMap SetState
  overRec : Bool
  stepped : Bool
  jbit    : Bool
  faulted : Bool
deriving DecidableEq, Repr

/-- A free slot. -/
def Slot.init : Slot := ⟨[], [], [], [], [], 0, [], [], [], false, false, false, false⟩

/-- The context tables: the slots, the owner of each page of tiers A and B (page number to context), the pages fenced by
a re-binding (page, plus 2^20 in tier B), the command in progress. -/
structure Ctx where
  slots  : SMap Slot
  ownerA : SMap Nat
  ownerB : SMap Nat
  fenced : SMap Bool
  job    : Option CtxJob
deriving DecidableEq, Repr

/-! ### Host and service ports (R487 to R509) -/

/-- A mailbox channel's queues, oldest first, and its held word (R495 to R497). -/
structure Channel where
  toSet   : List Word
  fromSet : List Word
  held    : Option Word
deriving DecidableEq, Repr

/-- An empty channel. -/
def Channel.init : Channel := ⟨[], [], none⟩

/-- An outbound RDMA operation that awaits its acknowledgement (R506, R507): channel, packet sequence number, and what
waits for it. -/
structure RdmaPending where
  channel : Nat
  psn     : Nat
  slot    : Nat
  op      : RdmaOp
deriving DecidableEq, Repr

/-- The host and service ports: channels, outstanding RDMA operations, next PSN of each storage channel, and the rate
reduction in force on each queue pair (R505). -/
structure Mbx where
  channels : SMap Channel
  rdma     : List RdmaPending
  psn      : SMap Nat
  slowed   : SMap Nat
deriving DecidableEq, Repr

/-! ### The freeze engine (R204 to R212, R411 to R433) -/

/-- An UPDATE in progress (R202, R207): its descriptor; whether it runs (0), or only zeroes the accumulators for OVERRANGE
(1) or ABORTED (2); its enabled entries as (number, 128 bytes, scale) from the one it has reached on, with the next block of
that entry; the status it completes with; and whether it has written a block. -/
structure Upd where
  desc   : RoundDesc
  mode   : Nat
  left   : List (Nat × List Byte × Nat)
  block  : Nat
  status : Nat
  wrote  : Bool
deriving DecidableEq, Repr

/-- A FREEZE in progress (R416): its descriptor, freeze slot and SEQ, the directory entries and the data blocks, and the parts
on their way, as (tier C block, context address, bytes). -/
structure Drain where
  desc    : RoundDesc
  fslot   : Nat
  seq     : Nat
  entries : Nat
  blocks  : Nat
  parts   : List (Nat × Nat × Nat)
deriving DecidableEq, Repr

/-- A window of a member's own parity row that is granted (R422): the parts heard, as (member, block in the window). -/
structure ParWindow where
  window : Nat
  heard  : List (Nat × Nat)
deriving DecidableEq, Repr

/-- A parity phase (R422): the freeze slot and SEQ, the windows granted as holder and not yet complete, the next window to
grant, the windows stamped, and the windows still to be contributed, as (row, window). -/
structure Parity where
  fslot   : Nat
  seq     : Nat
  granted : List ParWindow
  next    : Nat
  stamped : List Nat
  owe     : List (Nat × Nat)
deriving DecidableEq, Repr

/-- An EXPORT in progress (R425): its descriptor, and the worst status met. -/
structure Exporting where
  desc   : RoundDesc
  status : Nat
deriving DecidableEq, Repr

/-- How far the first piece of a RESTORE is (R427): its source's header is read next, its directory entry, or, with that
entry, one of its parts. -/
inductive PieceAt where
  | header
  | directory
  | part (k : Nat) (entry : List Byte)
deriving DecidableEq, Repr

/-- A RESTORE in progress (R427): its descriptor, the pieces still to load (48 bytes each), how far the first one is, and
the status that has ended it. -/
structure Restore where
  desc   : RoundDesc
  pieces : List (List Byte)
  at_    : PieceAt
  status : Nat
deriving DecidableEq, Repr

/-- A REBUILD in progress (R428): its stage (0 reads the survivors' headers, 1 the thirds of the slot, 2 those of the parity
row, 3 is over); the SEQ and the freeze slot once known; the blocks read, as (member, area, first block, bytes), where a
header that is not complete has no bytes; the header to be written last; and the status that has ended it. -/
structure Rebuild where
  stage  : Nat
  seq    : Nat
  fslot  : Nat
  got    : List (Nat × Nat × Nat × List Byte)
  header : List Byte
  status : Nat
deriving DecidableEq, Repr

/-- What waits for the repair of an unreadable block of a freeze slot (R232): the RESTORE, a read another module asked for
(source, VC6 number, area, first block, blocks), the EXPORT, or a contribution to a parity window of a row. -/
inductive RepairFor where
  | restore
  | serve (src seq area first n : Nat)
  | exporting
  | part (row seq window : Nat)
deriving DecidableEq, Repr

/-- A block under repair (R232): its freeze slot, its number in the slot, what the three partners have sent, and what
waits for it. -/
structure Repair where
  fslot : Nat
  block : Nat
  got   : List (List Byte)
  use   : RepairFor
deriving DecidableEq, Repr

/-- The freeze engine's state for a context slot: waiting descriptors, oldest first (R412), the work in progress, the
repairs, grants that have arrived before the parity phase they belong to as (row, SEQ, window), and the SEQ of the last
FREEZE that started (R418). -/
structure FrzSlot where
  queue   : List RoundDesc
  update  : Option Upd
  drain   : Option Drain
  parity  : Option Parity
  exporting : Option Exporting
  restore : Option Restore
  rebuild : Option Rebuild
  repairs : List Repair
  grants  : List (Nat × Nat × Nat)
  seq     : Nat
deriving DecidableEq, Repr

/-- Nothing queued. -/
def FrzSlot.init : FrzSlot := ⟨[], none, none, none, none, none, none, [], [], 0⟩

/-! ### What the module drives outwards -/

/-- The answer of a PLDM or MCTP request: its content, in the terms of R529 to R533. -/
inductive Reply where
  | ok
  | error
  | notReady
  | unsupported
  | retryRequestUpdate
  | invalidData
  | eid (eid : Nat)
  | mctpVersion (msgType : Nat)
  | messageTypes (types : List Nat)
  | tid (tid : Nat)
  | version (pldmType : Nat)
  | types (ts : List Nat)
  | commands (cs : List PldmCmd)
  | reading (sensor : Nat) (value : Int)
  | stateReading (sensor state : Nat)
  | effecterState (effecter state : Nat)
  | pdrInfo (records : Nat)
  | pdr (handle id : Nat) (next : Nat)
  | event (num : Nat) (ev : PldmEvent)
  | noEvent
  | provisionalId (low : Nat)
  | device (vendor : Nat) (serial : Nat)
  | firmware (classification version : Nat)
  | component (classification : Nat)
  | report (bytes : List Byte)
deriving DecidableEq, Repr

/-- What leaves the module, in the order it does: read data to an access path, MSI-X messages, management answers and
events, notices to the fabric manager, messages to other modules, lane and datagram traffic. -/
inductive Out where
  | readData (path : Path) (addr value : Nat)
  | msix (port vector : Nat)
  | reply (r : Reply)
  | event (num : Nat) (ev : PldmEvent)
  | firmwareRequest (offset length : Nat)
  | notice (dest : Nat) (bytes : List Byte)
  | flit (lane : Nat) (bytes : List Byte) (symbols : Nat)
  | datagram (port : Nat) (dest : Nat) (bytes : List Byte)
  | rdma (channel : Nat) (op : RdmaOp)
  | hostReply (port : Nat) (r : HostReply)
  | request (dest vc seq epoch ctx space offset : Nat) (op : ReqOp)
  | round (dest vc : Nat) (header : List Byte) (data : List Byte)
  | response (dest vc : Nat) (ack : Bool) (ctx seq status epoch : Nat) (data : List Byte)
  | parityGrant (dest ctx seq window : Nat)
  | parityPart (dest ctx seq window block : Nat) (bytes : List Byte)
deriving DecidableEq, Repr


/-! ### Optical engines (R286 to R310) -/

/-- What the engines keep beyond the OPT registers: the engines whose ports are held dark by a fence, and those whose comb
is at temperature (masks); the lanes whose fine lock is complete and that settle, as 2 × lane + direction (1 receive); the
heater demand of each ring by 16 × bank + slot, the bank 3 × port + 0 to 2 (R293); the words written to the matrix
shadows since their last commit, by word (R296); and the engines with a temperature reading since the last reset. -/
structure Opt where
  dark     : Nat
  hot      : Nat
  settling : List Nat
  demand   : SMap Nat
  shadow   : SMap Word
  sampled  : Nat
deriving DecidableEq, Repr

/-- Engines off and cold. -/
def Opt.init : Opt := ⟨0, 0, [], [], [], 0⟩

/-! ### Links (R311 to R343) -/

/-- A flit without the fields the link fills in (R327). DESIGN CHOICE, log entry 18. -/
structure Flit where
  vc      : Nat
  ftype   : Nat
  dest    : Nat
  src     : Nat
  e2e     : Nat
  epoch   : Nat
  som     : Bool
  eom     : Bool
  hops    : Nat
  payload : List Byte
deriving DecidableEq, Repr

/-- What one link keeps beyond its registers: the aligned lanes as (slot, the partner's transmit slot); the lanes removed
under R335; the last HELLO heard on each slot, and the one the link was judged on; the lanes the partner hears; whether
the partner's ACCEPT is in; whether the expected partner has greeted since the handoff or the last DOWN, and whether it is
missing (R322); the flits that wait, by VC; the kept flits by LSEQ; the replay in progress, as where it started and the
LSEQs still to send; the replays since an LACK advanced; the LSEQ expected next; a NAK that is due, and whether one has been
sent since the last accepted flit; credits held, and credits owed to the partner, by VC, with the VC whose turn it is
(R337); the flits each VC has sent in the current round (R338); for a message being forwarded from here, by VC, the link it
goes out on; the flit that a REORDER hook holds, with its injector and LSEQ (R447); and the receive lanes named in this
module's own ACCEPT (R317). -/
structure Link where
  aligned  : List (Nat × Nat)
  removed  : Nat
  hello    : SMap (List Byte)
  judged   : List Byte
  heard    : Nat
  accepted : Bool
  greeted  : Bool
  missing  : Bool
  queues   : SMap (List Flit)
  kept     : List (Nat × Flit)
  replay   : Option (Nat × List Nat)
  inRow    : Nat
  expect   : Nat
  nakDue   : Bool
  nakked   : Bool
  credits  : SMap Nat
  owed     : SMap Nat
  turn     : Nat
  round    : SMap Nat
  relays   : SMap Nat
  reorder  : Option (Nat × Nat × Flit)
  told     : Nat
deriving DecidableEq, Repr

/-- A link nothing has happened on. -/
def Link.init : Link :=
  ⟨[], 0, [], [], 0, false, false, false, [], [], none, 0, 0, false, false, [], [], 0, [], [], none, 0⟩

/-- The link layer: the links by lowest lane; the messages that leave the module and are not yet on a link, oldest first,
with their end-to-end numbers; whether start has handed the ports to link bring-up (R60); the eligible flits each misstep
injector has counted (R447); flits discarded for HOPS since the last LINK_HOPS record, and when that was written (R341); and
the transmit lanes a drawing has retuned and that are not yet enabled or retired (R352). -/
structure Links where
  links    : SMap Link
  outbox   : List (Nat × Out)
  handed   : Bool
  eligible : SMap Nat
  hopsLost : Nat
  hopsAt   : Option Nat
  retuned  : List Nat
deriving DecidableEq, Repr

/-- Nothing handed over. -/
def Links.init : Links := ⟨[], [], false, [], 0, none, []⟩


/-! ### The machine -/

/-- The state of the module and of its command queue. -/
structure State where
  /-- the commands that wait, first in first out -/
  pending : List Instr
  /-- what the module has driven outwards, newest first -/
  out : List Out
  /-- the register words that differ from their Defaults (R7) -/
  regs : SMap Word
  /-- CALLER_CYCLES: CALLCLK cycles since cold start (R36) -/
  callerCycles : Nat
  /-- the model's own count of the free values taken (assumption DESIGN CHOICE, log entry 3) -/
  free : Nat
  /-- EPOCH, kept by the tier C controller (R281) -/
  epoch : Nat
  /-- the key hashes fused in customer slots 1 to 4; empty while blank (R45) -/
  keys : List (List Byte)
  /-- the revocation fuses of slots 1 to 4 (R48) -/
  revoked : Nat
  /-- the test-privilege bits of slots 1 to 4 (R47) -/
  testPriv : Nat
  /-- the access paths (R12) -/
  paths : Paths
  /-- start and recovery hold -/
  boot : Boot
  /-- the retained start results (R59) -/
  units : Units
  /-- the dance card -/
  dcd : Dcd
  /-- the complete archives in tier C, newest first (R460) -/
  archives : List Archive
  /-- saves since manufacture (R461) -/
  saveNo : Nat
  /-- hangs, resets and notices -/
  hng : Hng
  /-- power and thermal state -/
  pwr : Pwr
  /-- the low-speed signals -/
  pins : Pins
  /-- the management link -/
  mgmt : Mgmt
  /-- the context tables -/
  ctx : Ctx
  /-- the host and service ports -/
  mbx : Mbx
  /-- tiers A and B and the cache slices -/
  mem : Mem
  /-- tier C -/
  tierC : TierC
  /-- the fabric: translation, numbering, outstanding requests -/
  fab : Fab
  /-- the sets that are not at SetState.init, by physical number -/
  sets : SMap SetState
  /-- the round groups (R362) -/
  groups : SMap Group
  /-- the journal and replay (R433) -/
  enc : Enc
  /-- the freeze engine, by context slot (R412) -/
  frz : SMap FrzSlot
  /-- the optical engines -/
  opt : Opt
  /-- the link layer -/
  links : Links
deriving DecidableEq, Repr

/-- Why the machine stops with a fault. -/
inductive Fault where
  /-- Raised by a command that puts the module outside its operating conditions, where R6 specifies no behaviour (an
  input voltage above the absolute maximum of R548). Safe: the hardware may do anything there. -/
  | outsideOperatingConditions
deriving DecidableEq, Repr

/-- Why a command is refused. -/
inductive Refusal where
  /-- Raised by the dispatch arm of a command that has no meaning yet. Safe: nothing is claimed of it. -/
  | notModelled (mnemonic : String)
deriving DecidableEq, Repr

/-- The answer of a step. -/
abbrev Res := Host.Outcome State Fault Refusal

/-- The module at time zero of a cold start (R49): PGOOD has just risen, CALLER_BOOT runs, every register holds its
Default but CFG.STAGE, which names the stage that runs. What the spec leaves open here is in the assumption log:
the straps, the flash content, the tier C start count and the customer fuses. -/
def State.reset : State where
  pending := []
  out := []
  regs := [(0x20000, 1#32), (0x70100, 0x20000#32), (0x90218, 0x640000#32)]
  callerCycles := 0
  free := 0
  epoch := 1
  keys := [[], [], [], []]
  revoked := 0
  testPriv := 0
  paths := Paths.init
  boot := ⟨[], [], [], List.replicate 12 0, 1, 0, [], none, none, false, false, []⟩
  units := Units.init
  dcd := Dcd.init
  archives := []
  saveNo := 0
  hng := Hng.init
  pwr := Pwr.init
  pins := ⟨true, true, false, false, 0, true⟩
  mgmt := Mgmt.init
  ctx := ⟨[], [], [], [], none⟩
  mbx := ⟨[], [], [], []⟩
  mem := Mem.init
  tierC := TierC.init
  fab := Fab.init
  sets := []
  groups := []
  enc := Enc.init
  frz := []
  opt := Opt.init
  links := Links.init

end Sys2Proof.Machine
end

