-- ==== Sys2Proof/Machine/Ops.lean ====
section
/-! DEFINITION. The shared operations over the state: register fields, free values, access paths, dance card records,
MSI-X messages, platform events and notices. Every family uses these and nothing beside them to touch a register,
a record queue or the outside. -/

namespace Sys2Proof.Machine

/-- The completion status codes of R18. -/
inductive Status where
  | done | fenced | timeout | access | uncorrectable | checkFail | order | aborted | overrange | peerLost | version
  | illegal | noResource
deriving DecidableEq, Repr

/-- The number of a completion status (R18). -/
def Status.num : Status → Nat
  | .done => 0x00 | .fenced => 0x01 | .timeout => 0x02 | .access => 0x03 | .uncorrectable => 0x04 | .checkFail => 0x05
  | .order => 0x06 | .aborted => 0x07 | .overrange => 0x08 | .peerLost => 0x09 | .version => 0x0A | .illegal => 0x0B
  | .noResource => 0x0C

/-- The status of a number; a reserved code is read as ABORTED, a failure, as R19 asks. -/
def Status.ofNum : Nat → Status
  | 0x00 => .done | 0x01 => .fenced | 0x02 => .timeout | 0x03 => .access | 0x04 => .uncorrectable | 0x05 => .checkFail
  | 0x06 => .order | 0x07 => .aborted | 0x08 => .overrange | 0x09 => .peerLost | 0x0A => .version | 0x0B => .illegal
  | 0x0C => .noResource | _ => .aborted

/-- Whether a status stops a set (R101). -/
def Status.stops : Status → Bool
  | .illegal | .access | .uncorrectable | .timeout => true
  | _ => false

/-! ### Register words and fields -/

/-- The Default of the word at a control-space address. -/
def regDefault (a : Nat) : Nat := wordDefault (blockFields (a / 0x10000)) a

/-- The word at a control-space address. -/
def State.word (s : State) (a : Nat) : Nat :=
  match s.regs.find a with
  | some w => w.toNat
  | none => regDefault a

/-- The state with the word at a control-space address replaced. -/
def State.putWord (s : State) (a w : Nat) : State :=
  { s with regs := s.regs.put (BitVec.ofNat 32 (regDefault a)) a (BitVec.ofNat 32 w) }

/-- The value of a copy of a field. -/
def State.getF (s : State) (f : Fld) (i j : Nat) : Nat := f.get (s.word (f.addr i j))

/-- The state with a copy of a field set. -/
def State.setF (s : State) (f : Fld) (i j v : Nat) : State := s.putWord (f.addr i j) (f.set (s.word (f.addr i j)) v)

/-- The value of a field that is not repeated. -/
def State.get (s : State) (f : Fld) : Nat := s.getF f 0 0

/-- The state with a field that is not repeated set. -/
def State.set (s : State) (f : Fld) (v : Nat) : State := s.setF f 0 0 v

/-- The largest value of a field. -/
def Fld.top (f : Fld) : Nat := 2 ^ (f.hi + 1 - f.lo) - 1

/-- Raises a copy of a counting field, which saturates. -/
def State.sat (s : State) (f : Fld) (i j n : Nat) : State := s.setF f i j (min f.top (s.getF f i j + n))

/-- Raises a copy of a counting field, which wraps. -/
def State.wrap (s : State) (f : Fld) (i j n : Nat) : State := s.setF f i j ((s.getF f i j + n) % (f.top + 1))

/-- The 64-bit value of a pair of words (R11). -/
def State.get64 (s : State) (lo hi : Fld) (i : Nat) : Nat := s.getF lo i 0 + 2 ^ 32 * s.getF hi i 0

/-- Sets the 64-bit value of a pair of words. -/
def State.set64 (s : State) (lo hi : Fld) (i v : Nat) : State := (s.setF lo i 0 (v % 2 ^ 32)).setF hi i 0 (v / 2 ^ 32)

/-- Raises a 64-bit count, which wraps. -/
def State.wrap64 (s : State) (lo hi : Fld) (i n : Nat) : State := s.set64 lo hi i ((s.get64 lo hi i + n) % 2 ^ 64)

/-- Sets or clears one bit of a field that holds a mask. -/
def State.setBit (s : State) (f : Fld) (i j b : Nat) (v : Bool) : State :=
  s.setF f i j (let m := s.getF f i j
    if v then m ||| 2 ^ b else m - (m &&& 2 ^ b))

/-- The word after a reset of a level through its fields (R15 to R17). -/
def resetWord (l : Level) (e : Nat × Word) : Nat × Word :=
  (e.1, BitVec.ofNat 32 (wordReset (blockFields (e.1 / 0x10000)) l e.1 e.2.toNat))

/-- Every register word after a reset of the whole module at a level: each field keeps its value or takes its
Default as its Kept through entry says. -/
def resetRegs (l : Level) (m : SMap Word) : SMap Word :=
  (m.map (resetWord l)).filter fun e => decide (e.2 ≠ BitVec.ofNat 32 (regDefault e.1))

/-! ### Free values -/

/-- The next free value and the state that has taken it (DESIGN CHOICE, log entry 3). -/
def State.takeFree (s : State) : BitVec 64 × State := (Config.freeValue s.free, { s with free := s.free + 1 })

/-! ### Phase and power -/

/-- MOD.PHASE reads ready. -/
def State.ready (s : State) : Bool := decide (s.get MOD_PHASE = 1)
/-- MOD.PHASE reads starting or warm reset in progress (R53). -/
def State.starting (s : State) : Bool := decide (s.get MOD_PHASE = 0 ∨ s.get MOD_PHASE = 3)
/-- MOD.PHASE reads recovery hold. -/
def State.inHold (s : State) : Bool := decide (s.get MOD_PHASE = 2)
/-- A die is powered. -/
def State.dieOn (s : State) (d : Nat) : Bool := bit s.pwr.diesOn d
/-- The Caller is powered: in every state from Run to Standby (R514). -/
def State.callerOn (s : State) : Bool := decide (s.pwr.mode = .on ∨ s.pwr.mode = .standby)
/-- The fuses as VERIFY and PARSE see them. DESIGN CHOICE, log entry 8. -/
def State.fuses (s : State) : Fuses := ⟨Config.vendorKeyHash :: s.keys, s.revoked, s.testPriv⟩
/-- The number of a path in CFG.OWNER (R69). -/
def pathCode : Path → Nat
  | .pcie0 => 1 | .pcie1 => 2 | .fabric _ => 3 | .caller => 4

/-! ### Access paths (R12, R13) -/

/-- The entry of a fabric source module, if it holds one. DEDUCED, log entry 14. -/
def fabricEntry : List (Nat × PathState) → Nat → Option PathState
  | [], _ => none
  | (k, p) :: m, a => if k = a then some p else fabricEntry m a

/-- Whether a path has its state, or may take a free entry (R13). -/
def State.pathOk (s : State) (p : Path) : Bool :=
  match p with
  | .fabric m => (fabricEntry s.paths.fabric m.toNat).isSome || decide (s.paths.fabric.length < 16)
  | _ => true

/-- The state of a path; a fabric source without an entry reads as a fresh one. -/
def State.path (s : State) (p : Path) : PathState :=
  match p with
  | .pcie0 => s.paths.pcie0
  | .pcie1 => s.paths.pcie1
  | .caller => s.paths.caller
  | .fabric m => (fabricEntry s.paths.fabric m.toNat).getD PathState.init

/-- Stores an entry of a fabric source module, taking a free one where it has none. -/
def putEntry : List (Nat × PathState) → Nat → PathState → List (Nat × PathState)
  | [], a, p => [(a, p)]
  | (k, q) :: m, a, p => if k = a then (k, p) :: m else (k, q) :: putEntry m a p

/-- The state with a path's state replaced. -/
def State.setPath (s : State) (p : Path) (x : PathState) : State :=
  match p with
  | .pcie0 => { s with paths := { s.paths with pcie0 := x } }
  | .pcie1 => { s with paths := { s.paths with pcie1 := x } }
  | .caller => { s with paths := { s.paths with caller := x } }
  | .fabric m => { s with paths := { s.paths with fabric := putEntry s.paths.fabric m.toNat x } }

/-- A control-space access of a path takes its entry (R13). -/
def State.touchPath (s : State) (p : Path) : State := s.setPath p (s.path p)

/-! ### Outward -/

/-- Drives one item outwards. -/
def State.emitOut (s : State) (o : Out) : State := { s with out := o :: s.out }

/-- Takes the next end-to-end number of the pair with a destination on a VC (R278). -/
def State.e2e (s : State) (dest vc : Nat) : Nat × State :=
  let n := s.fab.txSeq.get 0 (8 * dest + vc)
  (n, { s with fab := { s.fab with txSeq := s.fab.txSeq.put 0 (8 * dest + vc) ((n + 1) % 65536) } })

/-- Hands a numbered message to the forwarding stage. -/
def State.post (s : State) (n : Nat) (o : Out) : State :=
  let s1 := s.emitOut o
  { s1 with links := { s1.links with outbox := s1.links.outbox ++ [(n, o)] } }

/-- Numbers a message to a destination on a VC and hands it to the forwarding stage. DESIGN CHOICE, log entry 19. -/
def State.postMsg (s : State) (dest vc : Nat) (o : Out) : State :=
  let (n, s1) := s.e2e dest vc
  s1.post n o

/-- Sends an MSI-X message (R493, R494): only vector 0 until ready, nothing for a vector at or above MSIX_VECTORS or
on a port whose link is down. DESIGN CHOICE, log entry 15. -/
def State.msix (s : State) (port vector : Nat) : State :=
  if bit (s.get MBX_PCIE_UP) port && (decide (vector = 0) || (s.ready && decide (vector < s.get MBX_MSIX_VECTORS)))
  then s.emitOut (.msix port vector) else s

/-- Sends vector 0 of each port (R494). -/
def State.vector0 (s : State) : State := (s.msix 0 0).msix 1 0

/-! ### Contexts by slot -/

/-- The slot that holds a context, among slots that are not free. -/
def State.slotOf (s : State) (ctx : Nat) : Option Nat :=
  (List.range 32).find? fun i => decide (s.getF CTX_S_STATE i 0 ≠ 0 ∧ s.getF CTX_S_CONTEXT i 0 = ctx)

/-- The step number of a context, 0 for none (R450). -/
def State.stepOf (s : State) (ctx : Nat) : Nat :=
  match s.slotOf ctx with
  | some i => s.getF CTX_S_STEP_NO i 0
  | none => 0

/-! ### Dance card records (R450 to R455) -/

/-- The length of a record in bytes: header, items, padding and CRC (R450). -/
def Rec.length (r : Rec) : Nat := 40 + 8 * r.items.length

/-- The bytes a list of records holds. -/
def recsBytes (rs : List Rec) : Nat := rs.foldl (fun n r => n + r.length) 0

/-- The number of a plane in a record header (R450). -/
def planeNum : Plane → Nat
  | .management => 0 | .control => 1 | .data => 2

/-- Counts one dropped record (R455). -/
def State.dropRecord (s : State) : State :=
  { s with dcd := { s.dcd with
      dropped := min (2 ^ 32 - 1) (s.dcd.dropped + 1), dropPending := min (2 ^ 32 - 1) (s.dcd.dropPending + 1),
      dropFirst := if s.dcd.dropPending = 0 then s.callerCycles else s.dcd.dropFirst, dropLast := s.callerCycles } }

/-- The queue of a plane. -/
def Dcd.queue (d : Dcd) : Plane → List Rec
  | .management => d.queueM
  | .control => d.queueC
  | .data => d.queueD

/-- Queues a record on its plane, or drops it when the plane's 64 places are taken (R454, R455). -/
def State.queueRec (s : State) (r : Rec) : State :=
  if 64 ≤ (s.dcd.queue r.plane).length then s.dropRecord else
  match r.plane with
  | .management => { s with dcd := { s.dcd with queueM := s.dcd.queueM ++ [r] } }
  | .control => { s with dcd := { s.dcd with queueC := s.dcd.queueC ++ [r] } }
  | .data => { s with dcd := { s.dcd with queueD := s.dcd.queueD ++ [r] } }

/-- Writes a record: type, plane, kind and unit of its source, context, body items (R450, R453). -/
def State.emit (s : State) (type : Nat) (plane : Plane) (kind unit ctx : Nat) (items : List Nat) : State :=
  s.queueRec ⟨0, 0, type, plane, kind, unit, ctx, s.stepOf ctx, items.map (· % 2 ^ 64)⟩

/-- The next SEQ after one (R454). -/
def nextSeq (n : Nat) : Nat := if n + 1 ≥ 2 ^ 32 then 1 else n + 1

/-- The SEQ `k` numbers on. -/
def seqPlus (n : Nat) : Nat → Nat
  | 0 => n
  | k + 1 => nextSeq (seqPlus n k)

/-- The SEQ that the record queued last on a plane takes when the records are accepted in the order of R28 and none
is dropped (DEDUCED, log entry 12). -/
def State.lastSeq (s : State) (p : Plane) : Nat :=
  let m := s.dcd.queueM.length
  let c := s.dcd.queueC.length
  let d := s.dcd.queueD.length
  let n := match p with
    | .management => m
    | .control => m + c
    | .data => m + c + d
  seqPlus s.dcd.nextSeq ((if s.dcd.dropPending = 0 then 0 else 1) + (n - 1))

/-! The record types named by the chapters (R452, R537). -/

/-- Record type DROP_NOTE (R452). -/
def RT_DROP_NOTE : Nat := 0x0001
/-- Record type START_FAIL (R452). -/
def RT_START_FAIL : Nat := 0x0010
/-- Record type START_RETIRE (R452). -/
def RT_START_RETIRE : Nat := 0x0011
/-- Record type START_SKIP (R452). -/
def RT_START_SKIP : Nat := 0x0012
/-- Record type CREW_REJECT (R452). -/
def RT_CREW_REJECT : Nat := 0x0020
/-- Record type SET_FAULT (R452). -/
def RT_SET_FAULT : Nat := 0x0021
/-- Record type ARRAY_FAULT (R452). -/
def RT_ARRAY_FAULT : Nat := 0x0022
/-- Record type ARRAY_RETIRE (R452). -/
def RT_ARRAY_RETIRE : Nat := 0x0023
/-- Record type OVERRANGE (R452). -/
def RT_OVERRANGE : Nat := 0x0030
/-- Record type UPDATE_FAULT (R452). -/
def RT_UPDATE_FAULT : Nat := 0x0031
/-- Record type TABLE_EXHAUSTED (R452). -/
def RT_TABLE_EXHAUSTED : Nat := 0x0032
/-- Record type MEM_CE_HIGH (R452). -/
def RT_MEM_CE_HIGH : Nat := 0x0040
/-- Record type MEM_UE (R452). -/
def RT_MEM_UE : Nat := 0x0041
/-- Record type MEM_UNIT_LOST (R452). -/
def RT_MEM_UNIT_LOST : Nat := 0x0042
/-- Record type TIER_C_WEAR (R452). -/
def RT_TIER_C_WEAR : Nat := 0x0043
/-- Record type TIER_C_READONLY (R452). -/
def RT_TIER_C_READONLY : Nat := 0x0044
/-- Record type MSC_UE (R452). -/
def RT_MSC_UE : Nat := 0x0045
/-- Record type FABRIC_STALE (R452). -/
def RT_FABRIC_STALE : Nat := 0x0050
/-- Record type FABRIC_TIMEOUT (R452). -/
def RT_FABRIC_TIMEOUT : Nat := 0x0051
/-- Record type OPT_ENGINE_FAIL (R452). -/
def RT_OPT_ENGINE_FAIL : Nat := 0x0060
/-- Record type OPT_MISLOCK (R452). -/
def RT_OPT_MISLOCK : Nat := 0x0061
/-- Record type OPT_LOCK_LOST (R452). -/
def RT_OPT_LOCK_LOST : Nat := 0x0062
/-- Record type OPT_LANE_RETIRE (R452). -/
def RT_OPT_LANE_RETIRE : Nat := 0x0063
/-- Record type OPT_PORT_HELD (R452). -/
def RT_OPT_PORT_HELD : Nat := 0x0064
/-- Record type LINK_UP (R452). -/
def RT_LINK_UP : Nat := 0x0070
/-- Record type LINK_DOWN (R452). -/
def RT_LINK_DOWN : Nat := 0x0071
/-- Record type LINK_WRONG_PARTNER (R452). -/
def RT_LINK_WRONG_PARTNER : Nat := 0x0072
/-- Record type LINK_SWAPPED (R452). -/
def RT_LINK_SWAPPED : Nat := 0x0073
/-- Record type LINK_EXTRA (R452). -/
def RT_LINK_EXTRA : Nat := 0x0074
/-- Record type LINK_MISSING (R452). -/
def RT_LINK_MISSING : Nat := 0x0075
/-- Record type LINK_MODE_MISMATCH (R452). -/
def RT_LINK_MODE_MISMATCH : Nat := 0x0076
/-- Record type LINK_VERSION (R452). -/
def RT_LINK_VERSION : Nat := 0x0077
/-- Record type LINK_NARROW (R452). -/
def RT_LINK_NARROW : Nat := 0x0078
/-- Record type LINK_HOPS (R452). -/
def RT_LINK_HOPS : Nat := 0x0079
/-- Record type ROUND_CHECK_FAIL (R452). -/
def RT_ROUND_CHECK_FAIL : Nat := 0x0080
/-- Record type ROUND_ORDER (R452). -/
def RT_ROUND_ORDER : Nat := 0x0081
/-- Record type ROUND_PEER_LOST (R452). -/
def RT_ROUND_PEER_LOST : Nat := 0x0082
/-- Record type CTX_REJECT (R452). -/
def RT_CTX_REJECT : Nat := 0x0090
/-- Record type FREEZE_FAIL (R452). -/
def RT_FREEZE_FAIL : Nat := 0x00A0
/-- Record type FREEZE_PARITY_FAIL (R452). -/
def RT_FREEZE_PARITY_FAIL : Nat := 0x00A1
/-- Record type FREEZE_REBUILD_FAIL (R452). -/
def RT_FREEZE_REBUILD_FAIL : Nat := 0x00A2
/-- Record type ENC_REPLAY_DONE (R452). -/
def RT_ENC_REPLAY_DONE : Nat := 0x00B0
/-- Record type ENC_MISMATCH (R452). -/
def RT_ENC_MISMATCH : Nat := 0x00B1
/-- Record type ENC_DIVERGE (R452). -/
def RT_ENC_DIVERGE : Nat := 0x00B2
/-- Record type WATCHDOG (R452). -/
def RT_WATCHDOG : Nat := 0x00C0
/-- Record type HANG (R452). -/
def RT_HANG : Nat := 0x00C1
/-- Record type FENCE (R452). -/
def RT_FENCE : Nat := 0x00C2
/-- Record type FENCE_LIFT (R452). -/
def RT_FENCE_LIFT : Nat := 0x00C3
/-- Record type RESET_DONE (R452). -/
def RT_RESET_DONE : Nat := 0x00C4
/-- Record type RESET_TIMEOUT (R452). -/
def RT_RESET_TIMEOUT : Nat := 0x00C5
/-- Record type GUILTY (R452). -/
def RT_GUILTY : Nat := 0x00C6
/-- Record type POWER_STATE (R452). -/
def RT_POWER_STATE : Nat := 0x00D0
/-- Record type THROTTLE (R452). -/
def RT_THROTTLE : Nat := 0x00D1
/-- Record type THERMAL_ALERT (R452). -/
def RT_THERMAL_ALERT : Nat := 0x00D2
/-- Record type THERMAL_TRIP (R452). -/
def RT_THERMAL_TRIP : Nat := 0x00D3
/-- Record type DROOP (R452). -/
def RT_DROOP : Nat := 0x00D4
/-- Record type CLOCK_LOSS (R452). -/
def RT_CLOCK_LOSS : Nat := 0x00D5
/-- Record type CALLER_RESTART (R452). -/
def RT_CALLER_RESTART : Nat := 0x00D6
/-- Record type PLDM_UPDATE (R452). -/
def RT_PLDM_UPDATE : Nat := 0x00D7
/-- Record type ATTEST (R452). -/
def RT_ATTEST : Nat := 0x00D8
/-- Record type HOST_LINK (R452). -/
def RT_HOST_LINK : Nat := 0x00D9

/-- A record of the module itself, management plane (kind 0, unit 0). -/
def State.emitMod (s : State) (type : Nat) (items : List Nat) : State := s.emit type .management 0 0 0 items

/-- A record of the Caller, management plane (kind 11). -/
def State.emitCaller (s : State) (type : Nat) (items : List Nat) : State :=
  s.emit type .management 11 0 0 items

/-! ### Platform events and notices (R482, R483, R532) -/

/-- Raises a platform event: sent to the receiver, or held for polling, the older ones discarded beyond 64 (R532). -/
def State.raiseEvent (s : State) (ev : PldmEvent) : State :=
  let n := s.mgmt.nextEv
  match s.mgmt.receiver with
  | some _ => ({ s with mgmt := { s.mgmt with sent := s.mgmt.sent ++ [(n, ev, 1)], nextEv := n + 1 } }).emitOut (.event n ev)
  | none =>
    let h := s.mgmt.heldEv ++ [(n, ev)]
    { s with mgmt := { s.mgmt with heldEv := h.drop (h.length - 64), nextEv := n + 1 } }

/-- Changes MOD.PHASE; vector 0 is sent and state sensor 101 reports when it changes (R494, R531, R532). -/
def State.setPhase (s : State) (p : Nat) : State :=
  if s.get MOD_PHASE = p then s
  else ((s.set MOD_PHASE p).vector0).raiseEvent (.stateSensor 101 (s.get MOD_PHASE + 1) (p + 1))

/-- Changes MOD.POWER; vector 0 is sent and state sensor 100 reports when it changes (R494, R531, R532). -/
def State.setPower (s : State) (p : Nat) : State :=
  if s.get MOD_POWER = p then s
  else ((s.set MOD_POWER p).vector0).raiseEvent (.stateSensor 100 (s.get MOD_POWER + 1) (p + 1))

/-- The kinds of notice of R482. -/
inductive NoticeKind where
  | watchdog | hang | resetDone | escalation | guilty | contextFault | fabricTimeout | roundMemberLost | parityFailed
  | linkMissing | memoryLost | powerCycle
deriving DecidableEq, Repr

/-- The KIND of a notice (R482). -/
def NoticeKind.num : NoticeKind → Nat
  | .watchdog => 1 | .hang => 2 | .resetDone => 3 | .escalation => 4 | .guilty => 5 | .contextFault => 6
  | .fabricTimeout => 7 | .roundMemberLost => 8 | .parityFailed => 9 | .linkMissing => 10 | .memoryLost => 11
  | .powerCycle => 12

/-- The 40 bytes of a notice (R482). -/
def noticeBytes (kind : NoticeKind) (status level seq modId ctx job step dcdSeq engine slot epoch item : Nat) : List Byte :=
  toBytes 1 0x40 ++ toBytes 1 kind.num ++ toBytes 1 status ++ toBytes 1 level ++ toBytes 4 seq ++ toBytes 2 modId
  ++ toBytes 2 ctx ++ toBytes 4 job ++ toBytes 4 step ++ toBytes 4 dcdSeq ++ toBytes 2 engine ++ toBytes 1 slot
  ++ toBytes 1 epoch ++ toBytes 4 item ++ toBytes 8 0

/-- Sends a notice, on VC0 while FM_VALID is 1, with its platform event and vector 0 (R482, R494). A notice numbered
while FM_VALID is 0 is not sent and awaits no acknowledgement (DEDUCED, log entry 13). DEDUCED, log entry 115. -/
def State.notify (s : State) (kind : NoticeKind) (status level slot engine item dcdSeq : Nat) : State :=
  let seq := s.get HNG_NOTICE_SEQ
  let ctx := s.getF CTX_S_CONTEXT slot 0
  let b := noticeBytes kind status level seq (s.get FAB_MODULE_ID) ctx (s.getF CTX_S_JOB slot 0) (s.getF CTX_S_STEP_NO slot 0)
    dcdSeq engine slot s.epoch item
  let s1 := (s.set HNG_NOTICE_SEQ (nextSeq seq)).raiseEvent (.oem b)
  let s2 := if s.get HNG_FM_VALID = 1 then
      let (n, s2) := s1.e2e (s.get HNG_FM_MODULE) 0
      let ns := s2.hng.notices ++ [Notice.mk seq n b 1]
      (({ s2 with hng := { s2.hng with notices := ns } }).set HNG_NOTICE_PENDING (min 65535 ns.length)).post n
        (.notice (s.get HNG_FM_MODULE) b)
    else s1
  s2.vector0

/-! ### Resets in progress (R477, R478, R486) -/

/-- LEVEL, BUSY, SLOT and ENGINE_ID show the oldest reset in progress. -/
def State.showJobs (s : State) : State :=
  match s.hng.jobs.find? fun j => !j.noStart with
  | some j => (((s.set HNG_LEVEL j.level).set HNG_BUSY 1).set HNG_SLOT j.slot).set HNG_ENGINE_ID j.engine
  | none => (s.set HNG_LEVEL (if s.get HNG_PWRCYC_REQ = 1 then 5 else 0)).set HNG_BUSY 0

/-- The state with the resets in progress replaced. -/
def State.putJobs (s : State) (js : List ResetJob) : State := { s with hng := { s.hng with jobs := js } }.showJobs

/-- A cause of R477 begins its capture; while AUTO_ESCALATE is 0 it only captures and records. -/
def State.causeReset (s : State) (level slot engine suspects : Nat) (guilty : Option Nat) : State :=
  s.putJobs (s.hng.jobs ++ [ResetJob.mk level slot engine suspects .capturing s.callerCycles (decide (s.get HNG_AUTO_ESCALATE = 0)) guilty])

/-! ### Outcomes -/

/-- A command that completes. -/
def ok (s : State) : Res := .next s

/-- Applies a change when a condition holds. -/
def State.when (s : State) (b : Bool) (f : State → State) : State := if b then f s else s

end Sys2Proof.Machine
end

