-- ==== Sys2Proof/Machine/Reach.lean ====
section
/-! DEFINITION. Which control-space addresses an access path reaches (R35, R52, R64, R262, R310, R345, R361, R493).
An address that is not reached behaves as an unassigned one (R10). -/

namespace Sys2Proof.Machine

/-- Whether context 0 admits a source module to a space: loads and stores alike (R274). -/
def State.ctx0Admits (s : State) (src space : Nat) : Bool :=
  let v := imgValue s.boot.image 0x0A
  (List.range (v.length / 8)).any fun i =>
    decide (leAt v (8 * i + 2) 2 ≠ 0 ∧ leAt v (8 * i) 2 ≤ src ∧ src < leAt v (8 * i) 2 + leAt v (8 * i + 2) 2)
      && bit (leAt v (8 * i + 4) 1) space

/-- Whether a path is up: a PCIe port while the die that carries it is powered (R21, R35), the fabric while the module is
ready and for the sources context 0 admits (R34), the Caller in every state from Run to Standby. -/
def State.pathUp (s : State) : Path → Bool
  | .pcie0 => decide (s.pwr.mode = .on) && s.dieOn 0
  | .pcie1 => decide (s.pwr.mode = .on) && s.dieOn 3
  | .fabric m => decide (s.pwr.mode = .on) && s.ready && s.ctx0Admits m.toNat 2
  | .caller => s.callerOn

/-- Whether the die that an address needs is powered: per-set windows, port and link registers (R35, R310, R345), cache
slices in service (R262). -/
def State.unitUp (s : State) (a : Nat) : Bool :=
  let off := a % 0x10000
  if 0x1000000 ≤ a then s.dieOn ((a - 0x1000000) / 0x10000 / 192)
  else match a / 0x10000 with
  | 0x08 => decide (off / 0x1000 < 12) && !bit s.units.stackBad (off / 0x1000)
  | 0x0C =>
    if 0x4000 ≤ off ∧ off < 0x7000 then s.dieOn ((off - 0x4000) / 0x40 / 16 / 3)
    else if 0x1000 ≤ off ∧ off < 0x1300 then s.dieOn ((off - 0x1000) / 0x40 / 3) else true
  | 0x0D =>
    if 0x1000 ≤ off ∧ off < 0x1C00 then s.dieOn ((off - 0x1000) / 0x100 / 3)
    else if 0x8000 ≤ off ∧ off < 0xC800 then s.dieOn ((off - 0x8000) / 0x200 / 9) else true
  | _ => true

/-- Whether a path reaches a control-space address. DEDUCED, log entry 76. -/
def State.reaches (s : State) (p : Path) (a : Nat) : Bool :=
  s.pathUp p &&
  (match a / 0x10000 with
   | 0x00 | 0x02 | 0x05 => true
   | 0x01 | 0x03 | 0x06 => decide (p = .caller) || s.ready
   | _ => s.ready && decide (s.pwr.mode = .on) && s.unitUp a)

/-- A control-space access of a path at an address: it takes the path's entry (R13; without a free one the access has no
effect), and acts where the path reaches the address. -/
def State.via (s : State) (p : Path) (a : Nat) (f : State → State) : State :=
  if !(s.pathUp p && s.pathOk p) then s
  else if s.reaches p a then f (s.touchPath p) else s.touchPath p

end Sys2Proof.Machine
end

