-- ==== Sys2Proof/Machine/DanceCard.lean ====
section
/-! DEFINITION. The dance card (R450 to R464): the bytes of a record, the write port, the window, seeks, clears, the
archive and its view, and the commands of the DCD block. -/

namespace Sys2Proof.Machine

/-- The size of the ring in bytes (R454). -/
def cardSize : Nat := 16777216

/-- The bytes of a record: header, items, padding, CRC (R450, R451). -/
def Rec.bytes (r : Rec) : List Byte :=
  let b := toBytes 2 r.length ++ toBytes 2 r.type ++ toBytes 4 r.seq ++ toBytes 8 r.cycles
    ++ toBytes 4 (planeNum r.plane + r.kind * 4 + r.unit * 256) ++ toBytes 2 r.ctx ++ toBytes 2 0 ++ toBytes 4 r.step
    ++ toBytes 4 0 ++ r.items.flatMap (toBytes 8) ++ toBytes 4 0
  b ++ toBytes 4 (crc32c b)

/-- The byte at a distance from the first record of a list; zero beyond them. -/
def recsByte : List Rec → Nat → Byte
  | [], _ => 0
  | r :: rs, d => if d < r.length then r.bytes.getD d 0 else recsByte rs (d - r.length)

/-- The bytes held (DCD.USED). -/
def Dcd.used (d : Dcd) : Nat := recsBytes d.recs
/-- DCD.TAIL. -/
def Dcd.tail (d : Dcd) : Nat := (d.head + d.used) % cardSize
/-- DCD.FIRST_SEQ, zero when empty. -/
def Dcd.firstSeq (d : Dcd) : Nat := match d.recs with | [] => 0 | r :: _ => r.seq

/-- A byte of the chosen view at a ring offset (R456, R462). -/
def State.cardByte (s : State) (view off : Nat) : Byte :=
  if view = 0 then recsByte s.dcd.recs ((off % cardSize + cardSize - s.dcd.head) % cardSize)
  else recsByte s.dcd.view (off % cardSize)

/-- A word of the window of a path (R456). -/
def State.cardWindow (s : State) (p : Path) (w : Nat) : Nat :=
  let x := s.path p
  ofBytes ((List.range 4).map fun i => s.cardByte x.view (x.cursor + w + i))

/-- Whether a record is of a kind that sets MOD.FAULT (R561). -/
def Rec.isFault (r : Rec) : Bool :=
  decide (r.type = RT_SET_FAULT ∨ r.type = RT_TABLE_EXHAUSTED ∨ r.type = RT_ENC_MISMATCH ∨ r.type = RT_ENC_DIVERGE
    ∨ (r.type = RT_GUILTY ∧ r.items.headD 0xFF ≠ 0xFF) ∨ (r.type = RT_START_RETIRE ∧ r.items.headD 0 = 1)
    ∨ r.type = RT_ARRAY_RETIRE ∨ r.type = RT_OPT_LANE_RETIRE ∨ r.type = RT_OPT_ENGINE_FAIL ∨ r.type = RT_MEM_UNIT_LOST)

/-- MOD.FAULT (R561). -/
def State.faultBit (s : State) : Bool := s.dcd.recs.any Rec.isFault

/-- The port accepts a record: the next SEQ, CALLER_CYCLES at acceptance, TAIL past it (R454). -/
def State.acceptRec (s : State) (r : Rec) : State :=
  let taken := { r with seq := s.dcd.nextSeq, cycles := s.callerCycles }
  let s1 := { s with dcd := { s.dcd with
      recs := s.dcd.recs ++ [taken], nextSeq := nextSeq s.dcd.nextSeq, accepted := (s.dcd.accepted + 1) % 2 ^ 64 } }
  if r.isFault && !s.faultBit then s1.vector0 else s1

/-- Takes the record the port serves next: management plane, then control, then data (R28). -/
def State.takeRec (s : State) : Option (Rec × State) :=
  match s.dcd.queueM, s.dcd.queueC, s.dcd.queueD with
  | r :: m, _, _ => some (r, { s with dcd := { s.dcd with queueM := m } })
  | [], r :: c, _ => some (r, { s with dcd := { s.dcd with queueC := c } })
  | [], [], r :: d => some (r, { s with dcd := { s.dcd with queueD := d } })
  | [], [], [] => none

/-- The DROP_NOTE of the drops that await it (R455). -/
def Dcd.dropNote (d : Dcd) : Rec := ⟨0, 0, RT_DROP_NOTE, .management, 11, 0, 0, 0, [d.dropPending, d.dropFirst, d.dropLast]⟩

/-- One CALLCLK cycle of the Caller: CALLER_CYCLES rises, and the port accepts a DROP_NOTE or one queued record, or drops
the record when it does not fit (R454, R455). -/
def State.callclk (s : State) : State :=
  if !s.callerOn then s else
  let s1 := { s with callerCycles := (s.callerCycles + 1) % 2 ^ 64 }
  if s1.dcd.dropPending ≠ 0 ∧ s1.dcd.used + 64 ≤ cardSize then
    let s2 := s1.acceptRec s1.dcd.dropNote
    { s2 with dcd := { s2.dcd with dropPending := 0 } }
  else match s1.takeRec with
  | none => s1
  | some (r, s2) => if s2.dcd.used + r.length ≤ cardSize then s2.acceptRec r else s2.dropRecord

/-- Frees held records up to a SEQ (R459). -/
def Dcd.clear (d : Dcd) (n : Nat) : Dcd :=
  match d.recs with
  | [] => d
  | r :: _ =>
    if n < r.seq then d
    else
      let kept := if d.nextSeq ≤ n then [] else d.recs.dropWhile fun x => decide (x.seq ≤ n)
      { d with recs := kept, head := (d.head + (d.used - recsBytes kept)) % cardSize }

/-- The first held record of a list with SEQ n or higher, with its distance from the first. -/
def seekIn : List Rec → Nat → Nat → Option Nat
  | [], _, _ => none
  | r :: rs, n, d => if n ≤ r.seq then some d else seekIn rs n (d + r.length)

/-- Whether tier C takes a save (R460): it is mounted and not read-only. In Standby the Caller powers its controller for the
save; there its spare blocks tell whether it is read-only (R234). DEDUCED, log entry 156. -/
def State.cardWritable (s : State) : Bool :=
  if s.pwr.mode = .standby then decide (2 < s.get MEM_SPARE_LEFT) else decide (s.get MEM_C_STATE = 1)

/-- Copies the held records over the oldest of the eight archives (R460, R461); without a tier C that can be written,
ARCH_FAILS rises instead. -/
def State.archiveSave (s : State) (reason : Nat) : State :=
  if !s.cardWritable then
    { s with dcd := { s.dcd with archFails := min (2 ^ 32 - 1) (s.dcd.archFails + 1) } }
  else
    let a : Archive := ⟨reason, s.epoch, s.saveNo + 1, s.get FAB_MODULE_ID, s.dcd.nextSeq, s.dcd.dropped, s.callerCycles,
      s.dcd.recs⟩
    let blocks := 1 + (recsBytes s.dcd.recs + 4095) / 4096
    let s1 := { s with archives := (a :: s.archives).take 8, saveNo := s.saveNo + 1 }
    s1.set64 MEM_C_PROG_LO MEM_C_PROG_HI 0 ((s1.get64 MEM_C_PROG_LO MEM_C_PROG_HI 0 + blocks) % 2 ^ 64)

/-! ### Meanings -/

/-- RECORD_ACCEPT (R454, R455): one CALLCLK cycle of the write port. -/
def execRecordAccept (s : State) : Res := ok s.callclk

/-- The effect of a write to CLEAR_THROUGH (R459). -/
def State.clearThrough (s : State) (n : Nat) : State := { s with dcd := s.dcd.clear n }

/-- CLEAR_THROUGH (R459). -/
def execClearThrough (p : Path) (seq : Word) (s : State) : Res :=
  ok (s.via p 0x5001C fun s => s.clearThrough seq.toNat)

/-- The effect of a write to SEEK_SEQ: the seek runs (R458). -/
def State.seekSeq (s : State) (p : Path) (n : Nat) : State := s.setPath p { s.path p with seek := some n }

/-- SEEK_SEQ (R458). -/
def execSeekSeq (p : Path) (seq : Word) (s : State) : Res :=
  ok (s.via p 0x50024 fun s => s.seekSeq p seq.toNat)

/-- SEEK_DONE (R458): CURSOR goes to the held record with the lowest SEQ that is n or higher, or to TAIL. -/
def execSeekDone (p : Path) (s : State) : Res :=
  let x := s.path p
  ok (match x.seek with
    | none => s
    | some n =>
      let live := decide (x.view = 0)
      let recs := if live then s.dcd.recs else s.dcd.view
      let base := if live then s.dcd.head else 0
      match seekIn recs n 0 with
      | some d => s.setPath p { x with seek := none, seekFound := true, cursor := (base + d) % cardSize }
      | none => s.setPath p { x with seek := none, seekFound := false, cursor := (base + recsBytes recs) % cardSize })

/-- The effect of a write to ARCH_SELECT (R462): other values than 1 to 8 and writes while ARCH_BUSY are discarded. -/
def State.archSelect (s : State) (k : Nat) : State :=
  if k < 1 ∨ 8 < k ∨ s.dcd.loading.isSome then s else { s with dcd := { s.dcd with loading := some k } }

/-- ARCH_SELECT (R462). -/
def execArchSelect (p : Path) (k : BitVec 4) (s : State) : Res :=
  ok (s.via p 0x50030 fun s => s.archSelect k.toNat)

/-- ARCHIVE_LOAD_DONE (R462): the k-th newest complete archive is in the view, or RESULT reads NO_RESOURCE. -/
def execArchiveLoadDone (s : State) : Res :=
  ok (match s.dcd.loading with
    | none => s
    | some k => match s.archives[k - 1]? with
      | some a => { s with dcd := { s.dcd with loading := none, view := a.recs, loaded := k, archResult := Status.done.num } }
      | none => { s with dcd := { s.dcd with loading := none, archResult := Status.noResource.num } })

/-- A warm reset or an entry to Dormant ends a load with ABORTED before its save (R464). -/
def State.abortLoad (s : State) : State :=
  if s.dcd.loading.isSome then { s with dcd := { s.dcd with loading := none, archResult := Status.aborted.num } } else s

/-! ### The registers of the DCD block -/

/-- What a read of a word of the DCD block returns (R463). -/
def State.dcdRead (s : State) (p : Path) (off : Nat) : Nat :=
  let d := s.dcd
  let x := s.path p
  match off with
  | 0x000 => d.head
  | 0x004 => d.tail
  | 0x008 => d.used
  | 0x00C => d.firstSeq
  | 0x010 => d.nextSeq
  | 0x014 => d.dropped
  | 0x018 => d.dropPending
  | 0x020 => x.cursor + 2 ^ 24 * x.view
  | 0x028 => bitOf x.seek.isSome + 2 * bitOf x.seekFound
      + 2 ^ 16 * ofBytes ((List.range 2).map fun i => s.cardByte x.view (x.cursor + i))
  | 0x034 => bitOf d.loading.isSome + 2 * d.archResult + 2 ^ 7 * s.archives.length + 2 ^ 11 * d.loaded
  | 0x038 => d.archFails
  | 0x03C => recsBytes d.view
  | 0x040 => d.accepted % 2 ^ 32
  | 0x044 => d.accepted / 2 ^ 32
  | _ => if 0x1000 ≤ off ∧ off < 0x2000 then s.cardWindow p (off - 0x1000) else 0

/-- What a write of a word of the DCD block does (R463). -/
def State.dcdWrite (s : State) (p : Path) (off v : Nat) : State :=
  match off with
  | 0x01C => s.clearThrough v
  | 0x020 => s.setPath p { s.path p with cursor := v % 2 ^ 24 / 8 * 8, view := bits v 24 24 }
  | 0x024 => s.seekSeq p v
  | 0x030 => s.archSelect (v % 16)
  | _ => s

end Sys2Proof.Machine
end

