-- ==== Sys2Proof/Machine/Descr.lean ====
section
/-! DEFINITION. The checks a push makes on a descriptor (R129 to R137, R157, R366 to R368, R413): VERSION for GEN 2 or 3,
ILLEGAL for any other failure. -/

namespace Sys2Proof.Machine

/-- What the push checks find: the descriptor passes, or VERSION, or ILLEGAL. -/
inductive PushCheck where
  | pass | version | illegal
deriving DecidableEq, Repr

/-- The common header (R129, R130), and then a kind's own rule. -/
def checkDesc (d : List Byte) (kind : Nat) (rule : Bool) : PushCheck :=
  if leAt d 1 1 = 2 ∨ leAt d 1 1 = 3 then .version
  else if leAt d 0 1 = kind ∧ leAt d 1 1 = 1 ∧ rule = true then .pass else .illegal

/-! ### Tiles -/

/-- STAT_FMT. -/
def tStatFmt (d : List Byte) : Nat := leAt d 4 1 % 16
/-- ACT_FMT. -/
def tActFmt (d : List Byte) : Nat := leAt d 4 1 / 16
/-- OUT_FMT. -/
def tOutFmt (d : List Byte) : Nat := leAt d 5 1
/-- XPOSE. -/
def tXpose (d : List Byte) : Nat := bits (leAt d 2 2) 2 1
/-- OUT_MODE. -/
def tMode (d : List Byte) : Nat := bits (leAt d 2 2) 4 3
/-- PINNED. -/
def tPinned (d : List Byte) : Bool := bit (leAt d 2 2) 0
/-- K_STEPS. -/
def tSteps (d : List Byte) : Nat := leAt d 6 2
/-- ROWS. -/
def tRows (d : List Byte) : Nat := leAt d 8 4

/-- The rate class of a format (R132). -/
def rateClass (f : Nat) : Nat := if f ≤ 1 then 0 else if f ≤ 7 then 1 else if f = 8 then 2 else if f = 9 then 3 else 4

/-- The MX formats (R157). -/
def isMx (f : Nat) : Bool := decide (4 ≤ f ∧ f ≤ 8)

/-- The bytes of an output row (R133). -/
def outRowBytes (f : Nat) : Nat := if f = 0 then 384 else if f = 1 then 256 else if f = 2 then 128 else 64

/-- The rules of R131 to R135 and R157; `fused` for FSEQ. -/
def tileRule (d : List Byte) (fused : Bool) : Bool :=
  let fl := leAt d 2 2
  let sf := tStatFmt d
  let af := tActFmt d
  let m := tMode d
  let out := leAt d 32 8
  let os := leAt d 48 4
  decide (fl < 32 ∧ tXpose d ≤ 2 ∧ m ≤ 2 ∧ sf ≤ 0xA ∧ af ≤ 0xA ∧ rateClass sf = rateClass af ∧ tOutFmt d ≤ 4
    ∧ leAt d 12 1 < 64 ∧ leAt d 62 2 = 0)
  && decide ((m = 1 → tOutFmt d = 0) ∧ (fused = true ↔ m = 2) ∧ (sf = 9 → tOutFmt d ≤ 1) ∧ (leAt d 60 2 ≠ 0 → m = 1)
    ∧ (m = 2 → out = 0 ∧ os = 0 ∧ tOutFmt d = 0))
  && decide (leAt d 16 8 % 16 = 0 ∧ leAt d 24 8 % 16 = 0 ∧ out % 16 = 0 ∧ leAt d 40 4 % 16 = 0 ∧ leAt d 44 4 % 16 = 0
    ∧ os % 16 = 0 ∧ (m = 0 ∧ 1 < tRows d → outRowBytes (tOutFmt d) ≤ os))
  && decide ((isMx sf = false → leAt d 52 4 = 0) ∧ (isMx af = false → leAt d 56 4 = 0)
    ∧ (tXpose d ≠ 0 → isMx sf = false ∧ isMx af = false))

/-! ### Promenade descriptors -/

/-- The rules of R136 and R137. -/
def promRule (d : List Byte) : Bool :=
  let op := leAt d 4 1
  let wf := leAt d 7 1
  let len := leAt d 8 4
  let size := if wf % 16 = 0 then 6 else if wf % 16 = 1 then 4 else 2
  decide (leAt d 2 2 ≤ 1 ∧ 1 ≤ op ∧ op ≤ 5 ∧ leAt d 6 1 < 64 ∧ leAt d 44 8 = 0 ∧ leAt d 52 8 = 0 ∧ leAt d 60 4 = 0)
  && decide (op ≠ 3 → wf = 0 ∧ leAt d 42 2 = 0)
  && (match op with
      | 2 => decide (len % 8 = 0 ∧ leAt d 32 4 = 0)
      | 3 => decide (wf % 16 ≤ 2 ∧ (wf / 16 = 1 ∨ wf / 16 = 2) ∧ len % size = 0)
      | 4 => decide (leAt d 12 4 ≤ 1 ∧ len % 4096 = 0 ∧ leAt d 24 8 % 64 = 0)
      | 5 => decide (leAt d 12 4 ≤ 1 ∧ len % 4096 = 0 ∧ leAt d 16 8 % 64 = 0)
      | _ => true)

/-! ### Round descriptors -/

/-- The pairings of R367. -/
def roundPairing (op fl src dst exp first : Nat) : Bool :=
  if op = 1 ∨ op = 2 ∨ op = 6 then
    if bit fl 1 then decide (src = 2 ∧ (dst = 2 ∨ dst = 4)) else decide (src ≤ 1 ∧ (dst ≤ 1 ∨ dst = 4))
  else decide (bit fl 1 = false ∧ src = 3 ∧ dst = 3 ∧ exp = 0 ∧ first = 0)

/-- The rules of R366 to R368. -/
def roundRule (d : List Byte) : Bool :=
  let op := leAt d 4 1
  decide (leAt d 2 2 < 4 ∧ 1 ≤ op ∧ op ≤ 6 ∧ leAt d 6 1 < 64 ∧ leAt d 7 1 < 64 ∧ leAt d 8 1 < 64 ∧ leAt d 11 1 = 0
    ∧ leAt d 52 8 = 0 ∧ leAt d 60 4 = 0)
  && roundPairing op (leAt d 2 2) (leAt d 9 1) (leAt d 10 1) (leAt d 12 2) (leAt d 36 4)
  && decide ((op ≠ 4 → leAt d 14 2 = 0) ∧ (op ≠ 5 ∧ op ≠ 6 → leAt d 40 8 = 0))

/-! ### Freeze descriptors -/

/-- The rules of R413. -/
def freezeRule (d : List Byte) : Bool :=
  let op := leAt d 4 1
  let fl := leAt d 2 2
  let slot := leAt d 7 1
  decide (fl < 4 ∧ 1 ≤ op ∧ op ≤ 4 ∧ leAt d 6 1 < 64 ∧ leAt d 40 8 = 0 ∧ leAt d 48 8 = 0 ∧ leAt d 56 8 = 0)
  && decide ((op ≠ 1 → fl = 0) ∧ (slot ≠ 0 → slot = 1 ∧ (op = 4 ∨ (op = 1 ∧ bit fl 1 = true)))
    ∧ (op = 2 ∨ op = 4 → leAt d 24 8 = 0) ∧ (op ≠ 3 → leAt d 32 4 = 0) ∧ (op = 1 ∨ op = 2 → leAt d 38 2 = 0))

end Sys2Proof.Machine
end

