-- ==== Sys2Proof/Machine/Num.lean ====
section
/-! DEFINITION. Number formats and exact arithmetic: values are decoded into exact dyadic numbers, computed exactly, and
rounded once (R158 to R166, R176, R177, R208, R253). Division and square roots carry a sticky bit below more bits
than any format keeps, so that the one rounding that follows is the correct one. -/

namespace Sys2Proof.Machine

/-- An exact value: NaN, an infinity, or (−1)^neg × m × 2^e; m = 0 is a zero of that sign. -/
inductive FP where
  | nan
  | inf (neg : Bool)
  | fin (neg : Bool) (m : Nat) (e : Int)
deriving DecidableEq, Repr

/-- How a format encodes infinities and NaNs (R158). -/
inductive Special where
  | ieee      -- all-ones exponent: infinity and NaN
  | allOnes   -- E4M3: only S.1111.111, a NaN; no infinity
  | none      -- neither
deriving DecidableEq, Repr

/-- A floating-point format: exponent bits, fraction bits, bias, special encodings, and whether a result too large
saturates at the largest finite value instead of becoming an infinity (R158, R166). -/
structure Fmt where
  eb      : Nat
  fb      : Nat
  bias    : Int
  special : Special
  satur   : Bool
deriving DecidableEq, Repr

/-- FP32 (R158). -/
def fmtFP32 : Fmt := ⟨8, 23, 127, .ieee, false⟩
/-- BF16 (R158). -/
def fmtBF16 : Fmt := ⟨8, 7, 127, .ieee, false⟩
/-- FP16 (R158). -/
def fmtFP16 : Fmt := ⟨5, 10, 15, .ieee, false⟩
/-- FP8 E4M3 (R158, R166). -/
def fmtE4M3 : Fmt := ⟨4, 3, 7, .allOnes, true⟩
/-- FP8 E5M2 (R158, R166). -/
def fmtE5M2 : Fmt := ⟨5, 2, 15, .ieee, true⟩
/-- MXFP6 E3M2 (R158). -/
def fmtE3M2 : Fmt := ⟨3, 2, 3, .none, true⟩
/-- MXFP6 E2M3 (R158). -/
def fmtE2M3 : Fmt := ⟨2, 3, 1, .none, true⟩
/-- MXFP4 E2M1 (R158). -/
def fmtE2M1 : Fmt := ⟨2, 1, 1, .none, true⟩

/-- Decodes a bit pattern (R158): subnormals at their full value. -/
def Fmt.decode (f : Fmt) (w : Nat) : FP :=
  let neg := bit w (f.eb + f.fb)
  let e := w >>> f.fb % 2 ^ f.eb
  let m := w % 2 ^ f.fb
  let top := 2 ^ f.eb - 1
  if f.special = .ieee ∧ e = top then (if m = 0 then .inf neg else .nan)
  else if f.special = .allOnes ∧ e = top ∧ m = 2 ^ f.fb - 1 then .nan
  else if e = 0 then .fin neg m (1 - f.bias - (f.fb : Int))
  else .fin neg (2 ^ f.fb + m) ((e : Int) - f.bias - (f.fb : Int))

/-- m × 2^k rounded to an integer, nearest with ties to even; exact for k ≥ 0. -/
def rneNat (m : Nat) (k : Int) : Nat :=
  if 0 ≤ k then m * 2 ^ k.toNat
  else
    let d := 2 ^ (-k).toNat
    let q := m / d
    let r := m % d
    if 2 * r > d ∨ (2 * r = d ∧ q % 2 = 1) then q + 1 else q

/-- The largest finite pattern of a format, without its sign. -/
def Fmt.maxFin (f : Fmt) : Nat :=
  match f.special with
  | .ieee => (2 ^ f.eb - 1) * 2 ^ f.fb - 1
  | .allOnes => 2 ^ (f.eb + f.fb) - 2
  | .none => 2 ^ (f.eb + f.fb) - 1

/-- The pattern of the sign of a format. -/
def Fmt.sign (f : Fmt) (neg : Bool) : Nat := if neg then 2 ^ (f.eb + f.fb) else 0

/-- The canonical NaN of a format (R166, R176). -/
def Fmt.nan (f : Fmt) : Nat :=
  match f.special with
  | .ieee => (2 ^ f.eb - 1) * 2 ^ f.fb + 2 ^ (f.fb - 1)
  | _ => 2 ^ (f.eb + f.fb) - 1

/-- The pattern of an infinity: a format without one gives its largest finite value (R166). -/
def Fmt.infty (f : Fmt) (neg : Bool) : Nat :=
  f.sign neg + (if f.special = .ieee then (2 ^ f.eb - 1) * 2 ^ f.fb else f.maxFin)

/-- What a finite value too large becomes (R166). -/
def Fmt.over (f : Fmt) (neg : Bool) : Nat := if f.satur then f.sign neg + f.maxFin else f.infty neg

/-- Rounds a value once, to nearest-even, into a format (R166, R176): subnormals kept. -/
def Fmt.round (f : Fmt) : FP → Nat
  | .nan => f.nan
  | .inf neg => f.infty neg
  | .fin neg m e =>
    if m = 0 then f.sign neg
    else
      let emin : Int := 1 - f.bias - (f.fb : Int)
      let sh : Int := max emin (e + (Nat.log2 m : Int) - (f.fb : Int))
      let q := rneNat m (e - sh)
      let p : Int := (q : Int) + (sh - emin) * 2 ^ f.fb
      if p > (f.maxFin : Int) then f.over neg else f.sign neg + p.toNat

/-! ### Exact operations -/

/-- The value with its sign inverted. -/
def FP.neg : FP → FP
  | .nan => .nan
  | .inf n => .inf !n
  | .fin n m e => .fin (!n) m e

/-- The integer of a finite value in units of 2^u, exact for u at or below its exponent. -/
def fpInt (neg : Bool) (m : Nat) (e u : Int) : Int := (if neg then -1 else 1) * (m : Int) * 2 ^ (e - u).toNat

/-- The value of an integer in units of 2^u; zero takes the sign given. -/
def FP.ofInt (i u : Int) (zeroNeg : Bool) : FP := if i = 0 then .fin zeroNeg 0 u else .fin (decide (i < 0)) i.natAbs u

/-- Exact sum; an exact zero is +0 unless both addends are −0 (R164, IEEE 754). -/
def FP.add : FP → FP → FP
  | .nan, _ => .nan
  | _, .nan => .nan
  | .inf a, .inf b => if a = b then .inf a else .nan
  | .inf a, _ => .inf a
  | _, .inf b => .inf b
  | .fin a m e, .fin b n g =>
    let u := min e g
    FP.ofInt (fpInt a m e u + fpInt b n g u) u (if m = 0 ∧ n = 0 then a && b else false)

/-- Exact product. -/
def FP.mul : FP → FP → FP
  | .nan, _ => .nan
  | _, .nan => .nan
  | .inf a, .inf b => .inf (a != b)
  | .inf a, .fin b n _ => if n = 0 then .nan else .inf (a != b)
  | .fin a m _, .inf b => if m = 0 then .nan else .inf (a != b)
  | .fin a m e, .fin b n g => .fin (a != b) (m * n) (e + g)

/-- a × b + c, exact. -/
def FP.fma (a b c : FP) : FP := (a.mul b).add c

/-- The number of bits that quotients and roots keep above their sticky bit. -/
def quotBits : Nat := 80

/-- Quotient with a sticky bit: m / n in units of 2^(−k) with its lowest bit set when inexact. -/
def stickyDiv (m n k : Nat) : Nat :=
  let q := m * 2 ^ k / n
  2 * q + (if q * n = m * 2 ^ k then 0 else 1)

/-- a / b, ready for one rounding. -/
def FP.div : FP → FP → FP
  | .nan, _ => .nan
  | _, .nan => .nan
  | .inf _, .inf _ => .nan
  | .inf a, .fin b _ _ => .inf (a != b)
  | .fin a _ _, .inf b => .fin (a != b) 0 0
  | .fin a m e, .fin b n g =>
    if n = 0 then (if m = 0 then .nan else .inf (a != b))
    else
      let k := quotBits + Nat.log2 n
      .fin (a != b) (stickyDiv m n k) (e - g - (k : Int) - 1)

/-- The integer square root by bits, from bit k down. -/
def isqrtFrom : Nat → Nat → Nat → Nat
  | 0, _, r => r
  | k + 1, n, r => if (r + 2 ^ k) * (r + 2 ^ k) ≤ n then isqrtFrom k n (r + 2 ^ k) else isqrtFrom k n r

/-- The integer square root. -/
def isqrt (n : Nat) : Nat := isqrtFrom (Nat.log2 n / 2 + 1) n 0

/-- Square root, ready for one rounding; √−0 is −0. -/
def FP.sqrt : FP → FP
  | .nan => .nan
  | .inf n => if n then .nan else .inf false
  | .fin neg m e =>
    if m = 0 then .fin neg 0 0
    else if neg then .nan
    else
      let m2 := if e % 2 = 0 then m else 2 * m
      let e2 := if e % 2 = 0 then e else e - 1
      let x := m2 * 2 ^ (2 * quotBits)
      let r := isqrt x
      .fin false (2 * r + (if r * r = x then 0 else 1)) (e2 / 2 - (quotBits : Int) - 1)

/-- Reciprocal square root, ready for one rounding (R177): 1/√±0 is an infinity of that sign. -/
def FP.rsqrt : FP → FP
  | .nan => .nan
  | .inf n => if n then .nan else .fin false 0 0
  | .fin neg m e =>
    if m = 0 then .inf neg
    else if neg then .nan
    else
      let m2 := if e % 2 = 0 then m else 2 * m
      let e2 := if e % 2 = 0 then e else e - 1
      let k := quotBits + Nat.log2 m2
      let r := isqrt (2 ^ (2 * k) / m2)
      .fin false (2 * r + (if r * r * m2 = 2 ^ (2 * k) then 0 else 1)) (-(e2 / 2) - (k : Int) - 1)

/-- x × 2^n. -/
def FP.scale (x : FP) (n : Int) : FP :=
  match x with
  | .fin s m e => .fin s m (e + n)
  | y => y

/-- Whether the first of two values is less than the second; false with a NaN. −0 equals +0. -/
def FP.lt : FP → FP → Bool
  | .nan, _ => false
  | _, .nan => false
  | .inf a, .inf b => a && !b
  | .inf a, _ => a
  | _, .inf b => !b
  | .fin a m e, .fin b n g =>
    let u := min e g
    decide (fpInt a m e u < fpInt b n g u)

/-- Whether two values are equal; false with a NaN. −0 equals +0. -/
def FP.eq : FP → FP → Bool
  | .nan, _ => false
  | _, .nan => false
  | .inf a, .inf b => a == b
  | .inf _, _ => false
  | _, .inf _ => false
  | .fin a m e, .fin b n g =>
    let u := min e g
    decide (fpInt a m e u = fpInt b n g u)

/-- The sign of a value; a NaN counts as positive. -/
def FP.isNeg : FP → Bool
  | .nan => false
  | .inf n => n
  | .fin n _ _ => n

/-- Whether a value is a NaN. -/
def FP.isNan : FP → Bool
  | .nan => true
  | _ => false

/-- Minimum under IEEE 754-2019 (R177): NaN with a NaN operand, −0 below +0. -/
def FP.minimum (a b : FP) : FP :=
  if a.isNan || b.isNan then .nan
  else if a.lt b then a else if b.lt a then b else if a.isNeg then a else b

/-- Maximum under IEEE 754-2019 (R177). -/
def FP.maximum (a b : FP) : FP :=
  if a.isNan || b.isNan then .nan
  else if a.lt b then b else if b.lt a then a else if a.isNeg then b else a

/-- The value of a signed integer: zero is +0. -/
def FP.int (i : Int) : FP := FP.ofInt i 0 false

/-- The integer nearest to x / 2^u, ties to even (R254); none for a NaN or an infinity. -/
def FP.toUnits (x : FP) (u : Int) : Option Int :=
  match x with
  | .fin neg m e => some ((if neg then -1 else 1) * (rneNat m (e - u) : Int))
  | _ => none

/-! ### W48 (R163) -/

/-- The exact value of a W48 pattern; an element whose form R163 does not produce has none. -/
def w48Decode (w : Nat) : Option FP :=
  let neg := bit w 47
  let e := bits w 46 39
  let m := w % 2 ^ 39
  if e = 0 then some (.fin neg m (-164))
  else if e = 255 then some (if m = 0 then .inf neg else .nan)
  else if bit w 38 then some (.fin neg m ((e : Int) - 165)) else none

/-- Rounds a value once, to nearest-even, to W48 (R164). -/
def w48Round : FP → Nat
  | .nan => 0x7FC000000000
  | .inf neg => (if neg then 2 ^ 47 else 0) + 255 * 2 ^ 39
  | .fin neg m e =>
    let sgn := if neg then 2 ^ 47 else 0
    if m = 0 then sgn
    else
      let sh : Int := max (-164) (e + (Nat.log2 m : Int) - 38)
      let q := rneNat m (e - sh)
      let up := decide (q ≥ 2 ^ 39)
      let q2 := if up then q / 2 else q
      let sh2 := if up then sh + 1 else sh
      if q2 < 2 ^ 38 then sgn + q2
      else
        let ex : Int := sh2 + 165
        if ex ≥ 255 then sgn + 255 * 2 ^ 39 else sgn + ex.toNat * 2 ^ 39 + q2

/-- The sum of two rounded FP32 patterns and other FP32 steps of R184 and R208: each rounds once. -/
def f32 (w : Nat) : FP := fmtFP32.decode w

/-- Rounds to an FP32 pattern. -/
def r32 (x : FP) : Nat := fmtFP32.round x

/-- fl(a × b) in FP32. -/
def mul32 (a b : Nat) : Nat := r32 ((f32 a).mul (f32 b))
/-- fl(a + b) in FP32. -/
def add32 (a b : Nat) : Nat := r32 ((f32 a).add (f32 b))
/-- fma in FP32. -/
def fma32 (a b c : Nat) : Nat := r32 ((f32 a).fma (f32 b) (f32 c))
/-- fl(a / b) in FP32. -/
def div32 (a b : Nat) : Nat := r32 ((f32 a).div (f32 b))
/-- fl(√a) in FP32. -/
def sqrt32 (a : Nat) : Nat := r32 (f32 a).sqrt
/-- a with its sign bit inverted. -/
def neg32 (a : Nat) : Nat := Nat.xor a (2 ^ 31)

/-! ### The window formats (R251 to R254) -/

/-- The windows a block of 64 elements may hold. -/
inductive Window where
  | bw48 | bw32 | wa160
deriving DecidableEq, Repr

/-- The bytes of one element (R251). -/
def Window.size : Window → Nat
  | .bw48 => 6 | .bw32 => 4 | .wa160 => 20

/-- The bytes of one block of 64 elements (R251). -/
def Window.block (w : Window) : Nat := 64 * w.size

/-- The exponent of the unit of an element under block exponent β (R251). -/
def Window.unit (w : Window) (beta : Nat) : Int :=
  match w with
  | .bw48 => (beta : Int) - 173
  | .bw32 => (beta : Int) - 157
  | .wa160 => (beta : Int) - 254

/-- What converting one addend into a window gives (R199, R252, R253): its integer, or none when it is out of range.
`h` is the entry's HEADROOM, which applies to BW48 only. -/
def windowAddend (w : Window) (beta h : Nat) (x : FP) : Option Int :=
  match x.toUnits (w.unit beta) with
  | none => none
  | some i =>
    match w with
    | .bw48 => if i.natAbs ≥ 2 ^ (47 - h) then none else some i
    | .bw32 => if i < -(2 ^ 31) ∨ i > 2 ^ 31 - 1 then none else some i
    | .wa160 =>
      match x with
      | .fin _ m e => if m ≠ 0 ∧ (Nat.log2 m : Int) + e ≥ (beta : Int) - 126 then none else some i
      | _ => none

/-- Adds an addend to an element; the element wraps at its width (R200, R252). -/
def windowAddOne (w : Window) (old : Nat) (i : Int) : Nat := unsigned (8 * w.size) ((old : Int) + i)

/-- The signed integer of a stored element. -/
def windowInt (w : Window) (v : Nat) : Int := signed (8 * w.size) v

end Sys2Proof.Machine
end

