-- ==== Sys2Proof/Machine/StartOps.lean ====
section
/-! DEFINITION. The parts of start that other families use: the units in service, the stages and their order (R49),
the usable counts (R37), what the image loads (R51, R61), and the staging buffer (R64). -/

namespace Sys2Proof.Machine

/-! ### Units in service -/

/-- What start found on a set. -/
def State.setUnit (s : State) (n : Nat) : SetUnit := s.units.sets.get SetUnit.good n

/-- Stores what start found on a set. -/
def State.putSetUnit (s : State) (n : Nat) (u : SetUnit) : State :=
  { s with units := { s.units with sets := s.units.sets.put SetUnit.good n u } }

/-- The dies in service, as a mask. -/
def State.diesOk (s : State) : Nat := 0xF - (0xF &&& s.units.dieBad)

/-- The stacks in service: not retired, and on a die in service (R20; DEDUCED, log entry 21). -/
def State.stacksOk (s : State) : Nat :=
  (List.range 12).foldl (fun m k => if bit s.units.stackBad k || bit s.units.dieBad (k / 3) then m else m + 2 ^ k) 0

/-- The tier B controllers in service. -/
def State.ctrlsOk (s : State) : Nat :=
  (List.range 16).foldl (fun m k => if bit s.units.pkgBad k || bit s.units.dieBad (k / 4) then m else m + 2 ^ k) 0

/-- A set is in service: its die is, and it is not retired. -/
def State.setOk (s : State) (n : Nat) : Bool := decide (n < 768) && bit s.diesOk (n / 192) && !(s.setUnit n).retired

/-- The sets of a die in service (R31, R58). -/
def State.setsOkOn (s : State) (d : Nat) : Nat :=
  if bit s.diesOk d then 192 - (s.units.sets.filter fun e => decide (e.1 / 192 = d) && e.2.retired).length else 0

/-- The sets in service. -/
def State.setsOkCount (s : State) : Nat := (List.range 4).foldl (fun n d => n + s.setsOkOn d) 0

/-- The arrays in service: four for each set, without those retired and those of retired sets. -/
def State.arraysOkCount (s : State) : Nat :=
  (List.range 4).foldl (fun n d => if bit s.diesOk d then n + 768 -
    ((s.units.sets.filter fun e => decide (e.1 / 192 = d)).foldl
      (fun m e => m + (if e.2.retired then 4 else 4 - popCount 4 e.2.arrOk)) 0) else n) 0

/-- The drain latency of an array: 104, 105 with its spare row in use, 0 when retired (R147). -/
def SetUnit.latency (u : SetUnit) (k : Nat) : Nat :=
  if !bit u.arrOk k then 0 else if (u.spare.getD k none).isSome then 105 else 104

/-! ### Stages (R49) -/

/-- The stages that a stage follows. -/
def stageFollows : Nat → List Nat
  | 2 => [1] | 3 => [2] | 4 => [3] | 5 => [4] | 6 => [5] | 7 => [6] | 8 => [7] | 9 => [6] | 10 => [6] | 11 => [8, 9, 10]
  | _ => []

/-- A stage is complete, or is one this start skips (R62). -/
def State.stageOver (s : State) (k : Nat) : Bool := bit (s.get CFG_STAGE_DONE) (k - 1) || bit s.boot.skipped (k - 1)

/-- A stage runs: the module is starting, the stage has begun and is not over. -/
def State.stageRuns (s : State) (k : Nat) : Bool :=
  decide (s.pwr.mode = .on) && s.starting && bit s.boot.started (k - 1) && !s.stageOver k

/-- The stages that may begin: not begun, not over, and every stage they follow over. -/
def State.stagesReady (s : State) : List Nat :=
  (List.range 11).map (· + 1) |>.filter fun k =>
    !bit s.boot.started (k - 1) && !s.stageOver k && (stageFollows k).all fun j => s.stageOver j

/-- A comb is READY: the lanes of its enabled ports leave DISABLED and are parked; the data lanes of a short-mode port are
held until its clock lanes are enabled (R288, R297, R307). -/
def State.combReady (s : State) (e : Nat) : State :=
  let s1 := (s.setF OPT_E_COMB_STATE e 0 3).setBit OPT_COMB_READY 0 0 e true
  let park (s : State) (p k : Nat) : State :=
    let held := bit (s.get OPT_SHORT_MODE) p && decide (k < 15)
    let st (f : Fld) (s : State) : State := if s.getF f p k = 0 then s.setF f p k (if held then 8 else 1) else s
    st OPT_LN_RX_STATE (st OPT_LN_TX_STATE s)
  (List.range 3).foldl (fun s k =>
    let p := 3 * e + k
    if !bit (s.get OPT_PORT_ENABLE) p then s
    else
      let s2 := (List.range 16).foldl (fun s j => park s p j) s
      if bit (s2.get OPT_SHORT_MODE) p ∧ s2.getF OPT_P_HELD p 0 = 0 then
        (s2.setF OPT_P_HELD p 0 1).emit RT_OPT_PORT_HELD .control 6 e 0 [p, 0]
      else s2) s1

/-- OPTICS_LOCK begins: each engine in service warms its comb, or finds it at temperature (R288, R299). -/
def State.opticsBegin (s : State) : State :=
  ((List.range 4).filter fun e => s.dieOn e && !bit s.units.engineBad e).foldl (fun s e =>
    if bit s.opt.hot e then s.combReady e else s.setF OPT_E_COMB_STATE e 0 1) s

/-- Begins every stage that may begin; STAGE shows the lowest-numbered stage that runs (DEDUCED, log entry 22). -/
def State.beginStages (s : State) : State :=
  let ks := s.stagesReady
  let s := if 10 ∈ ks then s.opticsBegin else s
  let s1 := { s with boot := { s.boot with
      started := ks.foldl (fun m k => m + 2 ^ (k - 1)) s.boot.started,
      stageStart := ks.foldl (fun l k => listSet l (k - 1) s.callerCycles) s.boot.stageStart } }
  match ((List.range 11).map (· + 1)).filter fun k => s1.stageRuns k with
  | k :: _ => s1.set CFG_STAGE k
  | [] => s1

/-- Completes a stage: STAGE_DONE, STAGE_MS, and the stages that follow begin (R49, R69). -/
def State.stageComplete (s : State) (k : Nat) : State :=
  let ms := (s.callerCycles - s.boot.stageStart.getD (k - 1) 0) / 225000 % 65536
  let s1 := s.setBit CFG_STAGE_DONE 0 0 (k - 1) true
  let s2 := if k % 2 = 1 then s1.setF CFG_STAGE_MS_A ((k - 1) / 2) 0 ms else s1.setF CFG_STAGE_MS_B ((k - 1) / 2) 0 ms
  s2.beginStages

/-- SETS_USABLE, ARRAYS_USABLE, STACK_OK, ENGINE_OK and DIE_OK take their values (R37); a unit kind whose stage has not
completed counts none (DEDUCED, log entry 23). -/
def State.usableCounts (s : State) : State :=
  let ovr (k : Nat) := s.stageOver k
  let s1 := s.set MOD_SETS_USABLE (if ovr 9 then s.setsOkCount else 0)
  let s2 := s1.set MOD_ARRAYS_USABLE (if ovr 9 then s.arraysOkCount else 0)
  let s3 := s2.set MOD_STACK_OK (if ovr 7 then s.stacksOk else 0)
  let s4 := s3.set MOD_ENGINE_OK (if ovr 10 then s.diesOk - (s.diesOk &&& s.units.engineBad) else 0)
  s4.set MOD_DIE_OK (if ovr 6 then s.diesOk else 0)

/-! ### What the image loads -/

/-- A field of the applied image. -/
def State.img (s : State) (ty off n : Nat) : Nat := imgField s.boot.image ty off n

/-- The fields PARSE applies at once (R45, R51): identity, the start's own settings and the configuration of the units
that stages 5 to 10 bring up. DESIGN CHOICE, log entry 11. -/
def State.applyParse (s : State) : State :=
  let im := s.boot.image
  let slot := imgSlot im s.pins.slotId
  let floor := s.img 0x01 0 1
  let gx := s.img 0x04 4 1
  let mode := s.img 0x04 0 1
  let s := (s.set MOD_SLOT slot).set MOD_FLOOR floor
  let s := s.set FAB_MODULE_ID (floor * 32 + slot)
  let s := ((s.set CFG_IMAGE_VERSION (imgVersion im)).set CFG_IMAGE_LENGTH (imgLength im)).set CFG_KEY_SLOT (imgKeySlot im)
  let s := (s.set MEM_A_RATE (s.img 0x02 0 2)).set MEM_B_RATE (s.img 0x02 2 2)
  let s := (s.set OPT_PORT_ENABLE (s.img 0x03 0 2)).set OPT_SHORT_MODE (s.img 0x03 2 2)
  let s := s.set OPT_ROUTER_FACING (if mode = 0 then floorRouterPorts else 0)
  let s := (List.range 12).foldl (fun s p =>
    let s := (s.setF OPT_P_SHORT p 0 (bitOf (bit (s.img 0x03 2 2) p))).setF OPT_P_ROUTER p 0 (bitOf (imgRouterFacing im p))
    let s := s.setF LNK_P_EXPECTED p 0 (s.img 0x04 (8 + 2 * p) 2)
    (List.range 16).foldl (fun s l => s.setF OPT_LN_TARGET_LINE p l (s.img 0x03 (8 + 16 * p + l) 1)) s) s
  let s := ((s.set LNK_PORT_AGNOSTIC (s.img 0x04 2 1)).set LNK_CUTOUT (s.img 0x04 3 1)).set64 LNK_FEATURES_LO LNK_FEATURES_HI 0
    (imgFeatures im)
  let s := ((s.set TOP_MODE mode).set TOP_NETWORKS (s.img 0x04 1 1)).set TOP_CUTOUT (s.img 0x04 3 1)
  let s := ((s.set TOP_GRID_X gx).set TOP_GRID_Y (s.img 0x04 5 1)).set TOP_FLOOR_X (floor % gx)
  let s := s.set TOP_FLOOR_Y (floor / gx)
  s.set TOP_PORT_ROLE ((List.range 12).foldl (fun m p => m + 4 ^ p *
    (if !bit (s.img 0x03 0 2) p then 0 else if mode = 1 then 3 else if bit floorRouterPorts p then 1 else 2)) 0)

/-- The line set of the image: the lines of the first enabled router-facing port, 0 in direct mode (R349, R361). -/
def State.imageLineSet (s : State) : Nat :=
  match (List.range 12).filter fun p => imgRouterFacing s.boot.image p && bit (s.img 0x03 0 2) p with
  | p :: _ => imgLineSet s.boot.image p
  | [] => 0

/-- The fields TABLES loads (R61): every field whose Kept through entry reads Image. -/
def State.applyTables (s : State) : State :=
  let s := s.applyParse
  let s := (s.set MEM_PATROL_S (s.img 0x02 4 4)).set OPT_RECAL_MS (s.img 0x03 4 4)
  let s := (s.set LNK_WEIGHT0_3 (s.img 0x06 0 4)).set LNK_WEIGHT4_7 (s.img 0x06 4 4)
  let s := (s.set TOP_ACTIVE_SET s.imageLineSet).set TOP_PEND_SET s.imageLineSet
  let n := (imgValue s.boot.image 0x07).length / 8
  let s := s.set TOP_ROUTE_COUNT n
  let s := (List.range n).foldl (fun s i =>
    let s := (s.setF TOP_RT_DEST_FIRST i 0 (s.img 0x07 (8 * i) 2)).setF TOP_RT_COUNT i 0 (s.img 0x07 (8 * i + 2) 2)
    (s.setF TOP_RT_PORT i 0 (s.img 0x07 (8 * i + 4) 1)).setF TOP_RT_ALT_PORT i 0 (s.img 0x07 (8 * i + 5) 1)) s
  let s := s.set MIS_PERMIT (bitOf (decide (s.img 0x05 0 1 ≠ 0)))
  let s := s.set SEC_ATTEST_MODE (s.img 0x05 1 1)
  let wd := [HNG_ENGINE_WD_US, HNG_CONTEXT_RESET_US, HNG_ENGINE_RESET_US, HNG_PARTITION_RESET_US, HNG_WARM_RESET_MS,
    HNG_DRAIN_US, HNG_HANG_CAPTURE_US, HNG_FM_NOTICE_US]
  let s := (List.range 8).foldl (fun s k => match wd[k]? with
    | some f => s.set f (orDefault (s.img 0x09 (4 * k) 4) (watchdogRanges.getD k (0, 0, 0)).1)
    | none => s) s
  let s := (s.set MBX_MSIX_VECTORS (s.img 0x0C 2 2)).set MBX_PCIE_ENABLE (s.img 0x0C 0 1)
  let s := (List.range 2).foldl (fun s k =>
    ((s.setF MBX_K_MAC_LO k 0 (s.img 0x0B (6 * k) 4)).setF MBX_K_MAC_HI k 0 (s.img 0x0B (6 * k + 4) 2)).setF MBX_K_MTU k 0
      (s.img 0x0B 12 2)) s
  ((s.set PWR_THROTTLE_C (orDefault (s.img 0x08 0 1) 95)).set PWR_ALERT_C (orDefault (s.img 0x08 1 1) 100)).set
    PWR_HYSTERESIS_C (orDefault (s.img 0x08 2 1) 5)

/-! ### The staging buffer (R64, R70) -/

/-- The staged copy: the first STAGE_LENGTH bytes of the staging buffer. -/
def State.staged (s : State) : List Byte := s.boot.staging.read 0 0 (s.get CFG_STAGE_LENGTH)

/-- A write of STAGE_WINDOW, STAGE_PAGE or STAGE_LENGTH clears STAGED_OK (R70). -/
def State.stageDirty (s : State) : State :=
  let s1 := s.set CFG_STAGED_OK 0
  { s1 with boot := { s1.boot with verifying := s1.boot.verifying.map fun v => { v with changed := true } } }

/-- Whether a path may write the staging registers: the buffer is free or its own (R64). -/
def State.mayStage (s : State) (p : Path) : Bool :=
  match s.boot.owner with
  | none => true
  | some q => decide (p = q)

/-- A write of a word of the staging window (R69, R70): only in recovery hold, and only by the owner. -/
def State.stageWindowWrite (s : State) (p : Path) (off v : Nat) : State :=
  if s.inHold && decide (s.boot.owner = some p) then
    let a := 4096 * s.get CFG_STAGE_PAGE + off
    ({ s with boot := { s.boot with staging := s.boot.staging.write 0 a (toBytes 4 v) } }).stageDirty
  else s

/-- What a read of a word of the staging window returns (R69). -/
def State.stageWindowRead (s : State) (p : Path) (off : Nat) : Nat :=
  if s.inHold && decide (s.boot.owner = some p) then ofBytes (s.boot.staging.read 0 (4096 * s.get CFG_STAGE_PAGE + off) 4) else 0

/-- A write of the word of STAGE_PAGE (R64, R70). -/
def State.stagePageWrite (s : State) (p : Path) (v : Nat) : State :=
  if s.mayStage p then (s.set CFG_STAGE_PAGE (bits v 26 12)).stageDirty else s

/-- A write of the word of STAGE_LENGTH (R64, R70). -/
def State.stageLengthWrite (s : State) (p : Path) (v : Nat) : State :=
  if s.mayStage p then (s.set CFG_STAGE_LENGTH (v % 2 ^ 28)).stageDirty else s

end Sys2Proof.Machine
end

