-- ==== Sys2Proof/Machine/Memory.lean ====
section
/-! DEFINITION. Tiers A, B and C and the cache slices: interleave (R215, R216), reads and writes with their ECC outcomes
(R224 to R229, R241 to R243), atomics (R248), window additions (R255, R256), channels (R220 to R222), patrol (R228),
and tier C (R230 to R234). -/

namespace Sys2Proof.Machine

/-! ### Units and offsets (R215, R216) -/

/-- Two tiers hold bytes that a fabric address names: 0 is tier A, 1 is tier B (R264). -/
def State.unitsIn (s : State) (tier : Nat) : List Nat :=
  if tier = 0 then setBitsOf 12 s.stacksOk else setBitsOf 16 s.ctrlsOk

/-- The capacity of one unit. -/
def unitBytes (tier : Nat) : Nat := if tier = 0 then 64 * 2 ^ 30 else 80 * 2 ^ 30

/-- The bytes of a tier: offsets below it are valid. -/
def State.tierSize (s : State) (tier : Nat) : Nat := unitBytes tier * (s.unitsIn tier).length

/-- The unit that holds an offset: its granule modulo the units in service. -/
def State.unitOf (s : State) (tier o : Nat) : Nat :=
  let us := s.unitsIn tier
  us.getD (o / 1024 % us.length) 0

/-- A unit is lost (R229). -/
def State.unitLost (s : State) (tier u : Nat) : Bool :=
  if tier = 0 then decide (s.getF MEM_STACK_LOST u 0 = 1) else bit (s.getF MEM_CTRL_STATUS u 0) 24

/-- The key of a channel. -/
def chanKey (tier u ch : Nat) : Nat := (16 * tier + u) * 32 + ch

/-- The record kind of a unit of a tier (R450). -/
def unitKind (tier : Nat) : Nat := if tier = 0 then 3 else if tier = 1 then 4 else 5

/-- The map of a tier's bytes. -/
def State.tier (s : State) (tier : Nat) : SMap Byte := if tier = 0 then s.mem.a else s.mem.b

/-- The state with a tier's bytes replaced. -/
def State.putTier (s : State) (tier : Nat) (m : SMap Byte) : State :=
  if tier = 0 then { s with mem := { s.mem with a := m } } else { s with mem := { s.mem with b := m } }

/-- What error the DRAM cells of a line hold: 0 none, 1 correctable, 2 uncorrectable. -/
def State.lineErr (s : State) (tier line : Nat) : Nat := if tier = 0 then s.mem.errA.get 0 line else s.mem.errB.get 0 line

/-- The state with that error replaced. -/
def State.putErr (s : State) (tier line e : Nat) : State :=
  if tier = 0 then { s with mem := { s.mem with errA := s.mem.errA.put 0 line e } }
  else { s with mem := { s.mem with errB := s.mem.errB.put 0 line e } }

/-! ### Error reports (R225, R226, R229, R242) -/

/-- The total of corrections or uncorrectable reads of a tier. -/
def ceTotal (tier : Nat) : Fld := if tier = 0 then MEM_A_CE_TOTAL else if tier = 1 then MEM_B_CE_TOTAL else MEM_C_CE_TOTAL
/-- The total of uncorrectable reads of a tier. -/
def ueTotal (tier : Nat) : Fld := if tier = 0 then MEM_A_UE_TOTAL else if tier = 1 then MEM_B_UE_TOTAL else MEM_C_UE_TOTAL

/-- Counts a correction of a unit (R225). -/
def State.countCe (s : State) (tier u : Nat) : State :=
  let s1 := s.sat (ceTotal tier) 0 0 1
  if tier = 0 then s1.sat MEM_STACK_CE u 0 1
  else if tier = 1 then
    let w := s1.getF MEM_CTRL_STATUS u 0
    s1.setF MEM_CTRL_STATUS u 0 (setBits w 15 0 (min 0xFFFF (bits w 15 0 + 1)))
  else s1

/-- Counts an uncorrectable read of a unit (R226). -/
def State.countUe (s : State) (tier u : Nat) : State :=
  let s1 := s.sat (ueTotal tier) 0 0 1
  if tier = 0 then s1.sat MEM_STACK_UE u 0 1
  else if tier = 1 then
    let w := s1.getF MEM_CTRL_STATUS u 0
    s1.setF MEM_CTRL_STATUS u 0 (setBits w 23 16 (min 0xFF (bits w 23 16 + 1)))
  else s1

/-- Reports an uncorrectable read (R226): the record, the counts, and the capture while UE_VALID is 0. -/
def State.reportUe (s : State) (tier u cls off : Nat) : State :=
  let s1 := (s.emit RT_MEM_UE .data (unitKind tier) u 0 [tier, cls, off]).countUe tier u
  if s1.get MEM_UE_VALID = 1 then s1
  else (((((s1.set MEM_UE_TIER tier).set MEM_UE_UNIT u).set MEM_UE_CLASS cls).set MEM_UE_OFFSET_LO (off % 2 ^ 32)).set
    MEM_UE_OFFSET_HI (off / 2 ^ 32)).set MEM_UE_VALID 1

/-- Loses a unit (R229): every request waiting at it completes with TIMEOUT, LOST and RETIRE_PENDING are set, and the
loss is recorded and noticed, and a warm reset follows (R477). -/
def State.loseUnit (s : State) (tier u : Nat) : State :=
  if s.unitLost tier u then s else
  let keys := (List.range 32).map (chanKey tier u)
  let waiting := keys.foldl (fun n k => n + (s.mem.chans.get Chan.init k).queue.length) 0
  let s1 := { s with mem := { s.mem with chans := keys.foldl (fun m k => m.put Chan.init k Chan.init) s.mem.chans } }
  let s2 := if tier = 0 then ((s1.setF MEM_STACK_LOST u 0 1).setF MEM_STACK_RETIRE_PENDING u 0 1).setF MSC_LOST u 0 1
    else s1.setF MEM_CTRL_STATUS u 0 (s1.getF MEM_CTRL_STATUS u 0 ||| 0x3000000)
  let s3 := s2.emit RT_MEM_UNIT_LOST .data (unitKind tier) u 0 [tier, waiting]
  let s4 := s3.notify .memoryLost Status.timeout.num 0 0 0x3FFF u (s3.lastSeq .data)
  if s4.hng.jobs.any fun j => decide (j.level = 4) then s4 else s4.causeReset 4 0 0x3FFF 0 none

/-- Makes a dirty line held-bad (R242, R243). -/
def State.makeHeld (s : State) (line : Nat) : State :=
  let u := s.unitOf 0 (64 * line)
  let s1 := { s with mem := { s.mem with held := s.mem.held.put false line true, errS := s.mem.errS.put 0 line 0 } }
  let n := s1.getF MSC_HELD_BAD u 0 + 1
  let s2 := ((s1.setF MSC_HELD_BAD u 0 n).sat MSC_SLICE_UE u 0 1).emit RT_MSC_UE .data 3 u 0 [64 * line, n]
  let s3 := if s2.getF MSC_UE_VALID u 0 = 1 then s2
    else ((s2.setF MSC_UE_OFFSET_LO u 0 (64 * line % 2 ^ 32)).setF MSC_UE_OFFSET_HI u 0 (64 * line / 2 ^ 32)).setF
      MSC_UE_VALID u 0 1
  if n > 256 then s3.loseUnit 0 u else s3

/-- A request for a line reaches its slice (R240): whether it hits, and how many lines are dirty afterwards, is not
stated for the traffic before it, and each is a free value (DESIGN CHOICE, log entry 40). DEDUCED, log entry 145. -/
def State.sliceTouch (s : State) (line : Nat) : State :=
  let u := s.unitOf 0 (64 * line)
  let (h, s1) := s.takeFree
  let (d, s2) := s1.takeFree
  let s3 := (s2.wrap64 MSC_HITS_LO MSC_HITS_HI u (h.toNat % 2)).wrap64 MSC_MISSES_LO MSC_MISSES_HI u (1 - h.toNat % 2)
  s3.setF MSC_DIRTY_LINES u 0 (d.toNat % 1572865)

/-! ### Reading and writing lines -/

/-- The lines that bytes `o` to `o + n − 1` lie in. -/
def linesOf (o n : Nat) : List Nat :=
  if n = 0 then [] else (List.range ((o + n - 1) / 64 - o / 64 + 1)).map (· + o / 64)

/-- Reads one line (R225, R226, R229, R241, R242): DONE with data that is or was made correct, TIMEOUT of a lost unit, or
UNCORRECTABLE. DEDUCED, log entry 143. -/
def State.readLine (s : State) (tier cls line : Nat) : Status × State :=
  let u := s.unitOf tier (64 * line)
  if s.unitLost tier u then (.timeout, s)
  else
    let s1 := if tier = 0 then s.sliceTouch line else s
    if tier = 0 ∧ s1.mem.held.get false line = true then (.uncorrectable, s1)
    else
      let e := if tier = 0 then s1.mem.errS.get 0 line else 0
      if e = 2 then (.uncorrectable, s1.makeHeld line)
      else
        let s2 := if e = 1 then
            ({ s1 with mem := { s1.mem with errS := s1.mem.errS.put 0 line 0 } }).sat MSC_SLICE_CE u 0 1 else s1
        match s2.lineErr tier line with
        | 0 => (.done, s2)
        | 1 =>
          let s3 := s2.countCe tier u
          (.done, if (tier, line) ∈ s3.mem.writebacks then s3
            else { s3 with mem := { s3.mem with writebacks := s3.mem.writebacks ++ [(tier, line)] } })
        | _ => (.uncorrectable, s2.reportUe tier u cls (64 * line))

/-- The status of a first part and of what follows it: the first that is not DONE. -/
def Status.andThen (a b : Status) : Status := if a = .done then b else a

/-- Reads several lines. -/
def State.readLines (s : State) (tier cls : Nat) : List Nat → Status × State
  | [] => (.done, s)
  | l :: ls =>
    let (a, s1) := s.readLine tier cls l
    let (b, s2) := s1.readLines tier cls ls
    (a.andThen b, s2)

/-- Reads bytes of tier A or B by physical offset: the bytes count only with DONE. -/
def State.memRead (s : State) (tier cls o n : Nat) : Status × List Byte × State :=
  if s.tierSize tier < o + n then (.access, [], s)
  else
    let (st, s1) := s.readLines tier cls (linesOf o n)
    (st, if st = .done then (s.tier tier).read 0 o n else [], s1)

/-- Writes the part of a run of bytes that lies in one line (R227): a write of the whole line clears its errors; an incomplete
write needs the line read first, and leaves an uncorrectable line unchanged. -/
def State.writeLine (s : State) (tier cls line o : Nat) (bs : List Byte) : Status × State :=
  let u := s.unitOf tier (64 * line)
  let lo := max o (64 * line)
  let hi := min (o + bs.length) (64 * line + 64)
  let part := (bs.drop (lo - o)).take (hi - lo)
  let store (s : State) : State := s.putTier tier ((s.tier tier).write 0 lo part)
  if s.unitLost tier u then (.timeout, s)
  else if hi - lo = 64 then
    let s1 := if tier = 0 then s.sliceTouch line else s
    let wasHeld := decide (tier = 0) && s1.mem.held.get false line
    let s2 := s1.putErr tier line 0
    let s3 := if tier = 0 then
        { s2 with mem := { s2.mem with held := s2.mem.held.put false line false, errS := s2.mem.errS.put 0 line 0 } } else s2
    let s4 := if wasHeld then s3.setF MSC_HELD_BAD u 0 (s3.getF MSC_HELD_BAD u 0 - 1) else s3
    (.done, store s4)
  else
    let (st, s1) := s.readLine tier cls line
    if st = .done then (.done, (store s1).putErr tier line 0) else (st, s1)

/-- Writes the parts of a run of bytes line by line. -/
def State.writeLines (s : State) (tier cls o : Nat) (bs : List Byte) : List Nat → Status × State
  | [] => (.done, s)
  | l :: ls =>
    let (a, s1) := s.writeLine tier cls l o bs
    let (b, s2) := s1.writeLines tier cls o bs ls
    (a.andThen b, s2)

/-- Writes bytes of tier A or B by physical offset (R227): each line on its own. -/
def State.memWrite (s : State) (tier cls o : Nat) (bs : List Byte) : Status × State :=
  if s.tierSize tier < o + bs.length then (.access, s)
  else s.writeLines tier cls o bs (linesOf o bs.length)

/-! ### Atomics (R248) -/

/-- The bytes of the word of an atomic: AADD32 and AFADD32 act on 4 bytes (R114). -/
def amoSize (func : Nat) : Nat := if func = 1 ∨ func = 11 then 4 else 8

/-- The new memory value of an atomic. -/
def amoValue (func old opnd cmp : Nat) : Nat :=
  let so := signed 64 old
  let sb := signed 64 opnd
  match func with
  | 0 => (old + opnd) % 2 ^ 64
  | 1 => (old + opnd % 2 ^ 32) % 2 ^ 32
  | 2 => old &&& opnd
  | 3 => old ||| opnd
  | 4 => old ^^^ opnd
  | 5 => if so ≤ sb then old else opnd
  | 6 => if so ≤ sb then opnd else old
  | 7 => min old opnd
  | 8 => max old opnd
  | 9 => opnd
  | 10 => if old = cmp then opnd else old
  | _ => add32 old (opnd % 2 ^ 32)

/-- Applies an atomic at its home slice: the status, the word as it stood, and the state. -/
def State.memAmo (s : State) (cls func o opnd cmp : Nat) : Status × Nat × State :=
  let n := amoSize func
  if o % n ≠ 0 then (.access, 0, s)
  else
    let (st, bs, s1) := s.memRead 0 cls o n
    if st ≠ .done then (st, 0, s1)
    else
      let old := ofBytes bs
      let s2 := s1.putTier 0 (s1.mem.a.write 0 o (toBytes n (amoValue func old opnd cmp)))
      (.done, old, s2.wrap64 MSC_ATOMICS_LO MSC_ATOMICS_HI (s2.unitOf 0 o) 1)

/-! ### Window additions (R255, R256, R564) -/

/-- Adds converted addends to the elements of a block; an addend out of range leaves its element. -/
def addElems (w : Window) : List Nat → List (Option Int) → List Nat
  | e :: es, some i :: is => windowAddOne w e i :: addElems w es is
  | e :: es, none :: is => e :: addElems w es is
  | es, [] => es
  | [], _ => []

/-- The elements of a block from its bytes. -/
def elemsOf (size : Nat) (bs : List Byte) : List Nat :=
  (List.range (bs.length / size)).map fun i => ofBytes ((bs.drop (i * size)).take size)

/-- Reads the 64-byte lines of a block on tier A, in order. -/
def State.readChunks (s : State) : List Nat → Status × List Byte × State
  | [] => (.done, [], s)
  | o :: os =>
    let (st, bs, s1) := s.memRead 0 2 o 64
    let (st2, bs2, s2) := s1.readChunks os
    (st.andThen st2, bs ++ bs2, s2)

/-- One row addition, read and written as one operation: the physical offsets of the block's 64-byte lines, in order, the
addends, and the check sum to add to a group's accumulator, if any. The status is DONE, OVERRANGE, or why the block
could not be read. DEDUCED, log entry 135. -/
def State.addRow (s : State) (w : Window) (offs : List Nat) (addends : List (Option Int)) (group : Option Nat) (checkUnit : Nat) :
    Status × State :=
  let n := w.block
  let rd := s.readChunks offs
  let lead := s.unitOf 0 (offs.headD 0)
  if rd.1 ≠ .done then (rd.1, rd.2.2)
  else
    let old := elemsOf w.size (rd.2.1.take n)
    let new := (addElems w old addends).flatMap (toBytes w.size)
    let s1 := (offs.zip (List.range offs.length)).foldl (fun (s : State) e =>
      s.putTier 0 (s.mem.a.write 0 e.1 ((new.drop (64 * e.2)).take 64))) rd.2.2
    let ovr := addends.any Option.isNone
    let s2 := s1.wrap64 MSC_ROWS_LO MSC_ROWS_HI lead 1
    let s3 := if ovr then s2.sat MSC_OVERRANGE_ROWS lead 0 1 else s2
    let s4 := match group with
      | none => s3
      | some g =>
        let sum := addends.foldl (fun (a : Int) x => a + x.getD 0 / 2 ^ checkUnit) 0
        let k := 64 * lead + g
        { s3 with mem := { s3.mem with checks := s3.mem.checks.put 0 k (unsigned 160 ((s3.mem.checks.get 0 k : Int) + sum)) } }
    (if ovr then .overrange else .done, s4)

/-! ### Tier C (R230 to R234) -/

/-- Tier C is mounted. -/
def State.tcMounted (s : State) : Bool := decide (s.get MEM_C_STATE ≠ 0)

/-- Reads whole tier C blocks (R230, R232): the status and the bytes. -/
def State.tcRead (s : State) (port cls block n : Nat) : Status × List Byte × State :=
  match (List.range n).find? fun i => s.tierC.bad.get false (block + i) with
  | some i => (.uncorrectable, [], s.reportUe 2 port cls (block + i))
  | none => (.done, s.tierC.bytes.read 0 (4096 * block) (4096 * n), s)

/-- Counts written blocks (R233): by the hosts, and programmed in flash. -/
def State.tcCount (s : State) (host prog : Nat) : State :=
  let s1 := (s.wrap64 MEM_C_HOST_LO MEM_C_HOST_HI 0 host).wrap64 MEM_C_PROG_LO MEM_C_PROG_HI 0 prog
  s1.set MEM_LIFE_USED_BP (min 65535 (s1.get64 MEM_C_PROG_LO MEM_C_PROG_HI 0 / 2 ^ 31))

/-- Stores whole blocks: programmed, each replaced whole (R230). -/
def State.tcStore (s : State) (block : Nat) (bs : List Byte) : State :=
  { s with tierC := { s.tierC with
      bytes := s.tierC.bytes.write 0 (4096 * block) bs,
      bad := (List.range (bs.length / 4096)).foldl (fun m i => m.put false (block + i) false) s.tierC.bad } }

/-- Sends a write to the tier C controller (R230): NO_RESOURCE while it is not mounted or read-only (R234). -/
def State.tcWrite (s : State) (block : Nat) (bs : List Byte) (who : TcWaiter) : Status × State :=
  if s.get MEM_C_STATE ≠ 1 then (.noResource, s)
  else (.done, { s with tierC := { s.tierC with flying := s.tierC.flying ++ [⟨block, bs, who⟩] } })

/-- Programs the oldest write in flight (R230, R233): who waited for it, and the state. -/
def State.tcProgram (s : State) (extra : Nat) : Option (TcWaiter × State) :=
  match s.tierC.flying with
  | [] => none
  | w :: ws =>
    let s1 := ({ s with tierC := { s.tierC with flying := ws } }).tcStore w.block w.bytes
    some (w.who, s1.tcCount (w.bytes.length / 4096) (w.bytes.length / 4096 + extra))

/-- Trims blocks: they read zero and count no programming (R397). -/
def State.tcTrim (s : State) (first n : Nat) : State :=
  { s with tierC := { s.tierC with
      bytes := s.tierC.bytes.keep fun k => decide (k < 4096 * first ∨ 4096 * (first + n) ≤ k),
      bad := s.tierC.bad.keep fun k => decide (k < first ∨ first + n ≤ k) } }

/-! ### Channels and patrol -/

/-- The number of a tier among those with channels; none for tier C. -/
def tierNum : Tier → Option Nat
  | .a => some 0
  | .b => some 1
  | .c => none

/-- A request that reaches a channel (R222): behind an older one to the same line, the older one takes the higher of the
two classes. -/
def Chan.arrive (c : Chan) (cls line : Nat) : Chan :=
  { c with queue := (c.queue.map fun r => if r.line = line then { r with cls := min r.cls cls } else r) ++ [⟨cls, line, false⟩] }

/-- The requests that wait behind no older one to the same line, oldest first (R222); `seen` holds the lines of older ones. -/
def fronts (seen : List Nat) : List LineReq → List LineReq
  | [] => []
  | r :: rs => if r.line ∈ seen then fronts seen rs else r :: fronts (r.line :: seen) rs

/-- The head of a class: its oldest request that waits behind no older one to the same line. -/
def Chan.head (c : Chan) (cls : Nat) : Option LineReq :=
  (fronts [] c.queue).find? fun r => decide (r.cls = cls)

/-- The oldest promoted request. -/
def Chan.promoted (c : Chan) : Option LineReq := (c.queue.filter LineReq.promoted).head?

/-- Removes the first occurrence of a request. -/
def Chan.drop (c : Chan) (r : LineReq) : Chan := { c with queue := c.queue.erase r }

/-- Which request the rule of R221 grants, and whether it comes from the class 3 reserve. -/
def Chan.choose (c : Chan) (reserve : Nat) : Option (LineReq × Bool) :=
  match (if c.lastPromoted then none else c.promoted) with
  | some r => some (r, false)
  | none => match c.head 0 with
    | some r => some (r, false)
    | none => match (if c.used3 < reserve then c.head 3 else none) with
      | some r => some (r, true)
      | none => match c.head 1, c.head 2, c.head 3 with
        | some r, _, _ => some (r, false)
        | none, some r, _ => some (r, false)
        | none, none, some r => some (r, false)
        | none, none, none => none

/-- What the cells of a line show (R224, R241). DESIGN CHOICE, log entry 144. -/
def State.upset (s : State) (tier line : Nat) (u : Upset) : State :=
  match u with
  | .none => s
  | .corrected => s.putErr tier line (max 1 (s.lineErr tier line))
  | .uncorrectable => s.putErr tier line 2
  | .sliceCorrected => if tier = 0 then
      { s with mem := { s.mem with errS := s.mem.errS.put 0 line (max 1 (s.mem.errS.get 0 line)) } } else s
  | .sliceDirty => if tier = 0 then { s with mem := { s.mem with errS := s.mem.errS.put 0 line 2 } } else s

/-- One grant slot of a channel (R221): the request leaves its queue, and the line is read with what its cells show. A
window of 64 grants ends with RESERVE3_WINDOW_END. -/
def State.grant (s : State) (tier u ch : Nat) (arrivals : List (Fin 4 × Nat)) (e : Upset) : State :=
  let k := chanKey tier u ch
  let c := arrivals.foldl (fun (c : Chan) a => c.arrive a.1.val a.2) (s.mem.chans.get Chan.init k)
  let store (s : State) (c : Chan) : State := { s with mem := { s.mem with chans := s.mem.chans.put Chan.init k c } }
  if s.unitLost tier u ∨ u ∉ s.unitsIn tier then s
  else if c.grants ≥ 64 then store s c
  else match c.choose (s.get MEM_RESERVE3) with
  | none => store s c
  | some (r, fromReserve) =>
    let c1 := { c.drop r with
      grants := c.grants + 1, used3 := c.used3 + (if fromReserve then 1 else 0), lastPromoted := r.promoted }
    let s1 := store s c1
    let s2 := if r.promoted then s1.wrap MEM_AGED (r.cls - 1) 0 1 else s1
    let s3 := if fromReserve then s2.wrap MEM_RESERVE3_GRANTS 0 0 1 else s2
    ((s3.upset tier r.line e).readLine tier r.cls r.line).2

/-- CHANNEL_GRANT (R221, R222). DEDUCED, log entry 129. -/
def execChannelGrant (tier : Tier) (unit : Fin 16) (channel : Fin 32) (arrivals : List (Fin 4 × Nat)) (upset : Upset)
    (s : State) : Res :=
  ok (match tierNum tier with
    | none => s
    | some t => if s.ready then s.grant t unit.val channel.val arrivals upset else s)

/-- PROMOTION (R221): a request of class 1 to 3 at the head of its queue has waited its age. -/
def execPromotion (tier : Tier) (unit : Fin 16) (channel : Fin 32) (cls : Fin 4) (s : State) : Res :=
  ok (match tierNum tier with
    | none => s
    | some t =>
      let k := chanKey t unit.val channel.val
      let c := s.mem.chans.get Chan.init k
      match (if cls.val = 0 then none else c.head cls.val) with
      | none => s
      | some r =>
        let q := c.queue.map fun x => if x = r then { x with promoted := true } else x
        { s with mem := { s.mem with chans := s.mem.chans.put Chan.init k { c with queue := q } } })

/-- RESERVE3_WINDOW_END (R221): the reserve count returns to zero at the end of a window of 64 grants. -/
def execReserve3WindowEnd (tier : Tier) (unit : Fin 16) (channel : Fin 32) (s : State) : Res :=
  ok (match tierNum tier with
    | none => s
    | some t =>
      let k := chanKey t unit.val channel.val
      let c := s.mem.chans.get Chan.init k
      if c.grants < 64 then s
      else { s with mem := { s.mem with chans := s.mem.chans.put Chan.init k { c with grants := 0, used3 := 0 } } })

/-- CORRECTED_WRITEBACK (R225): the corrected line is written back, and its cells hold no error. -/
def execCorrectedWriteback (s : State) : Res :=
  ok (match s.mem.writebacks with
    | [] => s
    | (t, l) :: ws =>
      let s1 := { s with mem := { s.mem with writebacks := ws } }
      if s1.lineErr t l = 1 then s1.putErr t l 0 else s1)

/-- The correction count of a unit of a kind (R225, R241). -/
def State.ceCount (s : State) (kind u : Nat) : Nat :=
  match kind with
  | 0 => s.getF MEM_STACK_CE u 0
  | 1 => bits (s.getF MEM_CTRL_STATUS u 0) 15 0
  | 2 => s.get MEM_C_CE_TOTAL
  | _ => s.getF MSC_SLICE_CE u 0

/-- The units of a kind that count corrections. -/
def ceUnits (kind : Nat) : Nat := if kind = 1 then 16 else if kind = 2 then 1 else 12

/-- CE_RECORD_THRESHOLD (R225, R241): one MEM_CE_HIGH record for a unit whose count has reached CE_RECORD_AT since the
last warm reset; none while CE_RECORD_AT is 0. DEDUCED, log entry 147. -/
def execCeRecordThreshold (kind : Fin 4) (unit : Fin 16) (s : State) : Res :=
  let k := 16 * kind.val + unit.val
  let n := s.ceCount kind.val unit.val
  ok (if unit.val < ceUnits kind.val ∧ s.get MEM_CE_RECORD_AT ≠ 0 ∧ s.get MEM_CE_RECORD_AT ≤ n
      ∧ s.mem.ceRecorded.get false k = false then
      ({ s with mem := { s.mem with ceRecorded := s.mem.ceRecorded.put false k true } }).emit RT_MEM_CE_HIGH .data
        (if kind.val = 1 then 4 else if kind.val = 2 then 5 else 3) unit.val 0 [kind.val, n]
    else s)

/-- PATROL_READ (R228, R236): the next line of tier A, then of tier B, in class 3; PATROL_PASSES counts a whole pass. -/
def execPatrolRead (upset : Upset) (s : State) : Res :=
  let na := s.tierSize 0 / 64
  let nb := s.tierSize 1 / 64
  ok (if !s.ready || decide (s.pwr.mode ≠ .on ∨ s.get MEM_PATROL_S = 0 ∨ na + nb = 0) then s
    else
      let p := if s.mem.patrol < na + nb then s.mem.patrol else 0
      let t := if p < na then 0 else 1
      let l := if p < na then p else p - na
      let s1 := ((s.upset t l upset).readLine t 3 l).2
      let s2 := { s1 with mem := { s1.mem with patrol := if p + 1 < na + nb then p + 1 else 0 } }
      if p + 1 < na + nb then s2 else s2.wrap MEM_PATROL_PASSES 0 0 1)

/-- UNIT_LOST (R229): a unit that holds waiting requests. -/
def execUnitLost (tier : Tier) (unit : Fin 16) (s : State) : Res :=
  ok (match tierNum tier with
    | none => s
    | some t =>
      let waits := (List.range 32).any fun c => !(s.mem.chans.get Chan.init (chanKey t unit.val c)).queue.isEmpty
      if waits && decide (unit.val ∈ s.unitsIn t) then s.loseUnit t unit.val else s)

/-- WEAR_WARNING (R234): the first time LIFE_USED_BP reaches WEAR_WARN_BP. -/
def execWearWarning (s : State) : Res :=
  ok (if s.get MEM_WEAR_WARN_BP ≤ s.get MEM_LIFE_USED_BP ∧ s.tierC.warned = false ∧ s.tcMounted = true then
      ({ s with tierC := { s.tierC with warned := true } }).emit RT_TIER_C_WEAR .data 5 0 0
        [s.get MEM_LIFE_USED_BP, s.get MEM_SPARE_LEFT]
    else s)

/-- TIER_C_READONLY (R234): the spare blocks fall; at 2 % tier C becomes read-only. -/
def execTierCReadonly (spare : Fin 101) (s : State) : Res :=
  let s1 := s.set MEM_SPARE_LEFT (min spare.val (s.get MEM_SPARE_LEFT))
  ok (if s.get MEM_C_STATE = 0 then s
    else if s1.get MEM_SPARE_LEFT ≤ 2 ∧ s.get MEM_C_STATE = 1 then
      (s1.set MEM_C_STATE 2).emit RT_TIER_C_READONLY .data 5 0 0 [s1.get MEM_LIFE_USED_BP, s1.get MEM_SPARE_LEFT]
    else s1)

end Sys2Proof.Machine
end

