-- ==== Sys2Proof/Machine/Fabric.lean ====
section
/-! DEFINITION. The shared address space (R264 to R285): routes (R354), span translation (R267 to R271), import checks
(R272 to R274), fences (R469, R470), requests served here, and requests sent to other modules (R275 to R282). -/

namespace Sys2Proof.Machine

/-! ### Routes (R354, R355, R357) -/

/-- A link whose lowest lane is `l` is in UP or RETRAIN. -/
def State.linkLive (s : State) (l : Nat) : Bool :=
  decide (s.getF LNK_L_LINK_STATE l 0 = 4 ∨ s.getF LNK_L_LINK_STATE l 0 = 5)

/-- The lowest lane of a live link that reaches a partner. -/
def State.linkTo (s : State) (m : Nat) : Option Nat :=
  (List.range 192).find? fun l => s.linkLive l && decide (s.getF LNK_L_PARTNER l 0 = m)

/-- A partner is marked cut (R357): by its slot on this floor, or by the port that leads to it. -/
def State.isCut (s : State) (m : Nat) : Bool :=
  (decide (m / 32 = s.get MOD_FLOOR) && bit (s.get TOP_CUT_SLOTS) (m % 32))
  || (List.range 12).any fun p => bit (s.get TOP_CUT_PORTS) p && decide (s.getF LNK_P_EXPECTED p 0 = m)

/-- A module is reached by a live link and is not cut. -/
def State.hopOk (s : State) (m : Nat) : Bool := (s.linkTo m).isSome && !s.isCut m

/-- The next hop that a PORT code names (R355). -/
def State.hopOf (s : State) (code : Nat) : Option Nat :=
  if code < 12 then
    match (List.range 192).find? fun l => s.linkLive l && decide (s.getF LNK_P_LOGICAL (l / 16) 0 = code) with
    | some l => some (s.getF LNK_L_PARTNER l 0)
    | none => none
  else if 0x80 ≤ code ∧ code < 0xA0 ∧ s.get TOP_MODE = 0 then some (32 * s.get MOD_FLOOR + (code - 0x80))
  else none

/-- The first routing entry whose range holds a module. -/
def State.routeEntry (s : State) (m : Nat) : Option Nat :=
  (List.range (s.get TOP_ROUTE_COUNT)).find? fun i =>
    decide (s.getF TOP_RT_DEST_FIRST i 0 ≤ m ∧ m < s.getF TOP_RT_DEST_FIRST i 0 + s.getF TOP_RT_COUNT i 0)

/-- FEATURES holds DETOUR (R324, R354). -/
def State.hasDetour (s : State) : Bool := bit (s.get64 LNK_FEATURES_LO LNK_FEATURES_HI 0) 2

/-- Marks whether the last lookup of a routing entry used its ALT_PORT (R361). -/
def State.usingAlt (s : State) (i : Nat) (v : Bool) : State :=
  if s.getF TOP_RT_USING_ALT i 0 = bitOf v then s else s.setF TOP_RT_USING_ALT i 0 (bitOf v)

/-- The next hop towards a module, and the state, in which the entry looked up is marked (R354). -/
def State.route (s : State) (m : Nat) : Option Nat × State :=
  if s.hopOk m then (some m, s)
  else match s.routeEntry m with
  | none => (none, s)
  | some i =>
    match (s.hopOf (s.getF TOP_RT_PORT i 0)).filter s.hopOk with
    | some h => (some h, s.usingAlt i false)
    | none =>
      match (if s.hasDetour then (s.hopOf (s.getF TOP_RT_ALT_PORT i 0)).filter s.hopOk else none) with
      | some h => (some h, (s.usingAlt i true).sat TOP_ALT_TAKEN 0 0 1)
      | none => (none, s.usingAlt i false)

/-! ### Slots and fences -/

/-- The tables of a slot. -/
def State.slot (s : State) (i : Nat) : Slot := s.ctx.slots.get Slot.init i

/-- The state with the tables of a slot replaced. -/
def State.putSlot (s : State) (i : Nat) (x : Slot) : State :=
  { s with ctx := { s.ctx with slots := s.ctx.slots.put Slot.init i x } }

/-- A field of the admission record of a slot (R395). -/
def State.recField (s : State) (i off n : Nat) : Nat := leAt (s.slot i).record off n

/-- A slot's context is fenced (R469): its own fence, or the module's. -/
def State.fencedSlot (s : State) (i : Nat) : Bool :=
  decide (s.get HNG_MODULE_FENCED = 1) || bit (s.get HNG_FENCED_SLOTS) i

/-- The context that owns a page of a tier. -/
def State.ownerOf (s : State) (tier page : Nat) : Option Nat :=
  if tier = 0 then s.ctx.ownerA.find page else s.ctx.ownerB.find page

/-- Gives the pages of the bulk capture area to context 0 (R468): every tier B page that context 0 owns is one of them, and
each write of BULK_PAGES replaces the area (DEDUCED, log entry 77). -/
def State.giveBulk (s : State) : State :=
  let n := s.get HNG_BULK_PAGES
  let others : SMap Nat := s.ctx.ownerB.filter fun e => decide (e.2 ≠ 0)
  let own := (List.range n).foldl (fun (m : SMap Nat) i => m.insert (s.get HNG_BULK_PAGE_FIRST + i) 0) others
  ({ s with ctx := { s.ctx with ownerB := own } }).setF CTX_S_PAGES_B 0 0 n

/-- The effect of a write to BULK_PAGES (R468): 0 when a page of the area belongs to another context or does not exist. -/
def State.bulkPages (s : State) (v : Nat) : State :=
  let n := v % 4096
  let first := s.get HNG_BULK_PAGE_FIRST
  let bad := (List.range n).any fun i => match s.ownerOf 1 (first + i) with
    | some c => decide (c ≠ 0)
    | none => decide (s.tierSize 1 < 2 ^ 21 * (first + i + 1))
  (s.set HNG_BULK_PAGES (if bad then 0 else n)).giveBulk

/-- A page is fenced: with its owner, or by a re-binding that moves it (R400). -/
def State.fencedPage (s : State) (tier page : Nat) : Bool :=
  s.ctx.fenced.get false (page + 2 ^ 20 * tier)
  || (match s.ownerOf tier page with
      | none => decide (s.get HNG_MODULE_FENCED = 1)
      | some c => match s.slotOf c with
        | some i => s.fencedSlot i
        | none => decide (s.get HNG_MODULE_FENCED = 1))

/-! ### Import checks (R272 to R274) -/

/-- The kinds of request an import entry admits (R272). -/
inductive Kind where
  | load | store | atomic | window | control
deriving DecidableEq, Repr

/-- The number of a kind in IMP_KIND and its bit among the rights. -/
def Kind.num : Kind → Nat
  | .load => 0 | .store => 1 | .atomic => 2 | .window => 3 | .control => 4

/-- An import entry admits a source, a context, a kind and a space. -/
def importAdmits (e : List Byte) (src ctx space : Nat) (k : Kind) : Bool :=
  let first := leAt e 0 2
  decide (leAt e 2 2 ≠ 0 ∧ first ≤ src ∧ src < first + leAt e 2 2)
    && decide (leAt e 4 2 = 0xFFFF ∨ leAt e 4 2 = ctx) && bit (leAt e 6 1) k.num && bit (leAt e 7 1) space

/-- Whether the owner of a page admits a request (R273, R274). -/
def State.admits (s : State) (src ctx tier owner : Nat) (k : Kind) : Bool :=
  if src = s.get FAB_MODULE_ID ∧ ctx = owner then true
  else if owner = 0 then decide (k = .load ∨ k = .store) && s.ctx0Admits src tier
  else match s.slotOf owner with
    | none => false
    | some i => (s.slot i).imports.any fun e => importAdmits e src ctx tier k

/-- Counts and captures a refused request (R273). DEDUCED, log entry 82. -/
def State.refuseIn (s : State) (src ctx space off owner : Nat) (k : Kind) : State :=
  let s1 := s.sat FAB_ACCESS_IN 0 0 1
  if s1.get FAB_IMP_VALID = 1 then s1
  else
    let s2 := ((s1.set FAB_IMP_SRC_MODULE src).set FAB_IMP_KIND k.num).set FAB_IMP_SPACE space
    let s3 := ((s2.set FAB_IMP_SRC_CONTEXT ctx).set FAB_IMP_OWNER owner).set FAB_IMP_OFFSET_LO (off % 2 ^ 32)
    (s3.set FAB_IMP_OFFSET_HI (off / 2 ^ 32)).set FAB_IMP_VALID 1

/-- The pages that bytes lie in. -/
def pagesOf (o n : Nat) : List Nat :=
  if n = 0 then [] else (List.range ((o + n - 1) / 2 ^ 21 - o / 2 ^ 21 + 1)).map (· + o / 2 ^ 21)

/-- The checks a request for tier A or B meets at its destination, in order: the range, the fence (R29), and per page the
owner and its import table. -/
def State.guard (s : State) (src ctx tier o n : Nat) (k : Kind) : Status × State :=
  if s.tierSize tier < o + n then (.access, s)
  else if (pagesOf o n).any fun p => s.fencedPage tier p then (.fenced, s)
  else
    match (pagesOf o n).find? fun p => match s.ownerOf tier p with
      | none => true
      | some c => !s.admits src ctx tier c k with
    | none => (.done, s)
    | some p => (.access, s.refuseIn src ctx tier o ((s.ownerOf tier p).getD 0xFFFF) k)

/-! ### Translation (R267 to R271) -/

/-- The fields of a span entry (R267). -/
structure Span where
  first  : Nat
  pages  : Nat
  rights : Nat
  base   : Nat
deriving DecidableEq, Repr

/-- A span entry from its 32 bytes. -/
def spanOf (e : List Byte) : Span := ⟨leAt e 0 8, leAt e 8 4, leAt e 12 1, leAt e 16 8⟩

/-- A context address lies in a span. -/
def Span.holds (x : Span) (a : Nat) : Bool := decide (x.first ≤ a ∧ a < x.first + 2 ^ 21 * x.pages)

/-- The physical offset of entry i of a slot's span table. -/
def State.spanAt (s : State) (slot i : Nat) : Nat := s.recField slot 24 8 + 32 * i

/-- The entry of a slot's span table, as tier A holds it now, that holds an address (DEDUCED, log entry 41). -/
def State.spanSearch (s : State) (slot a : Nat) : Option Nat :=
  (List.range (s.recField slot 108 2)).find? fun i => (spanOf (s.mem.a.read 0 (s.spanAt slot i) 32)).holds a

/-- The cached entry of a slot that holds an address. -/
def cacheFind (c : List (Nat × List Byte)) (slot a : Nat) : Option (Nat × List Byte) :=
  c.find? fun e => decide (e.1 = slot) && (spanOf e.2).holds a

/-- Translates through a die's cache, filling it on a miss (R271): the span, or the status of the failed access. -/
def State.xlate (s : State) (die slot a : Nat) : Status × Option Span × State :=
  let c := s.fab.xlate.getD die []
  let put (s : State) (l : List (Nat × List Byte)) : State := { s with fab := { s.fab with xlate := listSet s.fab.xlate die l } }
  match cacheFind c slot a with
  | some e => (.done, some (spanOf e.2), put s (e :: c.erase e))
  | none =>
    let s1 := s.wrap FAB_XLATE_MISSES 0 0 1
    match s1.spanSearch slot a with
    | none => (.access, none, s1)
    | some i =>
      let (st, bs, s2) := s1.memRead 0 0 (s1.spanAt slot i) 32
      if st = .done then (.done, some (spanOf bs), put s2 (((slot, bs) :: c).take 1024)) else (st, none, s2)

/-- Empties the entries of a slot in every die's cache. -/
def State.xlateEmpty (s : State) (slot : Nat) : State :=
  { s with fab := { s.fab with xlate := s.fab.xlate.map fun c => c.filter fun e => decide (e.1 ≠ slot) } }

/-- The rights of a span (R267). -/
inductive Right where
  | r | w | a | x
deriving DecidableEq, Repr

/-- The bit of a right. -/
def Right.bit : Right → Nat
  | .r => 0 | .w => 1 | .a => 2 | .x => 3

/-- A fabric address by its fields (R264). -/
structure FabAddr where
  module : Nat
  space  : Nat
  off    : Nat
deriving DecidableEq, Repr

/-- Where a context address leads (R265, R269): the status of a refusal at the source, or the fabric address and how many
bytes follow it in the span. A refusal with ACCESS counts in ACCESS_OUT. -/
def State.resolve (s : State) (die slot a : Nat) (right : Right) : Status × FabAddr × Nat × State :=
  let (st, sp, s1) := s.xlate die slot a
  match sp with
  | none => (st, ⟨0, 0, 0⟩, 0, if st = .access then s1.sat FAB_ACCESS_OUT 0 0 1 else s1)
  | some x =>
    let f := x.base + (a - x.first)
    let fa : FabAddr := ⟨bits f 61 50, bits f 49 48, f % 2 ^ 48⟩
    let left := x.first + 2 ^ 21 * x.pages - a
    if !bit x.rights right.bit then (.access, fa, left, s1.sat FAB_ACCESS_OUT 0 0 1)
    else if f / 2 ^ 62 ≠ 0 then (.version, fa, left, s1)
    else if fa.space = 3 then (.access, fa, left, s1.sat FAB_ACCESS_OUT 0 0 1)
    else (.done, fa, left, s1)

/-! ### Requests served on this module -/

/-- The module's own ID. -/
def State.self (s : State) : Nat := s.get FAB_MODULE_ID

/-- Serves a read of tier A or B (R273). -/
def State.serveRead (s : State) (src ctx tier cls o n : Nat) : Status × List Byte × State :=
  let (st, s1) := s.guard src ctx tier o n .load
  if st = .done then s1.memRead tier cls o n else (st, [], s1)

/-- Serves a write of tier A or B (R273). -/
def State.serveWrite (s : State) (src ctx tier cls o : Nat) (bs : List Byte) : Status × State :=
  let (st, s1) := s.guard src ctx tier o bs.length .store
  if st = .done then s1.memWrite tier cls o bs else (st, s1)

/-- Serves an atomic: only on tier A (R248). -/
def State.serveAmo (s : State) (src ctx tier cls func o opnd cmp : Nat) : Status × Nat × State :=
  if tier ≠ 0 then (.access, 0, s)
  else
    let (st, s1) := s.guard src ctx 0 o (amoSize func) .atomic
    if st = .done then s1.memAmo cls func o opnd cmp else (st, 0, s1)

/-! ### Requests sent (R275 to R282) -/

/-- A context's pair with a destination on a VC (R278) is closed (R282). DEDUCED, log entry 105. -/
def State.pairClosed (s : State) (ctx dest vc : Nat) : Bool := decide ((ctx, 8 * dest + vc) ∈ s.fab.closed)

/-- Closes a pair. -/
def State.closePair (s : State) (ctx dest vc : Nat) : State :=
  if s.pairClosed ctx dest vc then s
  else
    let s1 := { s with fab := { s.fab with closed := (ctx, 8 * dest + vc) :: s.fab.closed } }
    s1.set FAB_CLOSED_PAIRS (min 0xFFFF s1.fab.closed.length)

/-- Reopens the pairs of a context. -/
def State.openPairs (s : State) (ctx : Nat) : State :=
  let s1 := { s with fab := { s.fab with closed := s.fab.closed.filter fun p => decide (p.1 ≠ ctx) } }
  s1.set FAB_CLOSED_PAIRS (min 0xFFFF s1.fab.closed.length)

/-- The requests outstanding on a pair. -/
def State.onPair (s : State) (dest vc : Nat) : Nat :=
  (s.fab.sent.filter fun x => decide (x.dest = dest ∧ x.vc = vc)).length

/-- The feature a request needs on the link it takes (R325, R326). -/
def ReqOp.feature : ReqOp → Option Nat
  | .amo .. => some 10
  | .ctlLoad | .ctlStore _ => some 11
  | .writeBlock _ | .fill _ _ => some 7
  | _ => none

/-- A link to a next hop has a feature negotiated; VC0 of a two-network arrangement takes no link (R360). -/
def State.hopHas (s : State) (hop vc b : Nat) : Bool :=
  (decide (vc = 0 ∧ s.get TOP_NETWORKS = 2))
  || (match s.linkTo hop with
      | some l => bit (s.get64 LNK_L_NEG_FEATURES_LO LNK_L_NEG_FEATURES_HI l) b
      | none => false)

/-- The flits of a message with some bytes of data behind its header of `h` bytes (R329). -/
def flitsOf (h data : Nat) : Nat := max 1 ((h + data + 231) / 232)

/-- The data bytes a request carries. -/
def ReqOp.dataLen : ReqOp → Nat
  | .writeBlock bs => bs.length
  | .windowAdd _ _ _ bs => bs.length
  | _ => 0

/-- Sends a request (R278): none while 1,024 are outstanding on the pair (R279); PEER_LOST on a closed pair, to a cut module
or without a route (R265, R282, R357), VERSION on a link that lacks the feature it needs (R326). VC0 of a two-network
arrangement needs no optical route (R360). DEDUCED, log entry 106. DEDUCED, log entry 107. -/
def State.send (s : State) (dest vc ctx addr : Nat) (fa : FabAddr) (op : ReqOp) (w : Waiter)
    (key : Nat) : Option (Status × State) :=
  if s.pairClosed ctx dest vc || s.isCut dest then some (.peerLost, s)
  else
    let (hop, s1) := if vc = 0 ∧ s.get TOP_NETWORKS = 2 then (some dest, s) else s.route dest
    match hop with
    | none => some (.peerLost, s1.sat TOP_NO_ROUTE 0 0 (flitsOf 40 op.dataLen))
    | some h =>
      if (match op.feature with
          | some b => !s1.hopHas h vc b
          | none => false) then some (.version, s1)
      else if 1024 ≤ s1.onPair dest vc then none
      else
        let (n, s2) := s1.e2e dest vc
        let s3 := { s2 with fab := { s2.fab with sent := s2.fab.sent ++ [Sent.mk dest vc n ctx addr op w key] } }
        some (.done, s3.post n (.request dest vc n (s.fab.epochs.get 0 dest) ctx fa.space fa.off op))

end Sys2Proof.Machine
end

