-- ==== Sys2Proof/Machine/Journal.lean ====
section
/-! DEFINITION. What other families need of the journal (R436 to R443): recording an input of a journalled step, and, while
a replay runs, taking the recorded input instead. -/

namespace Sys2Proof.Machine

/-- The journal records the context of a slot now (R436). -/
def State.journals (s : State) (slot : Nat) : Bool :=
  s.enc.active && decide (s.get ENC_JRN_STATE = 1 ∧ s.get ENC_JRN_SLOT = slot) && !s.enc.stopped

/-- The bytes a record takes in the ring: 64-byte boundaries (R438). -/
def JRec.size (r : JRec) : Nat := (32 + r.data.length + 63) / 64 * 64

/-- The bytes staged. -/
def State.stagedBytes (s : State) : Nat := s.enc.staged.foldl (fun n r => n + r.size) 0

/-- The staging area has no room: inputs of the journalled context wait (R440). -/
def State.journalFull (s : State) (slot : Nat) : Bool := s.journals slot && decide (2 ^ 26 ≤ s.stagedBytes)

/-- Records an input of a journalled step (R438). -/
def State.journal (s : State) (slot type key addr : Nat) (data : List Byte) : State :=
  if s.journals slot then
    { s with enc := { s.enc with
        ordinal := s.enc.ordinal + 1,
        staged := s.enc.staged ++ [⟨type, s.enc.attempt, 0, s.getF CTX_S_STEP_NO slot 0, s.enc.ordinal, key, addr, data⟩] } }
  else s

/-- A replay of the context of a slot runs and has reached its first step (R443). -/
def State.replaying (s : State) (slot : Nat) : Bool :=
  s.enc.replay.isSome && s.enc.reached && decide (s.get ENC_JRN_SLOT = slot)

/-- Removes the first record that satisfies a test. -/
def takeFirst {α : Type} (p : α → Bool) : List α → Option (α × List α)
  | [] => none
  | x :: xs => if p x then some (x, xs) else (takeFirst p xs).map fun y => (y.1, x :: y.2)

/-- The write-kind types of R439. -/
def writeKind (t : Nat) : Bool := decide (t = 0x02 ∨ t = 0x03 ∨ t = 0x04)

/-- The next unconsumed record of a type and key in the current attempt: the write-kind records that stand before it, and the
record; both leave the replay (R443). -/
def State.replayTake (s : State) (type key : Nat) : Option (List JRec × JRec × State) :=
  match s.enc.replay with
  | none => none
  | some rs =>
    match takeFirst (fun r : JRec => decide (r.type = type ∧ r.key = key)) (rs.takeWhile fun r => decide (r.type ≠ 0x0B)) with
    | none => none
    | some (r, _) =>
      let before := rs.takeWhile fun x => decide (x ≠ r)
      let writes := before.filter fun x => writeKind x.type
      let rest := (before.filter fun x => !writeKind x.type) ++ rs.drop (before.length + 1)
      some (writes, r, { s with enc := { s.enc with replay := some rest } })

/-- A replay is over with a state and a result (R448). -/
def State.replayEnd (s : State) (rs : Nat) (st : Status) : State :=
  let s1 := { s with enc := { s.enc with replay := none, reached := false } }
  let s2 := ((s1.set ENC_BUSY 0).set ENC_RESULT st.num).set ENC_REPLAY_STATE rs
  s2.set ENC_JRN_STATE (s2.get ENC_JRN_ENABLE)

/-- The next remote request number of a set (R439). -/
def State.nextReq (s : State) (routine : Nat) : Nat × State :=
  let n := s.enc.reqNo.get 0 routine
  (n, { s with enc := { s.enc with reqNo := s.enc.reqNo.put 0 routine (n + 1) } })

/-- The key of a RESPONSE record (R439). -/
def respKey (routine req : Nat) : Nat := routine % 1024 + 1024 * (req % 2 ^ 32)

/-- The 40-byte header of a message (R329). -/
def msgHeader (op status ctx arg expIndex addr length reqSeq operand compare : Nat) : List Byte :=
  toBytes 1 op ++ toBytes 1 status ++ toBytes 2 ctx ++ toBytes 1 arg ++ toBytes 1 0 ++ toBytes 2 expIndex ++ toBytes 8 addr
  ++ toBytes 4 length ++ toBytes 2 reqSeq ++ toBytes 2 0 ++ toBytes 8 operand ++ toBytes 8 compare

end Sys2Proof.Machine
end

