-- ==== Sys2Proof/Machine/SetBase.lean ====
section
/-! DEFINITION. Sets: their registers, counters and set memory (R71 to R77, R92 to R95), set addresses (R112), the
completion of queued work (R139), the end of rounds (R383, R387), stopping faults and context faults (R101, R481). -/

namespace Sys2Proof.Machine

/-! ### State of a set -/

/-- A set, by physical number. -/
def State.setSt (s : State) (n : Nat) : SetState := s.sets.get SetState.init n

/-- The state with a set replaced. -/
def State.putSet (s : State) (n : Nat) (x : SetState) : State := { s with sets := s.sets.put SetState.init n x }

/-- The die of a set (R20). -/
def dieOf (n : Nat) : Nat := n / 192

/-- The arrays of a set in service, as a mask (ARR_OK of R102). -/
def State.arrOk (s : State) (n : Nat) : Nat := (s.setUnit n).arrOk

/-- The arrays of a set in service, lowest first. -/
def State.arraysOf (s : State) (n : Nat) : List Nat := setBitsOf 4 (s.arrOk n)

/-- A scalar register: s0 reads as zero (R71). -/
def SetState.reg (x : SetState) (r : Nat) : BitVec 64 := if r = 0 then 0 else x.regs.get 0 r

/-- Writes a scalar register: a write to s0 is discarded (R71). -/
def SetState.setReg (x : SetState) (r : Nat) (v : BitVec 64) : SetState :=
  if r = 0 then x else { x with regs := x.regs.put 0 r v }

/-- A lane of a vector register. -/
def SetState.lane (x : SetState) (r i : Nat) : Word := x.v.get 0 (64 * r + i)

/-- A predicate. -/
def SetState.pred (x : SetState) (r : Nat) : BitVec 128 := x.p.get 0 r

/-- A counter. -/
def SetState.counter (x : SetState) (k : Nat) : BitVec 64 := x.c.get 0 k

/-- Ends a wait whose condition holds (R92, R94). -/
def SetState.wake (x : SetState) : SetState :=
  match x.wait with
  | some (k, v) => if v.ule (x.counter k) && decide (x.run = .waiting) then { x with run := .running, wait := none } else x
  | none => x

/-- Sets a counter and wakes the control core. -/
def SetState.setCounter (x : SetState) (k : Nat) (v : BitVec 64) : SetState := ({ x with c := x.c.put 0 k v }).wake

/-- The context of a slot. -/
def State.ctxOf (s : State) (slot : Nat) : Nat := s.getF CTX_S_CONTEXT slot 0

/-- The tables of a slot hold the set that serves a routine set. A set number of 1,024 + r in queued work stands for
routine set r: work of a set that a switch has saved is given this number, and finds the set wherever it runs next. -/
def State.homeOf (s : State) (slot n : Nat) : Nat :=
  if n < 1024 then n else ((s.slot slot).setMap.find (n - 1024)).getD n

/-- The routine set a set number of queued work stands for. -/
def State.routineOf (s : State) (n : Nat) : Nat := if n < 1024 then (s.setSt n).routine else n - 1024

/-- The state of a set that a context owns in a slot: live, or saved while the set is lent or moved (R400, R405). -/
def State.ownSet (s : State) (slot n : Nat) : Option SetState :=
  let m := s.homeOf slot n
  let x := s.setSt m
  if m < 1024 ∧ x.slot = slot ∧ x.run ≠ .unbound then some x
  else if 1024 ≤ m ∨ x.lentFrom = some slot then (s.slot slot).saved.find (s.routineOf n) else none

/-- Replaces it. -/
def State.putOwn (s : State) (slot n : Nat) (y : SetState) : State :=
  let m := s.homeOf slot n
  let x := s.setSt m
  if m < 1024 ∧ x.slot = slot ∧ x.run ≠ .unbound then s.putSet m y
  else if 1024 ≤ m ∨ x.lentFrom = some slot then
    let i := s.slot slot
    if (i.saved.find (s.routineOf n)).isSome then s.putSlot slot { i with saved := i.saved.insert (s.routineOf n) y } else s
  else s

/-- Adds to a counter of the context of a slot on a set, modulo 2^64 (R92): on a set lent to a guest the owner's
counters are in the second bank (R405). An add of zero changes nothing (R93). -/
def State.counterAdd (s : State) (slot n k : Nat) (v : BitVec 64) : State :=
  let m := s.homeOf slot n
  let x := s.setSt m
  if m < 1024 ∧ x.lentFrom = some slot then s.putSet m { x with ownerC := x.ownerC.put 0 k (x.ownerC.get 0 k + v) }
  else match s.ownSet slot n with
    | some y => s.putOwn slot n (y.setCounter k (y.counter k + v))
    | none => s

/-! ### Set memory (R73, R76) -/

/-- The bytes of set memory. -/
def setMemBytes : Nat := 1572864

/-- The 8-byte words that bytes lie in. -/
def wordsOf (a n : Nat) : List Nat := if n = 0 then [] else (List.range ((a + n - 1) / 8 - a / 8 + 1)).map (· + a / 8)

/-- Counts corrected set memory errors. -/
def SetState.fixed (x : SetState) (n : Nat) : SetState := { x with eccFixed := min (2 ^ 32 - 1) (x.eccFixed + n) }

/-- Corrects the single-bit errors of some words in place. -/
def SetState.correct (x : SetState) (ws : List Nat) : SetState :=
  let bad := ws.filter fun w => decide (x.err.get 0 w = 1)
  ({ x with err := bad.foldl (fun m w => m.put 0 w 0) x.err }).fixed bad.length

/-- Reads set memory: ACCESS at or above 0x18_0000, UNCORRECTABLE with a double-bit error. -/
def SetState.read (x : SetState) (a n : Nat) : Status × List Byte × SetState :=
  if setMemBytes < a + n then (.access, [], x)
  else
    let ws := wordsOf a n
    let x1 := x.correct ws
    if ws.any fun w => decide (x.err.get 0 w = 2) then (.uncorrectable, [], x1) else (.done, x.mem.read 0 a n, x1)

/-- Writes the part of a run of bytes that lies in one word (R76). -/
def SetState.writeWord (x : SetState) (a : Nat) (bs : List Byte) (w : Nat) : Status × SetState :=
  let lo := max a (8 * w)
  let hi := min (a + bs.length) (8 * w + 8)
  let part := (bs.drop (lo - a)).take (hi - lo)
  let st (x : SetState) : SetState := { x with mem := x.mem.write 0 lo part }
  if hi - lo = 8 then (.done, st { x with err := x.err.put 0 w 0 })
  else match x.err.get 0 w with
  | 0 => (.done, st x)
  | 1 => (.done, st (x.correct [w]))
  | _ => (.uncorrectable, x)

/-- Writes words one by one. -/
def SetState.writeWords (x : SetState) (a : Nat) (bs : List Byte) : List Nat → Status × SetState
  | [] => (.done, x)
  | w :: ws =>
    let (p, x1) := x.writeWord a bs w
    let (q, x2) := x1.writeWords a bs ws
    (p.andThen q, x2)

/-- Writes set memory. -/
def SetState.write (x : SetState) (a : Nat) (bs : List Byte) : Status × SetState :=
  if setMemBytes < a + bs.length then (.access, x) else x.writeWords a bs (wordsOf a bs.length)

/-- Reads the set memory of a set. -/
def State.smRead (s : State) (n a k : Nat) : Status × List Byte × State :=
  let (st, bs, x) := (s.setSt n).read a k
  (st, bs, s.putSet n x)

/-- Writes the set memory of a set. -/
def State.smWrite (s : State) (n a : Nat) (bs : List Byte) : Status × State :=
  let (st, x) := (s.setSt n).write a bs
  (st, s.putSet n x)

/-! ### Set addresses (R77, R112) -/

/-- What a set address names. -/
inductive Place where
  | ctx (a : Nat)
  | sm (set a : Nat)
  | bad
deriving DecidableEq, Repr

/-- Decodes a set address as the set numbered `n` uses it. -/
def SetState.place (x : SetState) (n addr : Nat) : Place :=
  match addr / 2 ^ 62 with
  | 0 => if addr / 2 ^ 56 = 0 then .ctx addr else .bad
  | 1 => if bits addr 61 21 = 0 then .sm n (addr % 2 ^ 21) else .bad
  | 2 =>
    if bits addr 61 25 ≠ 0 ∨ x.crewSize ≤ bits addr 24 21 then .bad
    else match x.crew[bits addr 24 21]? with
      | some m => .sm m (addr % 2 ^ 21)
      | none => .bad
  | _ => .bad

/-- The set address of a local address (R112). -/
def localAddr (a : Nat) : Nat := 2 ^ 62 + a

/-- Where an access of a set leads: set memory, this module's tiers, another module, or nowhere. -/
inductive Target where
  | sm (set a : Nat)
  | here (tier off : Nat)
  | away (fa : FabAddr)
  | no (st : Status)
deriving DecidableEq, Repr

/-- Resolves a set address for an access of a set with a right (R112, R265, R269). Requests issued for a fenced context
complete with FENCED (R469). DEDUCED, log entry 42. -/
def State.target (s : State) (n addr : Nat) (right : Right) : Target × Nat × State :=
  let x := s.setSt n
  match x.place n addr with
  | .bad => (.no .access, 0, s)
  | .sm m a => (.sm m a, setMemBytes - a, s)
  | .ctx a =>
    if s.fencedSlot x.slot then (.no .fenced, 0, s)
    else
      let (st, fa, left, s1) := s.resolve (dieOf n) x.slot a right
      if st ≠ .done then (.no st, left, s1)
      else if fa.space = 2 then (.no .access, left, s1)
      else if fa.module = s1.self then (.here fa.space fa.off, left, s1)
      else (.away fa, left, s1)

/-- Reads bytes through a resolved target on this module. -/
def State.readTarget (s : State) (n cls : Nat) (t : Target) (k : Nat) : Status × List Byte × State :=
  match t with
  | .sm m a => s.smRead m a k
  | .here tier off => s.serveRead s.self (s.ctxOf (s.setSt n).slot) tier cls off k
  | .away _ => (.access, [], s)
  | .no st => (st, [], s)

/-- Writes bytes through a resolved target on this module. -/
def State.writeTarget (s : State) (n cls : Nat) (t : Target) (bs : List Byte) : Status × State :=
  match t with
  | .sm m a => s.smWrite m a bs
  | .here tier off => s.serveWrite s.self (s.ctxOf (s.setSt n).slot) tier cls off bs
  | .away _ => (.access, s)
  | .no st => (st, s)

/-- Reads a run of bytes on this module that may cross spans: each part is translated on its own (R269). An address that
leads to another module completes with ACCESS (R270). `fuel` bounds the parts. -/
def State.readRun (s : State) (n cls : Nat) : Nat → Nat → Nat → Status × List Byte × State
  | 0, _, _ => (.access, [], s)
  | fuel + 1, addr, k =>
    if k = 0 then (.done, [], s)
    else
      let (t, left, s1) := s.target n addr .r
      let m := min k (max left 1)
      let (st, bs, s2) := s1.readTarget n cls t m
      if st ≠ .done then (st, [], s2)
      else
        let (st2, bs2, s3) := s2.readRun n cls fuel (addr + m) (k - m)
        (st2, bs ++ bs2, s3)

/-- Writes a run of bytes on this module that may cross spans. -/
def State.writeRun (s : State) (n cls : Nat) : Nat → Nat → List Byte → Status × State
  | 0, _, _ => (.access, s)
  | fuel + 1, addr, bs =>
    if bs.isEmpty then (.done, s)
    else
      let (t, left, s1) := s.target n addr .w
      let m := min bs.length (max left 1)
      let (st, s2) := s1.writeTarget n cls t (bs.take m)
      if st ≠ .done then (st, s2) else s2.writeRun n cls fuel (addr + m) (bs.drop m)

/-! ### Completion of queued work (R139) -/

/-- Writes bytes into the set memory that belongs to a context on a set: the live one, or the saved copy. -/
def State.ownerWrite (s : State) (slot n a : Nat) (bs : List Byte) : State :=
  match s.ownSet slot n with
  | some y => s.putOwn slot n (y.write a bs).2
  | none => s

/-- Completes a descriptor: STATUS into the owner's copy, and INCREMENT to its counter unless the status stops the set. -/
def State.complete (s : State) (slot owner addr statusOff counter inc status : Nat) : State :=
  let s1 := s.ownerWrite slot owner (addr + statusOff) (toBytes 1 status)
  if (Status.ofNum status).stops then s1 else s1.counterAdd slot owner counter (BitVec.ofNat 64 inc)

/-! ### Groups and the end of rounds (R363, R383, R386, R387) -/

/-- A round group. -/
def State.group (s : State) (g : Nat) : Group := s.groups.get Group.init g

/-- The state with a group replaced; QUEUED follows its queue. -/
def State.putGroup (s : State) (g : Nat) (x : Group) : State :=
  ({ s with groups := s.groups.put Group.init g x }).setF RND_G_QUEUED g 0 x.queue.length

/-- The sizes of a group's axes: those beyond AXES count as 1 (R363). -/
def State.axisSizes (s : State) (g : Nat) : List Nat :=
  let f := [RND_E_AXIS0_SIZE, RND_E_AXIS1_SIZE, RND_E_AXIS2_SIZE, RND_E_AXIS3_SIZE]
  (List.range 4).map fun k => if k < s.getF RND_E_AXES g 0 then s.getF (f.getD k RND_E_AXIS0_SIZE) g 0 else 1

/-- The members of a group in all. -/
def State.memberCount (s : State) (g : Nat) : Nat := (s.axisSizes g).foldl (· * ·) 1

/-- The module ID of member i (R363), read from the list on this module. -/
def State.member (s : State) (g i : Nat) : Nat :=
  match s.slotOf (s.getF RND_E_CONTEXT g 0) with
  | none => 0
  | some slot =>
    let (st, fa, _, s1) := s.resolve 0 slot (s.get64 RND_E_MEMBERS_ADDR_LO RND_E_MEMBERS_ADDR_HI g + 2 * i) .r
    if st = .done ∧ fa.space = 0 then ofBytes (s1.mem.a.read 0 fa.off 2) else 0

/-- A group is enabled (R364): VALID, no size below AXES zero, chunk blocks and buffer bytes not zero. -/
def State.groupOn (s : State) (g : Nat) : Bool :=
  decide (s.getF RND_E_VALID g 0 = 1 ∧ s.memberCount g ≠ 0 ∧ s.getF RND_E_CHUNK_BLOCKS g 0 ≠ 0 ∧ s.getF RND_E_BUF_BYTES g 0 ≠ 0)

/-- The 48-byte header of a part (R376). -/
def partHeader (op flags groupId job version tag rseq axis part stepT chunk total blocks first beta0 fmt status stepNo : Nat) :
    List Byte :=
  toBytes 1 op ++ toBytes 1 flags ++ toBytes 2 groupId ++ toBytes 4 job ++ toBytes 2 version ++ toBytes 2 tag
  ++ toBytes 4 rseq ++ toBytes 1 axis ++ toBytes 1 part ++ toBytes 2 stepT ++ toBytes 4 chunk ++ toBytes 4 total
  ++ toBytes 4 blocks ++ toBytes 4 first ++ toBytes 1 beta0 ++ toBytes 1 fmt ++ toBytes 2 status ++ toBytes 4 stepNo
  ++ toBytes 4 0

/-- The step flags a member's messages carry (R375). -/
def State.stepFlags (s : State) (slot : Nat) : Nat :=
  s.getF CTX_S_STEP_OVERRANGE slot 0 + 2 * s.getF CTX_S_STEP_ABORT slot 0

/-- Sends ABORT with a status to every other member of a group (R383); nothing leaves while its context replays. -/
def State.sendAbort (s : State) (g slot : Nat) (origin : Nat) (st : Status) : State :=
  if s.replaying slot then s
  else (List.range (s.memberCount g)).foldl (fun s i =>
    if i = s.getF RND_E_SELF g 0 then s
    else s.postMsg (s.member g i) 4 (.round (s.member g i) 4
      (partHeader 0x23 (s.stepFlags slot) (s.getF RND_E_GROUP_ID g 0) (s.getF RND_E_JOB g 0) (s.getF RND_E_VERSION g 0)
        (s.getF RND_G_TAG g 0) (s.getF RND_G_RSEQ g 0) (s.getF RND_G_AXIS g 0) 0 (s.getF RND_G_RING_STEP g 0) origin 0 0 0 0 0
        st.num (s.getF CTX_S_STEP_NO slot 0)) [])) s

/-- Completes a round descriptor with a status (R387): the copy's STATUS byte is byte 5. -/
def State.completeRound (s : State) (d : RoundDesc) (st : Nat) : State :=
  s.complete d.slot d.set d.addr 5 (leAt d.desc 6 1 % 64) (leAt d.desc 48 2) st

/-- Ends the round in progress of a group with a status that does not stop its set. RSEQ passes on (R385). -/
def State.endRound (s : State) (g : Nat) (st : Status) (newState : Nat) : State :=
  let x := s.group g
  match x.run with
  | none => s.setF RND_G_STATE g 0 newState
  | some r =>
    let s1 := (s.putGroup g { x with run := none }).completeRound r.desc st.num
    let s2 := (s1.setF RND_G_LAST_STATUS g 0 st.num).setF RND_G_STATE g 0 newState
    s2.setF RND_G_RSEQ g 0 ((s2.getF RND_G_RSEQ g 0 + 1) % 2 ^ 32)

/-- Completes every queued round of a group with a status. -/
def State.flushQueue (s : State) (g : Nat) (st : Status) : State :=
  let x := s.group g
  x.queue.foldl (fun s d => s.completeRound d st.num) (s.putGroup g { x with queue := [] })

/-- The enabled groups of a context. -/
def State.groupsOf (s : State) (slot : Nat) : List Nat :=
  (List.range 64).filter fun g => s.groupOn g && decide (s.getF RND_E_CONTEXT g 0 = s.ctxOf slot)

/-- Ends the rounds of a context with ABORTED and sends ABORT carrying ABORTED (R471, R481). -/
def State.abortRounds (s : State) (slot : Nat) : State :=
  (s.groupsOf slot).foldl (fun s g =>
    if (s.group g).run.isSome then
      (s.sendAbort g slot (s.getF RND_E_SELF g 0) .aborted).endRound g .aborted 3
    else s) s

/-! ### Guests (R405 to R407) -/

/-- A command of the CTX block moves a set. -/
def State.moves (s : State) (n : Nat) : Bool := match s.ctx.job with
  | some j => decide (n ∈ j.moving)
  | none => false

/-- Gives a lent set back to its owner (R406, R407): the owner's saved state with its live counters, after its CWAIT once
the awaited counter meets its condition. -/
def State.restoreOwner (s : State) (n : Nat) : State :=
  let x := s.setSt n
  match x.lentFrom with
  | none => s
  | some o =>
    match (s.slot o).saved.find x.routine with
    | none => s
    | some y =>
      let back := ({ y with
        c := x.ownerC, soft := false, hard := false, atPoint := false, eccFixed := x.eccFixed, arrFaults := x.arrFaults,
        err := [], taken := x.taken, given := x.given, nextId := max x.nextId y.nextId }).wake
      let s1 := (s.putSlot o { s.slot o with saved := (s.slot o).saved.erase x.routine }).putSet n back
      let s2 := s1.putSlot x.slot { s1.slot x.slot with setMap := (s1.slot x.slot).setMap.erase x.routine }
      s2.setF CTX_S_LENT_NOW x.slot 0 (s2.getF CTX_S_LENT_NOW x.slot 0 - 1)

/-! ### Faults (R101, R481) -/

/-- The sets of a slot, by physical number. -/
def State.setsOf (s : State) (slot : Nat) : List Nat := (s.slot slot).setMap.map (·.2)

/-- Stops a set with its queue frozen. -/
def SetState.halt (x : SetState) : SetState :=
  { x with run := .stopped, wait := none, stall := none, frozen := true }

/-- The turn of the suspect under test ends (R479): the next suspect takes its own, or, with nobody found guilty, the hang stays
unattributed (R480). `found` says that this suspect was not cleared. -/
def State.turnNext (s : State) (found : Bool) : State :=
  let s0 := { s with hng := { s.hng with found := s.hng.found || found } }
  match s0.hng.turns with
  | i :: rest => ({ s0 with hng := { s0.hng with turns := rest } }).set HNG_UNDER_TEST i
  | [] =>
    let e := s0.hng.testEng
    let s1 := ({ s0 with hng := { s0.hng with testEng := 0x3FFF } }).set HNG_TESTING 0
    if s0.hng.found then s1
    else
      let s2 := (s1.sat HNG_UNATTRIBUTED 0 0 1).emit RT_GUILTY .management 11 0 0 [0xFF, e]
      s2.notify .guilty 0 0 0 e 0 (s2.lastSeq .management)

/-- Raises a context fault (R481): FAULT_VALID, the other sets of the context stop with their queues frozen, sets lent to
guests are to be evicted, its rounds end, the fault is noticed, and its isolation turn ends. `n` is the faulting set, 0x3FF for none.
DEDUCED, log entry 130. -/
def State.contextFault (s : State) (slot : Nat) (st : Status) (n dcdSeq : Nat) : State :=
  let s1 := if s.getF CTX_S_FAULT_VALID slot 0 = 1 then s
    else ((s.setF CTX_S_FAULT_STATUS slot 0 st.num).setF CTX_S_FAULT_SET slot 0 n).setF CTX_S_FAULT_VALID slot 0 1
  let s1 := s1.putSlot slot { s1.slot slot with faulted := true }
  let s2 := (s1.setsOf slot).foldl (fun s m =>
    let x := s.setSt m
    if x.slot = slot then s.putSet m (if x.run = .inReset then x else x.halt)
    else if x.lentFrom = some slot then s.putSet m { x with evict := true } else s) s1
  let s3 := (s2.abortRounds slot).notify .contextFault st.num 0 slot (if n = 0x3FF then 0x3FFF else n) 0 dcdSeq
  if s3.get HNG_TESTING = 1 ∧ s3.get HNG_UNDER_TEST = slot then s3.turnNext true else s3

/-- A stopping fault of a set (R101): FAULT keeps the first, the set stops with its queue frozen, the SET_FAULT record is
written and the context fault raised. A guest's set goes back to its owner (R407). -/
def State.stopSet (s : State) (n : Nat) (st : Status) (source array owner addr : Nat) : State :=
  let x := s.setSt n
  let f := match x.fault with
    | some f => f
    | none => ⟨st.num, source, array, owner, addr⟩
  let s1 := s.putSet n { x.halt with fault := some f }
  let s2 := s1.emit RT_SET_FAULT .data 1 n (s.ctxOf x.slot) [st.num, source, addr, owner]
  let s3 := s2.contextFault x.slot st n (s2.lastSeq .data)
  if x.lentFrom.isSome then s3.restoreOwner n else s3

/-- Sets STEP_OVERRANGE for a context, and writes the OVERRANGE record of the slice for its first out-of-range addend
(R199). DEDUCED, log entry 136. -/
def State.overrange (s : State) (slot unit addr expIndex beta : Nat) : State :=
  let s1 := s.setF CTX_S_STEP_OVERRANGE slot 0 1
  let i := s1.slot slot
  if i.overRec then s1
  else (s1.putSlot slot { i with overRec := true }).emit RT_OVERRANGE .data 3 unit (s.ctxOf slot) [addr, expIndex, beta]

end Sys2Proof.Machine
end

