-- ==== Sys2Proof/Machine/Window.lean ====
section
/-! DEFINITION. Window additions by context address: exponent table entries (R197), the place of a block in its range (R196,
R256), its lines (R564), the conversion of addends (R198, R199, R252, R253), and the OVERRANGE flag. -/

namespace Sys2Proof.Machine

/-- An exponent table entry (R197). -/
structure ExpEntry where
  mode     : Nat
  exp      : Nat
  headroom : Nat
  blocks   : Nat
  accBase  : Nat
  expAddr  : Nat
deriving DecidableEq, Repr

/-- The entry of 32 bytes, if R197 admits it. DEDUCED, log entry 142. -/
def expEntryOf (b : List Byte) : Option ExpEntry :=
  let e : ExpEntry := ⟨leAt b 0 1, leAt b 1 1, leAt b 2 1, leAt b 4 4, leAt b 8 8, leAt b 16 8⟩
  if e.mode ≤ 1 ∧ (e.mode = 1 → e.exp = 0) ∧ e.headroom ≤ 15 ∧ leAt b 3 1 = 0 ∧ e.blocks ≠ 0 ∧ leAt b 24 8 = 0
      ∧ (e.mode = 0 → e.expAddr = 0) then some e else none

/-- Reads context memory that must lie on this module, in tier A or, with `top` 1, in tier A or B (R219), each part
translated on its own. `fuel` bounds the parts. -/
def State.ctxRead (s : State) (die slot cls top : Nat) : Nat → Nat → Nat → Status × List Byte × State
  | 0, _, _ => (.access, [], s)
  | fuel + 1, a, n =>
    if n = 0 then (.done, [], s)
    else
      let (st, fa, left, s1) := s.resolve die slot a .r
      if st ≠ .done then (st, [], s1)
      else if fa.module ≠ s1.self ∨ top < fa.space then (.access, [], s1)
      else
        let m := min n (max left 1)
        let (st2, bs, s2) := s1.serveRead s1.self (s1.ctxOf slot) fa.space cls fa.off m
        if st2 ≠ .done then (st2, [], s2)
        else
          let (st3, bs2, s3) := s2.ctxRead die slot cls top fuel (a + m) (n - m)
          (st3, bs ++ bs2, s3)

/-- Entry `i` of the active exponent table of a slot: ILLEGAL beyond the count, when disabled or malformed. -/
def State.expEntry (s : State) (slot i : Nat) : Status × Option ExpEntry × State :=
  let (base, count) := (s.slot slot).expDir.getD (s.getF CTX_S_ACTIVE_TABLE slot 0) (0, 0)
  if count ≤ i then (.illegal, none, s)
  else
    let (st, b, s1) := s.ctxRead 0 slot 2 0 3 (base + 32 * i) 32
    if st ≠ .done then (st, none, s1)
    else match expEntryOf b with
      | some e => (.done, some e, s1)
      | none => (.illegal, none, s1)

/-- The block exponent of block `k` of an entry: the entry's, or its per-block byte. -/
def State.blockExp (s : State) (slot : Nat) (e : ExpEntry) (k : Nat) : Status × Nat × State :=
  if e.mode = 0 then (.done, e.exp, s)
  else
    let (st, b, s1) := s.ctxRead 0 slot 2 1 2 (e.expAddr + k) 1
    (st, ofBytes b, s1)

/-- The number of the block at a context address in an entry's range: ILLEGAL for an ACC_BASE that is not aligned, ACCESS
outside the range or off a block boundary. -/
def ExpEntry.index (e : ExpEntry) (w : Window) (a : Nat) : Status × Nat :=
  if e.accBase % 64 ≠ 0 then (.illegal, 0)
  else if a < e.accBase ∨ (a - e.accBase) % w.block ≠ 0 ∨ e.blocks ≤ (a - e.accBase) / w.block then (.access, 0)
  else (.done, (a - e.accBase) / w.block)

/-- The source formats of an addend: W48, FP32, BF16 by the codes of OUT_FMT (R137), and their sizes. -/
def srcSize (fmt : Nat) : Nat := if fmt = 0 then 6 else if fmt = 1 then 4 else 2

/-- The value of an addend's pattern; none for a W48 form that R163 does not produce. -/
def srcValue (fmt w : Nat) : Option FP :=
  if fmt = 0 then w48Decode w else if fmt = 1 then some (fmtFP32.decode w) else some (fmtBF16.decode w)

/-- Resolves the 64-byte lines of a block, each on its own (R564): the module and the offsets, with ACCESS when they lead to
more than one module, out of tier A, or, on this module, to pages with different owners. -/
def State.blockLines (s : State) (die slot a n : Nat) : Status × Nat × List Nat × State :=
  let r := (List.range n).foldl (fun (x : Status × List FabAddr × State) i =>
    let (st, fa, _, s1) := x.2.2.resolve die slot (a + 64 * i) .a
    (x.1.andThen st, x.2.1 ++ [fa], s1)) (Status.done, ([] : List FabAddr), s)
  let m := (r.2.1.headD ⟨0, 0, 0⟩).module
  let offs := r.2.1.map FabAddr.off
  let own := fun o => r.2.2.ownerOf 0 (o / 2 ^ 21)
  if r.1 ≠ .done then (r.1, m, offs, r.2.2)
  else if r.2.1.any fun f => decide (f.module ≠ m ∨ f.space ≠ 0) then (.access, m, offs, r.2.2)
  else if m = r.2.2.self ∧ (offs.any fun o => decide (own o ≠ own (offs.headD 0))) then (.access, m, offs, r.2.2)
  else (.done, m, offs, r.2.2)

/-- Checks each line of a block on this module against its page's owner (R273). -/
def State.guardLines (s : State) (src ctx : Nat) : List Nat → Status × State
  | [] => (.done, s)
  | o :: os =>
    let (st, s1) := s.guard src ctx 0 o 64 .window
    if st = .done then s1.guardLines src ctx os else (st, s1)

/-- Adds converted addends to a block on this module and handles addends out of range (R199): the flag and record name the
owner's slot. -/
def State.addWindow (s : State) (slot : Nat) (w : Window) (a expIndex beta h : Nat) (offs : List Nat) (xs : List FP) :
    Status × State :=
  let adds := xs.map (windowAddend w beta h)
  let (st, s1) := s.addRow w offs adds none 0
  if st = .overrange then
    match (List.range adds.length).find? fun i => adds[i]? = some none with
    | some i => (st, s1.overrange slot (s1.unitOf 0 (offs.headD 0)) (a + i * w.size) expIndex beta)
    | none => (st, s1)
  else (st, s1)

/-- A window addition at its home slice (R255) by context address of the owner in a slot, for a request of a source module
and context. -/
def State.windowHere (s : State) (src ctx slot : Nat) (w : Window) (a expIndex : Nat) (offs : List Nat) (xs : List FP) :
    Status × State :=
  let (st0, s0) := s.guardLines src ctx offs
  if st0 ≠ .done then (st0, s0)
  else
    let (st, e, s1) := s0.expEntry slot expIndex
    match e with
    | none => (st, s1)
    | some e =>
      let (sti, k) := e.index w a
      if sti ≠ .done then (sti, s1)
      else
        let (stb, beta, s2) := s1.blockExp slot e k
        if stb ≠ .done then (stb, s2) else s2.addWindow slot w a expIndex beta e.headroom offs xs

/-- The context address under which a context's span table names an offset of tier A or B of this module. -/
def State.unresolve (s : State) (slot space off : Nat) : Option Nat :=
  ((List.range (s.recField slot 108 2)).map fun i => spanOf (s.mem.a.read 0 (s.spanAt slot i) 32)).findSome? fun x =>
    let f := 2 ^ 50 * s.self + 2 ^ 48 * space + off
    if x.base ≤ f ∧ f < x.base + 2 ^ 21 * x.pages then some (x.first + (f - x.base)) else none

end Sys2Proof.Machine
end

