-- ==== Sys2Proof/Machine/Replay.lean ====
section
/-! DEFINITION. A replay's inputs (R443, R444): write-kind records applied before the consumption that follows them, the next
record of a type and key, and what happens when there is none. -/

namespace Sys2Proof.Machine

/-- Applies a write-kind record to its context's memory (R439): a window row is the source format and window byte, the
entry number, the exponent byte and the row (DESIGN CHOICE, log entry 45). -/
def State.applyRecord (s : State) (slot : Nat) (r : JRec) : State :=
  let (st, fa, _, s1) := s.resolve 0 slot r.addr .r
  if st ≠ .done ∨ fa.module ≠ s1.self ∨ 1 < fa.space then s1
  else if r.type = 0x04 ∧ bits r.key 15 12 = 7 then
    let arg := leAt r.data 0 1
    let w := if arg / 16 = 2 then Window.wa160 else Window.bw48
    let row := elemsOf (srcSize (arg % 16)) (r.data.drop 4)
    let offs := (List.range (w.block / 64)).map fun i => fa.off + 64 * i
    let (_, e, s2) := s1.expEntry slot (leAt r.data 1 2)
    let h := match e with | some e => e.headroom | none => 0
    (s2.addWindow slot w r.addr (leAt r.data 1 2) (leAt r.data 3 1) h offs (row.filterMap (srcValue (arg % 16)))).2
  else (s1.memWrite fa.space 2 fa.off r.data).2

/-- An operation of a replay finds no record (R444): the replay stops, ENC_DIVERGE is written and the context faults with
ORDER. -/
def State.diverge (s : State) (slot type key : Nat) : State :=
  let s1 := s.replayEnd 4 .order
  let s2 := s1.emit RT_ENC_DIVERGE .data 10 0 (s.ctxOf slot) [s.getF CTX_S_STEP_NO slot 0, s.enc.attempt, type, key]
  s2.contextFault slot .order 0x3FF (s2.lastSeq .data)

/-- Takes the next recorded input of a type and key (R443); none ends the replay. -/
def State.takeInput (s : State) (slot type key : Nat) : Option JRec × State :=
  match s.replayTake type key with
  | none => (none, s.diverge slot type key)
  | some (writes, r, s1) => (some r, writes.foldl (fun s w => s.applyRecord slot w) s1)

/-- How the issue of a remote request ended. -/
inductive Sending where
  | wait                                       -- the pair holds 1,024 already (R279)
  | refused (st : Status)                      -- completed at the source
  | sent                                       -- outstanding
  | answered (status : Nat) (data : List Byte) -- completed from the journal of a replay
deriving DecidableEq, Repr

/-- Issues a request of a set to another module (R275, R278), or, in a replay, takes the journal's answer (R443). -/
def State.remote (s : State) (n vc addr : Nat) (fa : FabAddr) (op : ReqOp) (w : Waiter) : Sending × State :=
  let x := s.setSt n
  let (num, s1) := if s.journals x.slot || s.replaying x.slot then s.nextReq x.routine else (0, s)
  let key := respKey x.routine num
  if s.replaying x.slot then
    match s1.takeInput x.slot 0x09 key with
    | (none, s2) => (.refused .order, s2)
    | (some r, s2) => (.answered (leAt r.data 1 1 % 64) (r.data.drop 40), s2)
  else
    match s1.send fa.module vc (s.ctxOf x.slot) addr fa op w key with
    | none => (.wait, s)
    | some (.done, s2) => (.sent, s2)
    | some (st, s2) => (.refused st, s2)

end Sys2Proof.Machine
end

