-- ==== Sys2Proof/Machine/Issue.lean ====
section
/-! DEFINITION. Issue of instructions (R72, R103, R104, R106, R108): when a set's control core can issue, the check of the
address it fetches from, waits for outstanding registers, and how an instruction advances or faults. -/

namespace Sys2Proof.Machine

/-- A set's units can act: the module is ready, the die has power, the set is in service and does not hold at a
pre-emption point (R97). -/
def State.unitRuns (s : State) (n : Nat) : Bool :=
  s.ready && decide (s.pwr.mode = .on) && s.dieOn (dieOf n) && !(s.setUnit n).retired && !(s.setSt n).atPoint

/-- The control core of a set can issue. -/
def State.canIssue (s : State) (n : Nat) : Bool :=
  s.unitRuns n && decide ((s.setSt n).run = .running) && (s.setSt n).stall.isNone

/-- The span that translates an address for a die: from its cache, or from the table. -/
def State.spanNow (s : State) (die slot a : Nat) : Option Span :=
  match cacheFind (s.fab.xlate.getD die []) slot a with
  | some e => some (spanOf e.2)
  | none => (s.spanSearch slot a).map fun i => spanOf (s.mem.a.read 0 (s.spanAt slot i) 32)

/-- An instruction can be fetched from a context address (R103, R269): aligned, in a span with right X that leads to tier A
of this module, on a page that admits the context. The check leaves no trace (DEDUCED, log entry 43). -/
def State.codeOk (s : State) (die slot a : Nat) : Bool :=
  decide (a % 8 = 0 ∧ a < 2 ^ 56) &&
  match s.spanNow die slot a with
  | none => false
  | some x =>
    let f := x.base + (a - x.first)
    bit x.rights Right.x.bit && decide (f / 2 ^ 50 = s.self ∧ bits f 49 48 = 0 ∧ f % 2 ^ 48 + 8 ≤ s.tierSize 0)
      && (match s.ownerOf 0 (f % 2 ^ 48 / 2 ^ 21) with
          | some c => s.admits s.self (s.ctxOf slot) 0 c .load
          | none => false)

/-- A request of a set's control core whose value some later instruction waits for: a load into one of the registers it
names, or any atomic that returns a value (R108, R115). -/
def State.blocked (s : State) (n : Nat) (uses : List Nat) : Bool :=
  s.fab.sent.any fun x => decide (x.ctx = s.ctxOf (s.setSt n).slot) && (match x.waiter, x.op with
    | .reg m rd _ _ _, .amo .. => decide (m = n ∧ rd ≠ 0)
    | .reg m rd _ _ _, _ => decide (m = n ∧ rd ≠ 0 ∧ rd ∈ uses)
    | _, _ => false)

/-- The owner named with a fault: that of the tile the set runs (R102). DEDUCED, log entry 101. -/
def SetState.tileOwner (x : SetState) : Nat := match x.tiles with
  | t :: _ => t.tile.owner
  | [] => 0x3FF

/-- The set advances past the instruction (R103). -/
def SetState.next (x : SetState) : SetState := { x with pc := x.pc + 8 }

/-- The instruction at the PC completes with a stopping status: it has no effect and the set stops (R101, R106). -/
def State.fault (s : State) (n : Nat) (st : Status) (source : Nat) : State :=
  let x := s.setSt n
  s.stopSet n st source 0 x.tileOwner x.pc.toNat

/-- ILLEGAL at issue (R106). -/
def State.illegal (s : State) (n : Nat) : State := s.fault n .illegal 1

/-- Issues an instruction that names some scalar registers: unchanged while the core cannot issue or waits, a fault where
the fetch fails, else the instruction's effect. -/
def State.issue (s : State) (n : Nat) (uses : List Nat) (f : SetState → State) : State :=
  let x := s.setSt n
  if !s.canIssue n then s
  else if !s.codeOk (dieOf n) x.slot x.pc.toNat then s.fault n .access 1
  else if s.blocked n uses then s
  else f x

/-- An instruction that writes one scalar register from the state of its set. -/
def State.alu (s : State) (n : Nat) (uses : List Nat) (rd : Nat) (v : SetState → BitVec 64) : State :=
  s.issue n (rd :: uses) fun x => s.putSet n ((x.setReg rd (v x)).next)

/-- An instruction's status: on a status that stops, the fault; else the state with the set advanced. -/
def State.finish (s : State) (n : Nat) (st : Status) (source : Nat) (f : SetState → SetState) : State :=
  if st.stops then s.fault n st source else s.putSet n (f (s.setSt n)).next

end Sys2Proof.Machine
end

