-- ==== Sys2Proof/Machine/Push.lean ====
section
/-! DEFINITION. The instructions that push a descriptor (R124, R130, R385, R412). -/

namespace Sys2Proof.Machine

/-- Reads the descriptor of a push: its set address must lie in space 0b01 and be 64-byte aligned (R124). -/
def State.readDesc (s : State) (n : Nat) (x : SetState) (a : Nat) : Status × Nat × List Byte × State :=
  match x.place n a with
  | .sm m o =>
    if a / 2 ^ 62 ≠ 1 ∨ a % 64 ≠ 0 then (.access, 0, [], s)
    else
      let (st, bs, s1) := s.smRead m o 64
      (st, o, bs, s1)
  | _ => (.access, 0, [], s)

/-- A push: unchanged while the queue is full (R72); then the descriptor is read and checked, and queued by `f`, which is
given the local address and the bytes. -/
def State.push (s : State) (n : Nat) (uses : List Nat) (addr : SetState → Nat) (kind : Nat) (rule : List Byte → Bool)
    (full : SetState → List Byte → Bool) (f : State → Nat → List Byte → State) : State :=
  s.issue n uses fun x =>
    let (st, a, d, s1) := s.readDesc n x (addr x)
    if st ≠ .done then s1.fault n st (if st = .uncorrectable then 5 else 1)
    else match checkDesc d kind (rule d) with
    | .version => s1.fault n .version 1
    | .illegal => s1.fault n .illegal 1
    | .pass => if full x d then s else
      let s2 := f s1 a d
      s2.putSet n (s2.setSt n).next

/-- Appends a tile to the set's queue. -/
def State.queueTile (s : State) (n a : Nat) (d : List Byte) (body : Option (Nat × Nat)) : State :=
  let x := s.setSt n
  s.putSet n { x with queue := x.queue ++ [⟨x.nextId, d, n, a, body, none⟩], nextId := x.nextId + 1 }

/-- TPUSH (R124). -/
def execTpush (set : Fin 768) (ra : Fin 32) (imm : BitVec 32) (s : State) : Res :=
  ok (s.push set.val [ra.val] (fun x => (x.reg ra.val + imm.signExtend 64).toNat) 0x01 (fun d => tileRule d false)
    (fun x _ => decide (64 ≤ x.queue.length)) fun s a d => s.queueTile set.val a d none)

/-- FSEQ (R124): the descriptor address comes from RA alone; IMM32 holds the body length, at most 256. -/
def execFseq (set : Fin 768) (ra rb : Fin 32) (imm : BitVec 32) (s : State) : Res :=
  ok (if 256 < imm.toNat then s.issue set.val [] fun _ => s.illegal set.val
    else
      let body := (((s.setSt set.val).reg rb.val).toNat)
      s.push set.val [ra.val, rb.val] (fun x => (x.reg ra.val).toNat) 0x01 (fun d => tileRule d true)
        (fun x _ => decide (64 ≤ x.queue.length)) fun s a d => s.queueTile set.val a d (some (imm.toNat, body)))

/-- PPUSH (R124): 16 descriptor slots. -/
def execPpush (set : Fin 768) (ra : Fin 32) (imm : BitVec 32) (s : State) : Res :=
  ok (s.push set.val [ra.val] (fun x => (x.reg ra.val + imm.signExtend 64).toNat) 0x02 promRule
    (fun x _ => decide (16 ≤ x.proms.length)) fun s a d =>
      let x := s.setSt set.val
      s.putSet set.val { x with
        proms := x.proms ++ [⟨x.nextId, d, a, false, 0, 0, [], 0, 0, false, 4⟩], nextId := x.nextId + 1 })

/-- Queues a round: on a group that is aborted or lost it completes at once (R386, R388). -/
def State.queueRound (s : State) (n a : Nat) (d : List Byte) : State :=
  let g := leAt d 8 1
  let x := s.setSt n
  let r : RoundDesc := ⟨d, a, n, x.slot, s.getF CTX_S_STEP_NO x.slot 0⟩
  match s.getF RND_G_STATE g 0 with
  | 3 => s.completeRound r Status.order.num
  | 4 => s.completeRound r Status.peerLost.num
  | _ =>
    let y := s.group g
    s.putGroup g { y with queue := y.queue ++ [r] }

/-- RPUSH (R124, R385): a queue of 8 per group. -/
def execRpush (set : Fin 768) (ra : Fin 32) (imm : BitVec 32) (s : State) : Res :=
  ok (s.push set.val [ra.val] (fun x => (x.reg ra.val + imm.signExtend 64).toNat) 0x03 roundRule
    (fun _ d => decide (8 ≤ (s.group (leAt d 8 1)).queue.length)) fun s a d => s.queueRound set.val a d)

/-- The freeze engine's state for a slot. -/
def State.frzSlot (s : State) (i : Nat) : FrzSlot := s.frz.get FrzSlot.init i

/-- The state with that replaced; QUEUED follows the queue. -/
def State.putFrz (s : State) (i : Nat) (x : FrzSlot) : State :=
  ({ s with frz := s.frz.put FrzSlot.init i x }).setF FRZ_S_QUEUED i 0 x.queue.length

/-- FPUSH (R124, R412): a queue of 8 per context. -/
def execFpush (set : Fin 768) (ra : Fin 32) (imm : BitVec 32) (s : State) : Res :=
  ok (s.push set.val [ra.val] (fun x => (x.reg ra.val + imm.signExtend 64).toNat) 0x04 freezeRule
    (fun x _ => decide (8 ≤ (s.frzSlot x.slot).queue.length)) fun s a d =>
      let x := s.setSt set.val
      let z := s.frzSlot x.slot
      s.putFrz x.slot { z with queue := z.queue ++ [⟨d, a, set.val, x.slot, s.getF CTX_S_STEP_NO x.slot 0⟩] })

end Sys2Proof.Machine
end

