-- ==== Sys2Proof/Machine/Encode.lean ====
section
/-! DEFINITION. Instruction words (R105 to R107): the fields of a word, the words of vector instructions, which a fused body
is made of, and which words R106 assigns. -/

namespace Sys2Proof.Machine

/-- PEN, PRED and PZ in their places (R105). -/
def predBits : PredMode → Nat
  | none => 0
  | some (p, z) => 2 ^ 30 + p.val * 2 ^ 27 + bitOf z * 2 ^ 26

/-- A word of format V. -/
def encV (major func vd va vb vc : Nat) (bs : Bool) (pm : PredMode) (ty : BitVec 3) : BitVec 64 :=
  BitVec.ofNat 64 (major * 2 ^ 58 + func * 2 ^ 52 + vd * 2 ^ 47 + va * 2 ^ 42 + vb * 2 ^ 37 + vc * 2 ^ 32 + bitOf bs * 2 ^ 31
    + predBits pm + ty.toNat * 2 ^ 23)

/-- MAJOR of a word. -/
def majorOf (w : BitVec 64) : Nat := bits w.toNat 63 58

/-- FUNC of a word. -/
def funcOf (w : BitVec 64) : Nat := bits w.toNat 57 52

/-- Which of the assigned types of R120 an operation admits. -/
def isFloat (ty : Nat) : Bool := decide (ty ≤ 2)
/-- The integer types. -/
def isInt (ty : Nat) : Bool := decide (3 ≤ ty ∧ ty ≤ 5)
/-- The 32-bit types. -/
def isWide (ty : Nat) : Bool := decide (ty = 0 ∨ ty = 3 ∨ ty = 4)

/-- The conditions of R106, R119 and R121 on a word of the vector class. -/
def legalVector (w : Nat) : Bool :=
  let f := bits w 57 52
  let vd := bits w 51 47
  let va := bits w 46 42
  let vb := bits w 41 37
  let vc := bits w 36 32
  let bs := bit w 31
  let pen := bit w 30
  let pz := bit w 26
  let ty := bits w 25 23
  let common := decide (bits w 22 0 = 0 ∧ ty ≤ 5 ∧ (pen = false → bits w 29 26 = 0))
  let noB := decide (vb = 0 ∧ vc = 0 ∧ bs = false)
  let noC := decide (vc = 0)
  common && (match bits w 63 58 with
  | 0x10 =>
    if f ≤ 2 ∨ f = 6 ∨ f = 7 ∨ f = 0xD ∨ f = 0xF then noC && isFloat ty
    else if f ≤ 5 then isFloat ty
    else if f ≤ 0xC then noB && isFloat ty
    else decide (f = 0xE) && noB
  | 0x11 =>
    if f ≤ 2 ∨ (7 ≤ f ∧ f ≤ 0xB) then noC && isInt ty
    else if f ≤ 5 then noC
    else decide (f = 6) && noB
  | 0x12 =>
    decide (bits w 51 50 = 0) &&
    (if f ≤ 6 then noC
     else decide (0x20 ≤ f ∧ f ≤ 0x26 ∧ ty = 0 ∧ bs = false ∧ vc = 0 ∧ bits w 46 45 = 0 ∧ bits w 41 40 = 0
       ∧ (0x24 ≤ f → vb = 0) ∧ (0x25 ≤ f → va = 0)))
  | 0x13 => decide (f ≤ 7) && noB
  | 0x14 =>
    if f ≤ 2 then noB && isFloat ty && !pz
    else if f = 3 then noC
    else if f ≤ 6 then noC && bs && (decide (f ≠ 5) || !pen)
    else decide (f = 7 ∧ va = 0) && noB && isInt ty
  | 0x15 => decide (vc = 0 ∧ bs = false) && (if f ≤ 1 then decide (vb = 0) else decide (f ≤ 3) && isWide ty)
  | 0x16 =>
    noB && decide (ty = 0) &&
    (decide (f ≤ 3 ∨ (8 ≤ f ∧ f ≤ 0xB)) || decide (vd = 0 ∧ ((0x10 ≤ f ∧ f ≤ 0x13) ∨ (0x18 ≤ f ∧ f ≤ 0x1B))))
  | 0x17 => decide (f = 0 ∧ vc = 0 ∧ bs = false ∧ ty = 4)
  | 0x18 =>
    noB && (decide (f = 0 ∧ va = 0 ∧ ty = 0) || (decide (f = 1 ∧ vd = 0) && isFloat ty))
  | _ => false)

/-- The conditions of R106 on any word. -/
def legalWord (word : BitVec 64) : Bool :=
  let w := word.toNat
  let f := bits w 57 52
  let rd := bits w 51 47
  let ra := bits w 46 42
  let rb := bits w 41 37
  let rc := bits w 36 32
  let imm := bits w 31 0
  let fmtI := decide (bits w 41 32 = 0)
  let fmtS := decide (rd = 0 ∧ rc = 0)
  match bits w 63 58 with
  | 0x01 => decide (f ≤ 0x14 ∧ imm = 0 ∧ (f ≠ 0x14 → rc = 0))
  | 0x02 => fmtI && decide (f = 0 ∨ (2 ≤ f ∧ f ≤ 8) ∨ f = 0xD ∨ f = 0xE ∨ (0x11 ≤ f ∧ f ≤ 0x13))
      && decide (5 ≤ f ∧ f ≤ 7 → imm < 64)
  | 0x03 => decide (bits w 52 48 = 0)
  | 0x04 => decide (bits w 52 48 = 0 ∧ bits w 47 16 = 0)
  | 0x05 => fmtI && decide (f ≤ 6)
  | 0x06 => fmtS && decide (f ≤ 3)
  | 0x07 => decide (f ≤ 0xB ∧ imm = 0 ∧ (f ≠ 0xA → rc = 0))
  | 0x08 => fmtS && decide (f ≤ 5)
  | 0x09 => fmtI && decide (f ≤ 1 ∧ (f = 0 → ra = 0))
  | 0x0A => decide (f ≤ 9 ∧ ra = 0 ∧ rb = 0 ∧ rc = 0 ∧ imm = 0)
  | 0x20 | 0x28 | 0x3A | 0x3B => fmtS && decide (f = 0 ∧ rb = 0)
  | 0x21 => fmtS && decide (f = 0 ∧ imm ≤ 256)
  | 0x30 => decide (f ≤ 4 ∧ bits w 39 32 = 0 ∧ (bit w 40 = true → f = 1 ∨ f = 2) ∧ (f = 4 → imm = 0))
  | 0x38 => fmtI && decide (f ≤ 4 ∧ rd = 0 ∧ (f ≠ 2 → ra = 0) ∧ (f ≤ 1 → imm = 0) ∧ (f = 2 → imm ≤ 1) ∧ imm < 2 ^ 16)
  | 0x39 => fmtI && decide (f ≤ 2 ∧ imm < 256 ∧ (f ≠ 1 → rd = 0) ∧ (f ≠ 0 → ra = 0))
  | _ => legalVector w

end Sys2Proof.Machine
end

