-- ==== Sys2Proof/Machine/VecOps.lean ====
section
/-! DEFINITION. The arithmetic of the vector engine on one element or one register (R176 to R187). -/

namespace Sys2Proof.Machine

/-- The floating-point format of a TYPE. -/
def typeFmt (ty : Nat) : Fmt := if ty = 0 then fmtFP32 else if ty = 1 then fmtBF16 else fmtFP16

/-- The element count of a TYPE (R120). -/
def typeCount (ty : Nat) : Nat := if isWide ty then 64 else 128

/-- The element width of a TYPE. -/
def typeBits (ty : Nat) : Nat := if isWide ty then 32 else 16

/-- A floating-point operation on two patterns, rounded once (R176). -/
def fop2 (ty : Nat) (f : FP → FP → FP) (a b : Nat) : Nat :=
  let t := typeFmt ty
  t.round (f (t.decode a) (t.decode b))

/-- A floating-point operation on one pattern. -/
def fop1 (ty : Nat) (f : FP → FP) (a : Nat) : Nat :=
  let t := typeFmt ty
  t.round (f (t.decode a))

/-- A floating-point operation on three patterns. -/
def fop3 (ty : Nat) (f : FP → FP → FP → FP) (a b c : Nat) : Nat :=
  let t := typeFmt ty
  t.round (f (t.decode a) (t.decode b) (t.decode c))

/-- VSCALE (R177): VA × 2^n, n signed in the element width. -/
def vscaleOp (ty a b : Nat) : Nat :=
  let t := typeFmt ty
  t.round ((t.decode a).scale (signed (typeBits ty) b))

/-- The sign bit of an element. -/
def signBit (ty : Nat) : Nat := 2 ^ (typeBits ty - 1)

/-- The integer value of an element: unsigned for UINT32 only. -/
def intVal (ty a : Nat) : Int := if ty = 4 then (a : Int) else signed (typeBits ty) a

/-- An integer operation, wrapped to the element width (R178). -/
def iop2 (ty : Nat) (f : Nat → Nat → Nat) (a b : Nat) : Nat := f a b % 2 ^ typeBits ty

/-- VISUB. -/
def visubOp (ty a b : Nat) : Nat := (a + 2 ^ typeBits ty - b) % 2 ^ typeBits ty
/-- VSHL. -/
def vshlOp (ty a b : Nat) : Nat := (a <<< (b % typeBits ty)) % 2 ^ typeBits ty
/-- VSHR. -/
def vshrOp (ty a b : Nat) : Nat := a >>> (b % typeBits ty)
/-- VSRA. -/
def vsraOp (ty a b : Nat) : Nat := unsigned (typeBits ty) (signed (typeBits ty) a / 2 ^ (b % typeBits ty))
/-- VIMIN. -/
def viminOp (ty a b : Nat) : Nat := if intVal ty a ≤ intVal ty b then a else b
/-- VIMAX. -/
def vimaxOp (ty a b : Nat) : Nat := if intVal ty a ≤ intVal ty b then b else a

/-- A comparison (R179): on floats false with a NaN, except VCNE. -/
def vcmpOp (func ty a b : Nat) : Bool :=
  if isFloat ty then
    let t := typeFmt ty
    let x := t.decode a
    let y := t.decode b
    match func with
    | 0 => x.eq y
    | 1 => !x.eq y
    | 2 => x.lt y
    | 3 => x.lt y || x.eq y
    | 4 => y.lt x
    | 5 => y.lt x || x.eq y
    | _ => x.isNan || y.isNan
  else
    let x := intVal ty a
    let y := intVal ty b
    match func with
    | 0 => decide (x = y)
    | 1 => decide (x ≠ y)
    | 2 => decide (x < y)
    | 3 => decide (x ≤ y)
    | 4 => decide (y < x)
    | 5 => decide (y ≤ x)
    | _ => false

/-- The value of an element as an exact number. -/
def elemValue (ty a : Nat) : FP := if isFloat ty then (typeFmt ty).decode a else FP.int (intVal ty a)

/-- A value converted to an integer type: nearest-even, saturated; a NaN gives 0 (R180). -/
def toInt (lo hi : Int) (x : FP) : Int :=
  match x with
  | .nan => 0
  | .inf neg => if neg then lo else hi
  | _ => max lo (min hi ((x.toUnits 0).getD 0))

/-- VCVT of one element to destination code d (R180): the pattern in the destination's width. -/
def vcvtOp (d : Nat) (x : FP) : Nat :=
  match d with
  | 0 => fmtFP32.round x
  | 1 => fmtBF16.round x
  | 2 => fmtFP16.round x
  | 3 => unsigned 32 (toInt (-(2 ^ 31)) (2 ^ 31 - 1) x)
  | 4 => unsigned 32 (toInt 0 (2 ^ 32 - 1) x)
  | 5 => unsigned 16 (toInt (-(2 ^ 15)) (2 ^ 15 - 1) x)
  | 6 => fmtE4M3.round x
  | _ => fmtE5M2.round x

/-- A whole-register conversion (R180): in place when both types have one width, or a packed source goes to 8 bits; else
lane by lane, a 16-bit source read from element 2i. The result as elements of `wideOut` width. -/
def vcvtReg (ty d : Nat) (src : List Nat) : List Nat :=
  let dWide := decide (d = 0 ∨ d = 3 ∨ d = 4)
  if isWide ty = dWide ∨ (isWide ty = false ∧ 6 ≤ d) then src.map fun a => vcvtOp d (elemValue ty a)
  else if isWide ty then src.map fun a => vcvtOp d (elemValue ty a)
  else (List.range 64).map fun i => vcvtOp d (elemValue ty (src.getD (2 * i) 0))

/-- Whether predicates apply per lane to a conversion (R180): whenever either type is 32-bit. -/
def vcvtWide (ty d : Nat) : Bool := isWide ty || decide (d = 0 ∨ d = 3 ∨ d = 4)

/-- The fixed reduction tree (R181). -/
def redTree (f : Nat → Nat → Nat) : Nat → List Nat → Nat
  | 0, xs => xs.headD 0
  | n + 1, xs =>
    let h := xs.length / 2
    redTree f n (List.zipWith f (xs.take h) (xs.drop h))

/-- The identity of a reduction in a format: −0, −∞, +∞. -/
def redUnit (func ty : Nat) : Nat :=
  let t := typeFmt ty
  if func = 0 then t.round (.fin true 0 0) else t.round (.inf (decide (func = 1)))

/-- The operation of a reduction. -/
def redOp (func ty : Nat) : Nat → Nat → Nat :=
  fop2 ty (if func = 0 then FP.add else if func = 1 then FP.maximum else FP.minimum)

/-- A reduction of a register's elements with the inactive ones at the identity. -/
def reduce (func ty : Nat) (active : List Bool) (xs : List Nat) : Nat :=
  redTree (redOp func ty) (if isWide ty then 6 else 7)
    (List.zipWith (fun a x => if a then x else redUnit func ty) active xs)

/-! ### Function tables (R183, R184) -/

/-- A coefficient of a segment of a table. -/
def coeff (tab : List Byte) (j k : Nat) : Nat := ofBytes ((tab.drop (16 * j + 4 * k)).take 4)

/-- Evaluates a table at an FP32 pattern. -/
def tableEval (tab : List Byte) (x : Nat) : Nat :=
  let s := bits x 31 31
  let e := bits x 30 23
  let f := x % 2 ^ 23
  if e = 255 ∧ f ≠ 0 then 0x7FC00000
  else if e = 255 then coeff tab (127 + 128 * s) 0
  else
    let e1 := max 119 (min 134 e)
    let g := if e < 119 then 0 else if 134 < e then 7 else bits f 22 20
    let j := 128 * s + (e1 - 119) * 8 + g
    let lo : FP := .fin (decide (s = 1)) (8 + g) ((e1 : Int) - 130)
    let t := r32 ((f32 x).add lo.neg)
    fma32 (fma32 (fma32 (coeff tab j 3) t (coeff tab j 2)) t (coeff tab j 1)) t (coeff tab j 0)

/-! ### Philox-4x32-10 (R187) -/

/-- The state of the generator: counter words and key words. -/
structure Philox where
  x0 : Nat
  x1 : Nat
  x2 : Nat
  x3 : Nat
  k0 : Nat
  k1 : Nat
deriving DecidableEq, Repr

/-- One round with the current key. -/
def Philox.round (p : Philox) : Philox :=
  let p0 := 0xD2511F53 * p.x0
  let p1 := 0xCD9E8D57 * p.x2
  { p with x0 := p1 / 2 ^ 32 ^^^ p.x1 ^^^ p.k0, x1 := p1 % 2 ^ 32, x2 := p0 / 2 ^ 32 ^^^ p.x3 ^^^ p.k1, x3 := p0 % 2 ^ 32 }

/-- The key of the next round. -/
def Philox.bump (p : Philox) : Philox :=
  { p with k0 := (p.k0 + 0x9E3779B9) % 2 ^ 32, k1 := (p.k1 + 0xBB67AE85) % 2 ^ 32 }

/-- n further rounds. -/
def Philox.rounds : Nat → Philox → Philox
  | 0, p => p
  | n + 1, p => p.bump.round.rounds n

/-- The random word of an element. -/
def philoxWord (seed e step tensor : Nat) : Nat :=
  ((Philox.mk (e % 2 ^ 32) (e / 2 ^ 32 % 2 ^ 32) step tensor (seed % 2 ^ 32) (seed / 2 ^ 32)).round.rounds 9).x0

end Sys2Proof.Machine
end

