-- ==== Sys2Proof/Machine/Vector.lean ====
section
/-! DEFINITION. The vector class (R119 to R123, R173 to R187, R190, R191): registers by element, predication, issue from the
stream and from a fused body, and the meaning of each vector instruction. -/

namespace Sys2Proof.Machine

/-! ### Registers by element (R173) -/

/-- The elements of a vector register. -/
def SetState.elems (x : SetState) (r : Nat) (wide : Bool) : List Nat :=
  let lanes := (List.range 64).map fun i => (x.lane r i).toNat
  if wide then lanes else lanes.flatMap fun w => [w % 65536, w / 65536]

/-- Pairs of 16-bit elements as lanes. -/
def packLanes : List Nat → List Nat
  | a :: b :: es => (a % 65536 + 65536 * (b % 65536)) :: packLanes es
  | _ => []

/-- Writes the elements of a vector register. -/
def SetState.putElems (x : SetState) (r : Nat) (wide : Bool) (es : List Nat) : SetState :=
  let lanes := if wide then es else packLanes es
  { x with v := x.v.write 0 (64 * r) (lanes.map (BitVec.ofNat 32)) }

/-- Which elements are active (R119): for a 32-bit type lane i goes by bit 2i. -/
def SetState.actives (x : SetState) (pm : PredMode) (wide : Bool) : List Bool :=
  match pm with
  | none => List.replicate (if wide then 64 else 128) true
  | some (p, _) =>
    let w := (x.pred p.val).toNat
    (List.range (if wide then 64 else 128)).map fun i => bit w (if wide then 2 * i else i)

/-- PZ. -/
def zeroing (pm : PredMode) : Bool := match pm with
  | some (_, z) => z
  | none => false

/-- A result merged with the old elements under predication (R119). -/
def merge (act : List Bool) (pz : Bool) (old new : List Nat) : List Nat :=
  List.zipWith (fun (a : Bool) (p : Nat × Nat) => if a then p.2 else if pz then 0 else p.1) act (old.zip new)

/-- Writes a result under predication. -/
def SetState.put (x : SetState) (vd : Nat) (pm : PredMode) (wide : Bool) (es : List Nat) : SetState :=
  x.putElems vd wide (merge (x.actives pm wide) (zeroing pm) (x.elems vd wide) es)

/-- The VB operand: a vector register, or a scalar register broadcast (R119). -/
def SetState.srcB (x : SetState) (vb : Nat) (bs wide : Bool) : List Nat :=
  if bs then List.replicate (if wide then 64 else 128) ((x.reg vb).toNat % (if wide then 2 ^ 32 else 2 ^ 16)) else x.elems vb wide

/-- Writes a predicate from one bit per element: a 32-bit type writes both bits of a lane (R119, R179). -/
def SetState.putPred (x : SetState) (pd : Nat) (pm : PredMode) (wide : Bool) (res : List Bool) : SetState :=
  let bitsOf := if wide then res.flatMap fun b => [b, b] else res
  let act := if wide then (x.actives pm true).flatMap fun b => [b, b] else x.actives pm false
  let old := (x.pred pd).toNat
  let z := zeroing pm
  let v := (List.range 128).foldl (fun a i =>
    let b := if act.getD i false then bitsOf.getD i false else (!z && bit old i)
    a + (if b then 2 ^ i else 0)) 0
  { x with p := x.p.put 0 pd (BitVec.ofNat 128 v) }

/-! ### Issue (R123, R175, R188, R192) -/

/-- A throttle pause or a droop holds the vector engine of a set, as it holds its arrays (R25, R194, R522).
DEDUCED, log entry 97. -/
def State.throttled (s : State) (n : Nat) : Bool := bit s.pwr.throttled (dieOf n) || bit s.pwr.drooping (dieOf n)

/-- A set whose units still run: bound and neither stopped nor in reset. -/
def SetState.live (x : SetState) : Bool := decide (x.run = .running ∨ x.run = .waiting ∨ x.run = .idle)

/-- A fused body has runs left. -/
def Fused.busy (f : Fused) : Bool := decide (f.run < f.runs)

/-- The body moves on: past the last instruction, the next run begins. -/
def Fused.step (f : Fused) : Fused :=
  if f.pos + 1 < f.body.length then { f with pos := f.pos + 1 } else { f with pos := 0, run := f.run + 1 }

/-- The outcome of a vector operation: how it completes, the SOURCE of a fault, and the state. -/
structure VRes where
  st  : Status
  src : Nat
  s   : State

/-- A vector operation that completes. -/
def vdone (s : State) : VRes := ⟨.done, 2, s⟩

/-- A vector operation that fails and changes nothing but what its state shows. -/
def vfail (st : Status) (src : Nat) (s : State) : VRes := ⟨st, src, s⟩

/-- Issues a vector instruction: from the stream, unless a fused sequence of the set is in progress, or as the next
instruction of the body that runs (R175, R188). An encoding that R106 does not allow gives ILLEGAL. DEDUCED, log entry 99. -/
def State.vissue (s : State) (n : Fin 768) (uses : List Nat) (word : BitVec 64) (f : State → SetState → VRes) : State :=
  let n := n.val
  let x := s.setSt n
  if s.throttled n then s else
  match x.fused with
  | some fu =>
    if fu.busy then
      if s.unitRuns n && x.live && decide (fu.body[fu.pos]? = some word) && !s.blocked n uses then
        let r := if legalWord word then f s x else vfail .illegal 2 s
        if r.st.stops then r.s.stopSet n r.st r.src 0 x.tileOwner (fu.bodyAddr + 8 * fu.pos)
        else
          let y := r.s.setSt n
          r.s.putSet n { y with fused := y.fused.map Fused.step }
      else s
    else if x.tiles.any fun t => decide (t.tile.id = fu.producer) then s
    else s.issue n uses fun x => (fun r : VRes => if r.st.stops then r.s.fault n r.st r.src else r.s.putSet n (r.s.setSt n).next)
      (if legalWord word then f s x else vfail .illegal 1 s)
  | none => s.issue n uses fun x => (fun r : VRes => if r.st.stops then r.s.fault n r.st r.src else r.s.putSet n (r.s.setSt n).next)
      (if legalWord word then f s x else vfail .illegal 1 s)

/-- A vector operation on the registers of its set alone. -/
def State.vreg (s : State) (n : Fin 768) (uses : List Nat) (word : BitVec 64) (f : SetState → SetState) : State :=
  s.vissue n uses word fun s x => vdone (s.putSet n.val (f x))

/-- VD from VA and VB, element by element. -/
def State.v2 (s : State) (n : Fin 768) (major func : Nat) (a : V2Args) (f : Nat → Nat → Nat → Nat) : State :=
  let t := a.ty.toNat
  let w := isWide t
  s.vreg n (if a.bs then [a.vb.val] else []) (encV major func a.vd.val a.va.val a.vb.val 0 a.bs a.pm a.ty) fun x =>
    x.put a.vd.val a.pm w (List.zipWith (f t) (x.elems a.va.val w) (x.srcB a.vb.val a.bs w))

/-- VD from VA, element by element. -/
def State.v1 (s : State) (n : Fin 768) (major func : Nat) (a : V1Args) (f : Nat → Nat → Nat) : State :=
  let t := a.ty.toNat
  let w := isWide t
  s.vreg n [] (encV major func a.vd.val a.va.val 0 0 false a.pm a.ty) fun x =>
    x.put a.vd.val a.pm w ((x.elems a.va.val w).map (f t))

/-- VD from VA, VB and VC, element by element. -/
def State.v3 (s : State) (n : Fin 768) (func : Nat) (a : V3Args) (f : FP → FP → FP → FP) : State :=
  let t := a.ty.toNat
  let w := isWide t
  s.vreg n (if a.bs then [a.vb.val] else []) (encV 0x10 func a.vd.val a.va.val a.vb.val a.vc.val a.bs a.pm a.ty) fun x =>
    x.put a.vd.val a.pm w (List.zipWith (fun (p : Nat × Nat) c => fop3 t f p.1 p.2 c)
      ((x.elems a.va.val w).zip (x.srcB a.vb.val a.bs w)) (x.elems a.vc.val w))

/-- PD from VA and VB. -/
def State.vcmp (s : State) (n : Fin 768) (func : Nat) (a : VCArgs) : State :=
  let t := a.ty.toNat
  let w := isWide t
  s.vreg n (if a.bs then [a.vb.val] else []) (encV 0x12 func a.pd.val a.va.val a.vb.val 0 a.bs a.pm a.ty) fun x =>
    x.putPred a.pd.val a.pm w (List.zipWith (vcmpOp func t) (x.elems a.va.val w) (x.srcB a.vb.val a.bs w))

/-- PD from predicates, bit by bit under PRED (R121). -/
def State.vpred (s : State) (n : Fin 768) (func : Nat) (pd pa pb : Fin 8) (pm : PredMode) (f : Bool → Bool → Bool) : State :=
  s.vreg n [] (encV 0x12 func pd.val pa.val pb.val 0 false pm 0) fun x =>
    x.putPred pd.val pm false ((List.range 128).map fun i => f (bit (x.pred pa.val).toNat i) (bit (x.pred pb.val).toNat i))

/-! ### VFP (R176, R177) -/

/-- VADD (R176). -/
def execVAdd (set : Fin 768) (a : V2Args) (s : State) : Res := ok (s.v2 set 0x10 0 a fun t => fop2 t FP.add)

/-- VSUB (R176). -/
def execVSub (set : Fin 768) (a : V2Args) (s : State) : Res := ok (s.v2 set 0x10 1 a fun t => fop2 t fun x y => x.add y.neg)

/-- VMUL (R176). -/
def execVMul (set : Fin 768) (a : V2Args) (s : State) : Res := ok (s.v2 set 0x10 2 a fun t => fop2 t FP.mul)

/-- VMIN (R177). -/
def execVMin (set : Fin 768) (a : V2Args) (s : State) : Res := ok (s.v2 set 0x10 6 a fun t => fop2 t FP.minimum)

/-- VMAX (R177). -/
def execVMax (set : Fin 768) (a : V2Args) (s : State) : Res := ok (s.v2 set 0x10 7 a fun t => fop2 t FP.maximum)

/-- VDIV (R177). -/
def execVDiv (set : Fin 768) (a : V2Args) (s : State) : Res := ok (s.v2 set 0x10 0xD a fun t => fop2 t FP.div)

/-- VSCALE (R177). -/
def execVScale (set : Fin 768) (a : V2Args) (s : State) : Res := ok (s.v2 set 0x10 0xF a vscaleOp)

/-- VFMA (R176): VA × VB + VC. -/
def execVFma (set : Fin 768) (a : V3Args) (s : State) : Res := ok (s.v3 set 3 a FP.fma)

/-- VFMS (R176): VA × VB − VC. -/
def execVFms (set : Fin 768) (a : V3Args) (s : State) : Res := ok (s.v3 set 4 a fun x y z => x.fma y z.neg)

/-- VFNMA (R176): −VA × VB + VC. -/
def execVFnma (set : Fin 768) (a : V3Args) (s : State) : Res := ok (s.v3 set 5 a fun x y z => x.neg.fma y z)

/-- VABS (R176: clears the sign bit). -/
def execVAbs (set : Fin 768) (a : V1Args) (s : State) : Res := ok (s.v1 set 0x10 8 a fun t e => e % signBit t)

/-- VNEG (R176: inverts the sign bit). -/
def execVNeg (set : Fin 768) (a : V1Args) (s : State) : Res := ok (s.v1 set 0x10 9 a fun t e => e ^^^ signBit t)

/-- VRCP (R177). -/
def execVRcp (set : Fin 768) (a : V1Args) (s : State) : Res := ok (s.v1 set 0x10 0xA a fun t => fop1 t (FP.div (.fin false 1 0)))

/-- VRSQRT (R177). -/
def execVRsqrt (set : Fin 768) (a : V1Args) (s : State) : Res := ok (s.v1 set 0x10 0xB a fun t => fop1 t FP.rsqrt)

/-- VSQRT (R177). -/
def execVSqrt (set : Fin 768) (a : V1Args) (s : State) : Res := ok (s.v1 set 0x10 0xC a fun t => fop1 t FP.sqrt)

/-- VMOV (R176: bits only). -/
def execVMov (set : Fin 768) (a : V1Args) (s : State) : Res := ok (s.v1 set 0x10 0xE a fun _ e => e)

/-! ### VINT (R178) -/

/-- VIADD (R178). -/
def execVIadd (set : Fin 768) (a : V2Args) (s : State) : Res := ok (s.v2 set 0x11 0 a fun t => iop2 t (· + ·))

/-- VISUB (R178). -/
def execVIsub (set : Fin 768) (a : V2Args) (s : State) : Res := ok (s.v2 set 0x11 1 a visubOp)

/-- VIMUL (R178). -/
def execVImul (set : Fin 768) (a : V2Args) (s : State) : Res := ok (s.v2 set 0x11 2 a fun t => iop2 t (· * ·))

/-- VAND (R121). -/
def execVAnd (set : Fin 768) (a : V2Args) (s : State) : Res := ok (s.v2 set 0x11 3 a fun _ => Nat.land)

/-- VOR (R121). -/
def execVOr (set : Fin 768) (a : V2Args) (s : State) : Res := ok (s.v2 set 0x11 4 a fun _ => Nat.lor)

/-- VXOR (R121). -/
def execVXor (set : Fin 768) (a : V2Args) (s : State) : Res := ok (s.v2 set 0x11 5 a fun _ => Nat.xor)

/-- VNOT (R121). -/
def execVNot (set : Fin 768) (a : V1Args) (s : State) : Res := ok (s.v1 set 0x11 6 a fun t e => 2 ^ typeBits t - 1 - e)

/-- VSHL (R178). -/
def execVShl (set : Fin 768) (a : V2Args) (s : State) : Res := ok (s.v2 set 0x11 7 a vshlOp)

/-- VSHR (R178). -/
def execVShr (set : Fin 768) (a : V2Args) (s : State) : Res := ok (s.v2 set 0x11 8 a vshrOp)

/-- VSRA (R178). -/
def execVSra (set : Fin 768) (a : V2Args) (s : State) : Res := ok (s.v2 set 0x11 9 a vsraOp)

/-- VIMIN (R178). -/
def execVImin (set : Fin 768) (a : V2Args) (s : State) : Res := ok (s.v2 set 0x11 0xA a viminOp)

/-- VIMAX (R178). -/
def execVImax (set : Fin 768) (a : V2Args) (s : State) : Res := ok (s.v2 set 0x11 0xB a vimaxOp)

/-! ### VCMP (R121, R179) -/

/-- VCEQ (R179). -/
def execVCeq (set : Fin 768) (a : VCArgs) (s : State) : Res := ok (s.vcmp set 0 a)

/-- VCNE (R179). -/
def execVCne (set : Fin 768) (a : VCArgs) (s : State) : Res := ok (s.vcmp set 1 a)

/-- VCLT (R179). -/
def execVClt (set : Fin 768) (a : VCArgs) (s : State) : Res := ok (s.vcmp set 2 a)

/-- VCLE (R179). -/
def execVCle (set : Fin 768) (a : VCArgs) (s : State) : Res := ok (s.vcmp set 3 a)

/-- VCGT (R179). -/
def execVCgt (set : Fin 768) (a : VCArgs) (s : State) : Res := ok (s.vcmp set 4 a)

/-- VCGE (R179). -/
def execVCge (set : Fin 768) (a : VCArgs) (s : State) : Res := ok (s.vcmp set 5 a)

/-- VCUN (R179). -/
def execVCun (set : Fin 768) (a : VCArgs) (s : State) : Res := ok (s.vcmp set 6 a)

/-- PAND (R121). -/
def execPAnd (set : Fin 768) (pd pa pb : Fin 8) (pm : PredMode) (s : State) : Res :=
  ok (s.vpred set 0x20 pd pa pb pm fun a b => a && b)

/-- POR (R121). -/
def execPOr (set : Fin 768) (pd pa pb : Fin 8) (pm : PredMode) (s : State) : Res :=
  ok (s.vpred set 0x21 pd pa pb pm fun a b => a || b)

/-- PXOR (R121). -/
def execPXor (set : Fin 768) (pd pa pb : Fin 8) (pm : PredMode) (s : State) : Res :=
  ok (s.vpred set 0x22 pd pa pb pm fun a b => a != b)

/-- PANDN (R121). -/
def execPAndn (set : Fin 768) (pd pa pb : Fin 8) (pm : PredMode) (s : State) : Res :=
  ok (s.vpred set 0x23 pd pa pb pm fun a b => a && !b)

/-- PNOT (R121). -/
def execPNot (set : Fin 768) (pd pa : Fin 8) (pm : PredMode) (s : State) : Res :=
  ok (s.vpred set 0x24 pd pa 0 pm fun a _ => !a)

/-- PSET (R121). -/
def execPSet (set : Fin 768) (pd : Fin 8) (pm : PredMode) (s : State) : Res :=
  ok (s.vpred set 0x25 pd 0 0 pm fun _ _ => true)

/-- PCLR (R121). -/
def execPClr (set : Fin 768) (pd : Fin 8) (pm : PredMode) (s : State) : Res :=
  ok (s.vpred set 0x26 pd 0 0 pm fun _ _ => false)

/-! ### VCVT (R180) -/

/-- Writes a conversion's result under predication: a narrow result of a 32-bit source sits in its lane with the rest
zero, an 8-bit result of a packed source in its element. -/
def SetState.putCvt (x : SetState) (vd ty d : Nat) (pm : PredMode) (es : List Nat) : SetState :=
  let w := vcvtWide ty d
  x.put vd pm w es

/-- VCVT (R180). -/
def execVCvt (set : Fin 768) (dst : Fin 8) (a : V1Args) (s : State) : Res :=
  let t := a.ty.toNat
  ok (s.vreg set [] (encV 0x13 dst.val a.vd.val a.va.val 0 0 false a.pm a.ty) fun x =>
    x.putCvt a.vd.val t dst.val a.pm (vcvtReg t dst.val (x.elems a.va.val (isWide t))))

/-! ### VLANE (R181) -/

/-- A reduction: element 0 of VD receives it, and the others keep their values. -/
def State.vred (s : State) (n : Fin 768) (func : Nat) (a : V1Args) : State :=
  let t := a.ty.toNat
  let w := isWide t
  s.vreg n [] (encV 0x14 func a.vd.val a.va.val 0 0 false a.pm a.ty) fun x =>
    x.putElems a.vd.val w (reduce func t (x.actives a.pm w) (x.elems a.va.val w) :: (x.elems a.vd.val w).drop 1)

/-- VREDSUM (R181). -/
def execVRedsum (set : Fin 768) (a : V1Args) (s : State) : Res := ok (s.vred set 0 a)

/-- VREDMAX (R181). -/
def execVRedmax (set : Fin 768) (a : V1Args) (s : State) : Res := ok (s.vred set 1 a)

/-- VREDMIN (R181). -/
def execVRedmin (set : Fin 768) (a : V1Args) (s : State) : Res := ok (s.vred set 2 a)

/-- VPERM (R181): VD[i] = VA[VB[i]], indices modulo the element count. -/
def execVPerm (set : Fin 768) (a : V2Args) (s : State) : Res :=
  let t := a.ty.toNat
  let w := isWide t
  ok (s.vreg set (if a.bs then [a.vb.val] else []) (encV 0x14 3 a.vd.val a.va.val a.vb.val 0 a.bs a.pm a.ty) fun x =>
    let src := x.elems a.va.val w
    x.put a.vd.val a.pm w ((x.srcB a.vb.val a.bs w).map fun i => src.getD (i % typeCount t) 0))

/-- VBCASTL (R181): every element of VD = VA[sVB]. -/
def execVBcastl (set : Fin 768) (vd va rb : Fin 32) (pm : PredMode) (ty : BitVec 3) (s : State) : Res :=
  let t := ty.toNat
  let w := isWide t
  ok (s.vreg set [rb.val] (encV 0x14 4 vd.val va.val rb.val 0 true pm ty) fun x =>
    x.put vd.val pm w (List.replicate (typeCount t) ((x.elems va.val w).getD ((x.reg rb.val).toNat % typeCount t) 0)))

/-- VMOVS (R181): sVD = VA[sVB], sign-extended under INT32 and INT16. -/
def execVMovs (set : Fin 768) (rd va rb : Fin 32) (ty : BitVec 3) (s : State) : Res :=
  let t := ty.toNat
  ok (s.vreg set [rd.val, rb.val] (encV 0x14 5 rd.val va.val rb.val 0 true none ty) fun x =>
    let e := (x.elems va.val (isWide t)).getD ((x.reg rb.val).toNat % typeCount t) 0
    x.setReg rd.val (if t = 3 ∨ t = 5 then BitVec.ofInt 64 (signed (typeBits t) e) else BitVec.ofNat 64 e))

/-- VINS (R181): VD[sVB] = the low bits of sVA. DEDUCED, log entry 104. -/
def execVIns (set : Fin 768) (vd ra rb : Fin 32) (pm : PredMode) (ty : BitVec 3) (s : State) : Res :=
  let t := ty.toNat
  let w := isWide t
  ok (s.vreg set [ra.val, rb.val] (encV 0x14 6 vd.val ra.val rb.val 0 true pm ty) fun x =>
    x.put vd.val pm w (listSet (x.elems vd.val w) ((x.reg rb.val).toNat % typeCount t) ((x.reg ra.val).toNat % 2 ^ typeBits t)))

/-- VIOTA (R181): VD[i] = i. -/
def execVIota (set : Fin 768) (vd : Fin 32) (pm : PredMode) (ty : BitVec 3) (s : State) : Res :=
  let t := ty.toNat
  ok (s.vreg set [] (encV 0x14 7 vd.val 0 0 0 false pm ty) fun x => x.put vd.val pm (isWide t) (List.range (typeCount t)))

/-! ### VMEM (R122) -/

/-- Where `k` bytes at a VMEM address lie: set memory of the set or of a crewmate, aligned to the element, or nowhere. -/
def SetState.vplace (x : SetState) (n addr align k : Nat) : Option (Nat × Nat) :=
  match x.place n addr with
  | .sm m a => if addr % align = 0 ∧ a + k ≤ setMemBytes then some (m, a) else none
  | _ => none

/-- Reads the active elements of a list of places; inactive ones are not read. -/
def State.vread (s : State) (size : Nat) : List (Bool × Option (Nat × Nat)) → Status × List Nat × State
  | [] => (.done, [], s)
  | (true, some (m, a)) :: es =>
    let (st, bs, s1) := s.smRead m a size
    let (st2, vs, s2) := s1.vread size es
    (st.andThen st2, ofBytes bs :: vs, s2)
  | _ :: es =>
    let (st, vs, s1) := s.vread size es
    (st, 0 :: vs, s1)

/-- Runs of bytes to write, from the elements that are written: neighbours in memory are one write (R76). -/
def vruns (size : Nat) : List (Nat × Nat) → List (Nat × List Byte)
  | [] => []
  | (a, v) :: es =>
    match vruns size es with
    | (b, bs) :: rs => if b = a + size then (a, toBytes size v ++ bs) :: rs else (a, toBytes size v) :: (b, bs) :: rs
    | [] => [(a, toBytes size v)]

/-- Writes runs of bytes. -/
def State.vwrite (s : State) (m : Nat) : List (Nat × List Byte) → Status × State
  | [] => (.done, s)
  | (a, bs) :: rs =>
    let (st, s1) := s.smWrite m a bs
    let (st2, s2) := s1.vwrite m rs
    (st.andThen st2, s2)

/-- The SOURCE of a failed VMEM access. -/
def vsource (st : Status) : Nat := if st = .uncorrectable then 5 else 2

/-- VLD (R122): 256 contiguous bytes. -/
def execVLd (set : Fin 768) (vd ra : Fin 32) (pm : PredMode) (ty : BitVec 3) (s : State) : Res :=
  let t := ty.toNat
  let w := isWide t
  let size := typeBits t / 8
  ok (s.vissue set [ra.val] (encV 0x15 0 vd.val ra.val 0 0 false pm ty) fun s x =>
    match x.vplace set.val (x.reg ra.val).toNat size 256 with
    | none => vfail .access 2 s
    | some (m, a) =>
      let (st, vs, s1) := s.vread size ((x.actives pm w).zip ((List.range (typeCount t)).map fun i => some (m, a + size * i)))
      if st = .done then vdone (s1.putSet set.val ((s1.setSt set.val).put vd.val pm w vs)) else vfail st (vsource st) s1)

/-- The elements a store writes, with their values: active ones, and under PZ 1 zeros for the rest. -/
def storeElems (act : List Bool) (pz : Bool) (vs : List Nat) : List (Option Nat) :=
  List.zipWith (fun (a : Bool) v => if a then some v else if pz then some 0 else none) act vs

/-- VST (R122). -/
def execVSt (set : Fin 768) (vd ra : Fin 32) (pm : PredMode) (ty : BitVec 3) (s : State) : Res :=
  let t := ty.toNat
  let w := isWide t
  let size := typeBits t / 8
  ok (s.vissue set [ra.val] (encV 0x15 1 vd.val ra.val 0 0 false pm ty) fun s x =>
    match x.vplace set.val (x.reg ra.val).toNat size 256 with
    | none => vfail .access 2 s
    | some (m, a) =>
      let es := storeElems (x.actives pm w) (zeroing pm) (x.elems vd.val w)
      let runs := vruns size ((List.range es.length).filterMap fun i => ((es[i]?).getD none).map fun v => (a + size * i, v))
      let (st, s1) := s.vwrite m runs
      if st = .done then vdone s1 else vfail st (vsource st) s1)

/-- The places of the lanes of a strided access: lane i at RA + i × RB. -/
def SetState.lanePlaces (x : SetState) (n ra rb : Nat) : List (Option (Nat × Nat)) :=
  (List.range 64).map fun i => x.vplace n (x.reg ra + BitVec.ofNat 64 i * x.reg rb).toNat 4 4

/-- VLDS (R122): one 4-byte element per lane. -/
def execVLds (set : Fin 768) (vd ra rb : Fin 32) (pm : PredMode) (ty : BitVec 3) (s : State) : Res :=
  ok (s.vissue set [ra.val, rb.val] (encV 0x15 2 vd.val ra.val rb.val 0 false pm ty) fun s x =>
    let es := (x.actives pm true).zip (x.lanePlaces set.val ra.val rb.val)
    if es.any fun e => e.1 && e.2.isNone then vfail .access 2 s
    else
      let (st, vs, s1) := s.vread 4 es
      if st = .done then vdone (s1.putSet set.val ((s1.setSt set.val).put vd.val pm true vs)) else vfail st (vsource st) s1)

/-- Writes lanes in ascending order (R122). -/
def State.laneWrite (s : State) : List (Option Nat × Option (Nat × Nat)) → Status × State
  | [] => (.done, s)
  | (some v, some (m, a)) :: es =>
    let (st, s1) := s.smWrite m a (toBytes 4 v)
    let (st2, s2) := s1.laneWrite es
    (st.andThen st2, s2)
  | _ :: es => s.laneWrite es

/-- VSTS (R122): lanes in ascending order. -/
def execVSts (set : Fin 768) (vd ra rb : Fin 32) (pm : PredMode) (ty : BitVec 3) (s : State) : Res :=
  ok (s.vissue set [ra.val, rb.val] (encV 0x15 3 vd.val ra.val rb.val 0 false pm ty) fun s x =>
    let es := (storeElems (x.actives pm true) (zeroing pm) (x.elems vd.val true)).zip (x.lanePlaces set.val ra.val rb.val)
    if es.any fun e => e.1.isSome && e.2.isNone then vfail .access 2 s
    else
      let (st, s1) := s.laneWrite es
      if st = .done then vdone s1 else vfail st (vsource st) s1)

/-! ### Function tables (R184 to R186) -/

/-- The bytes of a table slot: 0 to 3 forward, 4 to 7 derivative. -/
def SetState.table (x : SetState) (k : Nat) : List Byte := x.tabs.read 0 (4096 * k) 4096

/-- Evaluates a table slot: an unloaded one gives ILLEGAL (R185). -/
def State.vtable (s : State) (n : Fin 768) (func k : Nat) (a : V1Args) : State :=
  s.vissue n [] (encV 0x16 func a.vd.val a.va.val 0 0 false a.pm a.ty) fun s x =>
    if bit x.loaded k then vdone (s.putSet n.val (x.put a.vd.val a.pm true ((x.elems a.va.val true).map (tableEval (x.table k)))))
    else vfail .illegal 2 s

/-- VFN0 to VFN3 (R184). -/
def execVFn (set : Fin 768) (slot : Fin 4) (a : V1Args) (s : State) : Res := ok (s.vtable set slot.val slot.val a)

/-- VDFN0 to VDFN3 (R186). -/
def execVDfn (set : Fin 768) (slot : Fin 4) (a : V1Args) (s : State) : Res := ok (s.vtable set (8 + slot.val) (4 + slot.val) a)

/-- Loads a table slot from 4,096 bytes at a 64-byte aligned set address in space 0b01 or 0b10 (R185). -/
def State.vload (s : State) (n : Fin 768) (func k : Nat) (ra : Fin 32) (pm : PredMode) : State :=
  s.vissue n [ra.val] (encV 0x16 func 0 ra.val 0 0 false pm 0) fun s x =>
    match x.vplace n.val (x.reg ra.val).toNat 64 4096 with
    | none => vfail .access 2 s
    | some (m, a) =>
      let (st, bs, s1) := s.smRead m a 4096
      if st ≠ .done then vfail st (vsource st) s1
      else
        let y := s1.setSt n.val
        vdone (s1.putSet n.val { y with tabs := y.tabs.write 0 (4096 * k) bs, loaded := y.loaded ||| 2 ^ k })

/-- VTLDF0 to VTLDF3 (R185). -/
def execVTldf (set : Fin 768) (slot : Fin 4) (ra : Fin 32) (pm : PredMode) (s : State) : Res :=
  ok (s.vload set (0x10 + slot.val) slot.val ra pm)

/-- VTLDD0 to VTLDD3 (R185). -/
def execVTldd (set : Fin 768) (slot : Fin 4) (ra : Fin 32) (pm : PredMode) (s : State) : Res :=
  ok (s.vload set (0x18 + slot.val) (4 + slot.val) ra pm)

/-! ### VRND (R187) -/

/-- VRND (R187). -/
def execVRnd (set : Fin 768) (vd ra rb : Fin 32) (pm : PredMode) (ty : BitVec 3) (s : State) : Res :=
  ok (s.vreg set [ra.val, rb.val] (encV 0x17 0 vd.val ra.val rb.val 0 false pm ty) fun x =>
    let seed := s.recField x.slot 16 8
    let step := s.getF CTX_S_STEP_NO x.slot 0
    let tensor := (x.reg ra.val).toNat % 2 ^ 32
    x.put vd.val pm true ((List.range 64).map fun i => philoxWord seed (((x.reg rb.val).toNat + i) % 2 ^ 64) step tensor))

/-! ### VFWD (R123, R190, R191) -/

/-- VTAKE and VGIVE outside a fused body give ILLEGAL. -/
def State.outside (s : State) (n : Fin 768) : State := s.vissue n [] 0 fun s _ => vfail .illegal 1 s

/-- The next instruction of the body that runs on a set is a word. -/
def SetState.atBody (x : SetState) (word : BitVec 64) : Bool :=
  match x.fused with
  | some fu => fu.busy && decide (fu.body[fu.pos]? = some word)
  | none => false

/-- UNASSIGNED_INSTRUCTION (R106): a word that R106 does not assign gives ILLEGAL, from the stream or when a body reaches it; the
meaning of one that it assigns is that of its own row. -/
def execUnassigned (set : Fin 768) (word : BitVec 64) (s : State) : Res :=
  ok (if !legalWord word && (s.setSt set.val).atBody word then s.vissue set [] word fun s _ => vdone s
    else s.issue set.val [] fun _ => if legalWord word then s else s.illegal set.val)

/-- VTAKE (R190): the next producer row, in FP32; it waits until that row is final. -/
def execVTake (set : Fin 768) (vd : Fin 32) (pm : PredMode) (ty : BitVec 3) (s : State) : Res :=
  let x := s.setSt set.val
  ok (match x.fused with
    | some fu =>
      if fu.busy then
        match fu.ready.find fu.taken with
        | none => s
        | some row => s.vissue set [] (encV 0x18 0 vd.val 0 0 0 false pm ty) fun s x =>
            vdone (s.putSet set.val { x.put vd.val pm true row with
              fused := some { fu with ready := fu.ready.erase fu.taken, taken := fu.taken + 1 } })
      else s.outside set
    | none => s.outside set)

/-- VGIVE (R191): one row for the consumer; inactive elements are +0. FP32 values are rounded to its ACT_FMT, and a packed
TYPE must equal it. -/
def execVGive (set : Fin 768) (va : Fin 32) (pm : PredMode) (ty : BitVec 3) (s : State) : Res :=
  let t := ty.toNat
  let w := isWide t
  let x := s.setSt set.val
  ok (match x.fused with
    | some fu =>
      if fu.busy then
        s.vissue set [] (encV 0x18 1 0 va.val 0 0 false pm ty) fun s x =>
          if t ≠ 0 ∧ t ≠ fu.giveFmt + 1 then vfail .illegal 2 s
          else
            let es := List.zipWith (fun (a : Bool) e => if a then e else 0) (x.actives pm w) (x.elems va.val w)
            let cv := fun e => if t = 0 then vcvtOp (if fu.giveFmt < 2 then fu.giveFmt + 1 else fu.giveFmt + 4) (f32 e) else e
            vdone (s.putSet set.val { x with fused := some { fu with given := fu.given ++ [(es.map cv).take fu.giveLen] } })
      else s.outside set
    | none => s.outside set)

end Sys2Proof.Machine
end

