-- ==== Sys2Proof/Machine/Arrays.lean ====
section
/-! DEFINITION. The matrix arrays (R78 to R91, R141 to R171, R196): operand layouts, the sums of a pass, tiles from their start to
their completion, cut-in, array faults, ramps and pauses. The arrays of a set run their passes together, since they hold
one stationary block (R142); the rows of a pass enter no later than the pass ends, and earlier where a row is drained
before (DESIGN CHOICE, log entry 49). -/

namespace Sys2Proof.Machine

/-! ### Operand formats (R132, R143 to R160) -/

/-- The bytes of 32 elements of a format. -/
def stepBytes (f : Nat) : Nat :=
  if f ≤ 1 then 64 else if f = 6 ∨ f = 7 then 24 else if f = 8 then 16 else if f = 0xA then 128 else 32

/-- The bits of an element. -/
def elemBits (f : Nat) : Nat := stepBytes f / 4

/-- Element i of a packed run of bytes: 6-bit and 4-bit elements lie at bits of the whole run (R160). -/
def elemAt (f : Nat) (bs : List Byte) (i : Nat) : Nat :=
  let w := elemBits f
  bits (ofBytes ((bs.drop (i * w / 8)).take (w / 8 + 2))) (i * w % 8 + w - 1) (i * w % 8)

/-- The exact value of an element (R158, R161). -/
def elemFP (f w : Nat) : FP :=
  match f with
  | 0 => fmtBF16.decode w
  | 1 => fmtFP16.decode w
  | 2 | 4 => fmtE4M3.decode w
  | 3 | 5 => fmtE5M2.decode w
  | 6 => fmtE3M2.decode w
  | 7 => fmtE2M3.decode w
  | 8 => fmtE2M1.decode w
  | 9 => FP.int (signed 8 w)
  | _ => fmtFP32.decode w

/-- The high BF16 piece of an FP32 element (R162). -/
def splitHigh (x : FP) : FP :=
  match x with
  | .fin neg m e =>
    match fmtBF16.decode (fmtBF16.round (.fin neg m e)) with
    | .inf g => fmtBF16.decode (fmtBF16.sign g + fmtBF16.maxFin)
    | h => h
  | y => y

/-- The low BF16 piece (R162). -/
def splitLow (x : FP) : FP :=
  match x with
  | .fin neg m e => fmtBF16.decode (fmtBF16.round (FP.add (.fin neg m e) (splitHigh (.fin neg m e)).neg))
  | _ => .fin false 0 0

/-- The value of an element in a pass: for FP32 one of its pieces. -/
def passValue (f w : Nat) (low : Bool) : FP :=
  if f = 0xA then (if low then splitLow (elemFP f w) else splitHigh (elemFP f w)) else elemFP f w

/-- The sum of products of one column (R164): the products are added exactly. -/
def dot : List FP → List FP → FP
  | a :: as, b :: bs => match as with
    | [] => a.mul b
    | _ => (a.mul b).add (dot as bs)
  | _, _ => .fin false 0 0

/-- The factor of two block scales (R159, R164): a NaN scale makes the sum NaN. -/
def scaled (x : FP) (xa xs : Nat) : FP := if xa = 255 ∨ xs = 255 then .nan else x.scale ((xa : Int) + (xs : Int) - 254)

/-- The value of an accumulator element. -/
def accValue (w : Nat) : FP := (w48Decode w).getD .nan

/-- The OUT_FMT pattern of a W48 element (R166). -/
def outConvert (f w : Nat) : Nat :=
  let x := accValue w
  match f with
  | 0 => w48Round x
  | 1 => fmtFP32.round x
  | 2 => fmtBF16.round x
  | 3 => fmtE4M3.round x
  | _ => fmtE5M2.round x

/-- The size of an output element. -/
def outSize (f : Nat) : Nat := outRowBytes f / 64

/-! ### Tiles that run -/

/-- The running tile of an order number. -/
def SetState.findRun (x : SetState) (id : Nat) : Option TileRun := x.tiles.find? fun r => decide (r.tile.id = id)

/-- Replaces a running tile. -/
def SetState.putRun (x : SetState) (r : TileRun) : SetState :=
  { x with tiles := x.tiles.map fun t => if t.tile.id = r.tile.id then r else t }

/-- An array of a set. -/
def SetState.arr (x : SetState) (k : Nat) : Arr := x.arrs.getD k Arr.init

/-- Replaces an array. -/
def SetState.putArr (x : SetState) (k : Nat) (a : Arr) : SetState := { x with arrs := listSet x.arrs k a }

/-- A tile holds an array: its passes or its drain. -/
def Arr.holds (a : Arr) (id : Nat) : Bool :=
  (match a.cur with | some b => decide (b.tile = id) | none => false)
  || (match a.drain with | some b => decide (b.tile = id) | none => false)

/-- A tile leaves the arrays: its accumulators are discarded. -/
def SetState.clearTile (x : SetState) (id : Nat) : SetState :=
  { x with
    arrs := x.arrs.map fun a => { a with
      cur := a.cur.filter fun b => decide (b.tile ≠ id), drain := a.drain.filter fun b => decide (b.tile ≠ id) },
    pass := x.pass.filter fun p => decide (p.tile ≠ id) }

/-- A running tile fails: nothing more of it runs. -/
def State.failTile (s : State) (n id k : Nat) (st : Status) : State :=
  let x := s.setSt n
  match x.findRun id with
  | some r => s.putSet n ((x.putRun { r with status := st.num, failed := some k, left := [] }).clearTile id)
  | none => s

/-- The number of sub-passes of a K-step: three for FP32 (R162). -/
def subPasses (d : List Byte) : Nat := if tStatFmt d = 0xA then 3 else 1

/-- The key of the stationary block of a pass (R143, R145, R162). -/
def passKey (d : List Byte) (p : Pass) : BankKey :=
  ⟨(leAt d 16 8 + p.kstep * leAt d 40 4) % 2 ^ 64, tStatFmt d, decide (tXpose d = 1),
    if isMx (tStatFmt d) then leAt d 52 4 + 1 else 0, decide (p.sub = 2)⟩

/-- The pass is its block's last. -/
def lastPass (d : List Byte) (p : Pass) : Bool := decide (p.sub + 1 = subPasses d ∧ p.kstep + 1 = tSteps d)

/-- The first pass of the next blocks of a running tile other than a fused sequence's, if any are left. -/
def SetState.nextTile (x : SetState) : Option Pass :=
  match x.tiles.find? fun r => !r.left.isEmpty && r.failed.isNone with
  | some r => some ⟨r.tile.id, 0, 0, false⟩
  | none => none

/-- The pass after a tile's last of a round of blocks: within a fused sequence producer and consumer alternate (R192). -/
def SetState.afterRound (x : SetState) (id : Nat) : Option Pass :=
  match x.fused with
  | some f =>
    let other := if id = f.producer then f.consumer.getD id else f.producer
    match x.findRun other with
    | some r => if r.left.isEmpty then none else some ⟨other, 0, 0, false⟩
    | none => none
  | none => x.nextTile

/-- The pass that follows one (R79, R145, R162). -/
def SetState.afterPass (x : SetState) (p : Pass) : Option Pass :=
  match x.findRun p.tile with
  | none => x.nextTile
  | some r =>
    let d := r.tile.desc
    if p.sub + 1 < subPasses d then some ⟨p.tile, p.kstep, p.sub + 1, false⟩
    else if p.kstep + 1 < tSteps d then some ⟨p.tile, p.kstep + 1, 0, false⟩
    else x.afterRound p.tile

/-- Deals the next blocks of a tile to the arrays in service, one each (R79). -/
def State.deal (s : State) (n id : Nat) : State :=
  let x := s.setSt n
  match x.findRun id with
  | none => s
  | some r =>
    let ks := s.arraysOf n
    let rows := tRows r.tile.desc
    let x1 := (ks.zip r.left).foldl (fun (x : SetState) e =>
      x.putArr e.1 { x.arr e.1 with
        cur := some ⟨id, e.2.1, min 256 (rows - 256 * e.2.1), e.2.2⟩, entered := 0 }) x
    s.putSet n (x1.putRun { r with left := r.left.drop ks.length })

/-- The pass may begin: its stationary block is in the active bank, or in the shadow bank, which then swaps (R146). -/
def SetState.settle (x : SetState) (key : BankKey) (p : Pass) : SetState :=
  if (x.active.map Bank.key) = some key then { x with pass := some { p with begun := true } }
  else if (x.shadow.map Bank.key) = some key then
    { x with active := x.shadow, shadow := none, pass := some { p with begun := true } }
  else { x with pass := some { p with begun := false } }

/-- Goes on with a pass, or with none: then the arrays run their stop ramps and a later pass makes its own load (R145,
R152). -/
def State.beginPass (s : State) (n : Nat) (p : Option Pass) : State :=
  match p with
  | none =>
    let x := s.setSt n
    s.putSet n { x with
      pass := none, active := none, shadow := none,
      arrs := x.arrs.map fun a => { a with entered := 0, ramp := if a.ramp = .idle then .idle else .down } }
  | some p =>
    let s0 := s.putSet n { s.setSt n with arrs := (s.setSt n).arrs.map fun a => { a with entered := 0 } }
    let s1 := if p.kstep = 0 ∧ p.sub = 0 then s0.deal n p.tile else s0
    let x := s1.setSt n
    match x.findRun p.tile with
    | none => s1
    | some r => s1.putSet n (x.settle (passKey r.tile.desc p) p)

/-- An idle array, or one in its stop ramp, starts its start ramp (R152, R153). -/
def Arr.rampUp (a : Arr) : Arr := if a.ramp = .idle ∨ a.ramp = .down then { a with ramp := .up } else a

/-- The arrays of a set in service that go on or start after an idle time run their start ramp. -/
def State.rampUp (s : State) (n : Nat) : State :=
  s.putSet n ((s.arraysOf n).foldl (fun (x : SetState) k => x.putArr k (x.arr k).rampUp) (s.setSt n))

/-- With no pass in progress, the arrays take up the next one there is. -/
def State.takeUp (s : State) (n : Nat) : State :=
  let x := s.setSt n
  if x.pass.isSome ∨ s.arrOk n = 0 then s
  else
    let p := match x.fused with
      | some f => match x.findRun f.producer with
        | some r => if r.left.isEmpty then none else some ⟨f.producer, 0, 0, false⟩
        | none => none
      | none => x.nextTile
    match p with
    | none => s
    | some p => (s.beginPass n (some p)).rampUp n

/-- A throttle pause or a droop holds the arrays of a set (R167, R526). -/
def State.paused (s : State) (n : Nat) : Bool := s.throttled n

/-- The arrays of a set act. DEDUCED, log entry 102. -/
def State.arraysRun (s : State) (n : Nat) : Bool := s.unitRuns n && (s.setSt n).live && !s.paused n

/-- The blocks of a tile: all, or those to redo with their first row to drain. -/
def tileBlocks (t : Tile) : List (Nat × Nat) :=
  if tRows t.desc = 0 ∨ tSteps t.desc = 0 then []
  else match t.redo with
    | some m => m
    | none => (List.range ((tRows t.desc + 255) / 256)).map fun j => (j, 0)

/-- Adds a tile to those that run on a set. -/
def State.runTile (s : State) (n : Nat) (t : Tile) : State :=
  let x := s.setSt n
  (s.putSet n { x with tiles := x.tiles ++ [⟨t, tileBlocks t, 0, none⟩] }).takeUp n

/-- TILE_START (R78, R80, R189): the head tile starts once every tile that runs has dealt its blocks. A fused sequence has a
command of its own. -/
def execTileStart (set : Fin 768) (s : State) : Res :=
  let n := set.val
  let x := s.setSt n
  ok (match x.queue with
    | [] => s
    | t :: ts =>
      if !s.arraysRun n || x.frozen || t.body.isSome || decide (s.arrOk n = 0) || x.fused.isSome || x.soft || x.hard
          || x.tiles.any (fun r => !r.left.isEmpty) then s
      else (s.putSet n { x with queue := ts }).runTile n t)

/-! ### Stationary blocks (R142, R143, R146, R155) -/

/-- Reads the stationary block of a key: its elements by 64 k + n, and its scales. -/
def State.readBank (s : State) (n : Nat) (key : BankKey) : Status × Option Bank × State :=
  let (st, bs, s1) := s.readRun n 1 6 key.addr (64 * stepBytes key.fmt)
  if st ≠ .done then (st, none, s1)
  else
    let elems := (List.range 2048).map fun i => elemAt key.fmt bs (if key.xpose then 32 * (i % 64) + i / 64 else i)
    if key.scale = 0 then (.done, some ⟨key, elems, List.replicate 64 127⟩, s1)
    else
      let (st2, sc, s2) := s1.readRun n 1 3 ((key.addr + (key.scale - 1)) % 2 ^ 64) 64
      if st2 ≠ .done then (st2, none, s2) else (.done, some ⟨key, elems, sc.map BitVec.toNat⟩, s2)

/-- SHADOW_LOAD (R146): the block of the pass that waits for one, or of the next pass. -/
def execShadowLoad (set : Fin 768) (s : State) : Res :=
  let n := set.val
  let x := s.setSt n
  ok (match x.pass with
    | none => s
    | some p =>
      match (if p.begun then x.afterPass p else some p) with
      | none => s
      | some q => match x.findRun q.tile with
        | none => s
        | some r =>
          let key := passKey r.tile.desc q
          if !s.arraysRun n || decide (x.active.map Bank.key = some key ∨ x.shadow.map Bank.key = some key) then s
          else
            let (st, b, s1) := s.readBank n key
            match b with
            | none => s1.failTile n q.tile 0 st
            | some b =>
              let s2 := s1.putSet n { s1.setSt n with shadow := some b }
              if p.begun then s2 else s2.putSet n ((s2.setSt n).settle key p))

/-! ### Rows (R144, R147, R156, R164) -/

/-- A row of a K-step from memory (R135, R144, R156). -/
def State.actRowMem (s : State) (n : Nat) (d : List Byte) (f base stride r j : Nat) : Option (Status × List Nat × Nat × State) :=
  if tXpose d = 2 then
    let w := elemBits f / 8
    let rd := (List.range 32).foldl (fun (a : Status × List Nat × State) i =>
      if a.1 ≠ .done then a
      else
        let (st, bs, s1) := a.2.2.readRun n 1 3 ((base + (32 * j + i) * stride + r * w) % 2 ^ 64) w
        (st, a.2.1 ++ [ofBytes bs], s1)) (Status.done, ([] : List Nat), s)
    some (rd.1, rd.2.1, 127, rd.2.2)
  else
    let (st, bs, s1) := s.readRun n 1 3 ((base + r * stride + j * stepBytes f) % 2 ^ 64) (stepBytes f)
    let es := (List.range 32).map (elemAt f bs)
    if st = .done ∧ isMx f = true then
      let (st2, sc, s2) := s1.readRun n 1 2 ((base + r * stride + leAt d 56 4 + j) % 2 ^ 64) 1
      some (st2, es, ofBytes sc, s2)
    else some (st, es, 127, s1)

/-- The elements of K-step `j` of activation row `r` of a tile with their block scale (R135, R144, R156, R191). -/
def State.actRow (s : State) (n : Nat) (t : Tile) (r j : Nat) : Option (Status × List Nat × Nat × State) :=
  let d := t.desc
  let f := tActFmt d
  let base := leAt d 24 8
  let stride := leAt d 44 4
  let x := s.setSt n
  match x.fused with
  | some fu =>
    if fu.consumer = some t.id then
      match fu.given[r]? with
      | none => none
      | some g => some (.done, (g.drop (32 * j)).take 32, 127, s)
    else s.actRowMem n d f base stride r j
  | none => s.actRowMem n d f base stride r j
/-- The sums of a row over the 64 columns of a bank. -/
def rowSums (b : Bank) (f : Nat) (lowAct : Bool) (act : List Nat) (xa : Nat) : List FP :=
  let a := act.map fun w => passValue f w lowAct
  (List.range 64).map fun c =>
    scaled (dot a ((List.range 32).map fun k => passValue b.key.fmt (b.elems.getD (64 * k + c) 0) b.key.low)) xa (b.scales.getD c 127)

/-- Accumulates the sums of a row (R149, R164): a block's first pass sets, later ones add. -/
def Arr.accumulate (a : Arr) (row : Nat) (first : Bool) (sums : List FP) : Arr :=
  { a with
    acc := a.acc.write 0 (64 * row) ((List.range 64).map fun c =>
      let x := sums.getD c (.fin false 0 0)
      w48Round (if first then x else (accValue (a.acc.get 0 (64 * row + c))).add x)),
    entered := a.entered + 1 }

/-- The next row of the pass in progress enters an array; none while it is held (R147, R150, R151, R192). -/
def State.enterRow (s : State) (n k : Nat) : Option (Status × State) :=
  let x := s.setSt n
  let a := x.arr k
  match x.pass, x.active, a.cur with
  | some p, some bank, some b =>
    match x.findRun b.tile with
    | none => none
    | some r =>
      let first := decide (p.kstep = 0 ∧ p.sub = 0)
      let free := match a.drain with
        | some d => decide (d.rows ≤ a.entered ∨ a.entered < d.next)
        | none => true
      if !p.begun || decide (a.ramp ≠ .active ∨ b.tile ≠ p.tile) || (first && !free) then none
      else match s.actRow n r.tile (256 * b.block + a.entered) p.kstep with
        | none => none
        | some (st, act, xa, s1) =>
          if st ≠ .done then some (st, s1)
          else
            let y := s1.setSt n
            let sums := rowSums bank (tActFmt r.tile.desc) (decide (p.sub = 1)) act xa
            some (.done, s1.putSet n (y.putArr k ((y.arr k).accumulate a.entered first sums)))
  | _, _, _ => none

/-- Rows enter an array until `m` more have. -/
def State.enterRows (s : State) (n k : Nat) : Nat → Option (Status × State)
  | 0 => some (.done, s)
  | m + 1 =>
    match s.enterRow n k with
    | none => none
    | some (st, s1) => if st = .done then s1.enterRows n k m else some (st, s1)

/-- The rows of a pass still to enter an array. -/
def Arr.missing (a : Arr) : Nat := match a.cur with
  | some b => b.rows - a.entered
  | none => 0

/-- The remaining rows of a pass enter every array of a list: none while one is held; the array at which it failed. -/
def State.enterAll (s : State) (n : Nat) : List Nat → Option (Status × Nat × State)
  | [] => some (.done, 0, s)
  | k :: ks =>
    match s.enterRows n k ((s.setSt n).arr k).missing with
    | none => none
    | some (st, s1) => if st = .done then s1.enterAll n ks else some (st, k, s1)

/-- After a block's last pass its rows drain. -/
def Arr.toDrain (a : Arr) : Arr := match a.cur with
  | some b => { a with cur := none, drain := some b, entered := 0 }
  | none => a

/-- PASS_END (R146, R147): the last rows enter, and the next pass begins. -/
def execPassEnd (set : Fin 768) (s : State) : Res :=
  let n := set.val
  let x := s.setSt n
  ok (match x.pass with
    | none => s
    | some p =>
      match x.findRun p.tile with
      | none => s
      | some r =>
        let last := lastPass r.tile.desc p
        if !s.unitRuns n || s.paused n || decide (x.run = .inReset ∨ x.run = .unbound) || !p.begun
            || (last && x.arrs.any fun a => a.cur.isSome && a.drain.isSome) then s
        else match s.enterAll n (s.arraysOf n) with
          | none => s
          | some (st, k, s1) =>
            if st ≠ .done then
              let s2 := s1.failTile n p.tile k st
              s2.beginPass n (s2.setSt n).nextTile
            else
              let y := s1.setSt n
              let s2 := if last then s1.putSet n { y with arrs := y.arrs.map Arr.toDrain } else s1
              if (s2.setSt n).live then s2.beginPass n ((s2.setSt n).afterPass p) else s2.beginPass n none)

/-! ### Drain (R150, R166, R169, R196) -/

/-- What became of an output row: written, held because the pair is full, or a status. -/
inductive RowOut where
  | held
  | sent (st : Status) (s : State)

/-- Sends one output row of a tile: row `r` with the 64 W48 patterns `ws`. -/
def State.putRow (s : State) (n : Nat) (t : Tile) (r : Nat) (ws : List Nat) : RowOut :=
  let d := t.desc
  let x := s.setSt n
  let a := (leAt d 32 8 + r * leAt d 48 4) % 2 ^ 64
  match tMode d with
  | 0 =>
    let bs := ws.flatMap fun w => toBytes (outSize (tOutFmt d)) (outConvert (tOutFmt d) w)
    let (st, s1) := s.writeRun n 1 5 a bs
    .sent st s1
  | 1 =>
    match x.place n a with
    | .ctx c =>
      if s.fencedSlot x.slot then .sent .fenced s
      else
        let (st, m, offs, s1) := s.blockLines (dieOf n) x.slot c 6
        if st ≠ .done then .sent st s1
        else if m = s1.self then
          let (st2, s2) := s1.windowHere s1.self (s1.ctxOf x.slot) x.slot .bw48 c (leAt d 60 2) offs (ws.map accValue)
          .sent st2 s2
        else
          match s1.remote n 3 c ⟨m, 0, offs.headD 0⟩ (.windowAdd (leAt d 60 2) false 0 (ws.flatMap (toBytes 6))) (.tile n t.id) with
          | (.wait, _) => .held
          | (.sent, s2) => .sent .done s2
          | (.refused st2, s2) => .sent st2 s2
          | (.answered st2 _, s2) => .sent (Status.ofNum st2) s2
    | _ => .sent .access s
  | _ =>
    .sent .done (s.putSet n { x with
      fused := x.fused.map fun f => { f with ready := f.ready.insert r (ws.map (outConvert 1)) } })

/-- Drains the next row of a block from array `k`; `inDrain` says that its passes are over. -/
def State.drainRow (s : State) (n k : Nat) (b : Blk) (inDrain : Bool) : State :=
  let x := s.setSt n
  match x.findRun b.tile with
  | none => s
  | some r =>
    match s.putRow n r.tile (256 * b.block + b.next) ((x.arr k).acc.read 0 (64 * b.next) 64) with
    | .held => s
    | .sent st s1 =>
      if st ≠ .done ∧ st ≠ .overrange then s1.failTile n b.tile k st
      else
        let y := s1.setSt n
        let c : Blk := { b with next := b.next + 1 }
        let a := y.arr k
        let z := y.putArr k (if inDrain then { a with drain := some c } else { a with cur := some c })
        s1.putSet n (match z.findRun b.tile with
          | some r => if st = .overrange ∧ r.status = 0 then z.putRun { r with status := st.num } else z
          | none => z)

/-- ROW_DRAIN (R150): the next row of the block whose passes are over, or, in a block's last pass, its next row once it
has entered. -/
def execRowDrain (set : Fin 768) (array : Fin 4) (s : State) : Res :=
  let n := set.val
  let k := array.val
  let x := s.setSt n
  let a := x.arr k
  let inPass (_ : Unit) : State :=
    match a.cur, x.pass with
    | some b, some p =>
      match x.findRun b.tile with
      | none => s
      | some r =>
        if !lastPass r.tile.desc p || decide (b.tile ≠ p.tile ∨ b.rows ≤ b.next) then s
        else match s.enterRows n k (b.next + 1 - a.entered) with
          | none => s
          | some (st, s1) => if st = .done then s1.drainRow n k b false else s1.failTile n b.tile k st
    | _, _ => s
  ok (if !s.arraysRun n then s
    else match a.drain with
      | some b => if b.next < b.rows then s.drainRow n k b true else inPass ()
      | none => inPass ())

/-- BLOCK_COMPLETE (R148): every row of the block has drained. -/
def execBlockComplete (set : Fin 768) (array : Fin 4) (s : State) : Res :=
  let n := set.val
  let x := s.setSt n
  let a := x.arr array.val
  ok (match a.drain with
    | some b => if b.rows ≤ b.next ∧ s.arraysRun n = true then s.putSet n (x.putArr array.val { a with drain := none }) else s
    | none => s)

/-! ### Completion (R139, R148) -/

/-- A request of a tile awaits its acknowledgement. -/
def State.tileWaits (s : State) (n id : Nat) : Bool :=
  s.fab.sent.any fun q => decide (q.waiter = .tile n id)

/-- A running tile has finished: failed, or every block complete and every row acknowledged. -/
def State.tileOver (s : State) (n : Nat) (r : TileRun) : Bool :=
  let x := s.setSt n
  !s.tileWaits n r.tile.id &&
    (r.failed.isSome || (r.left.isEmpty && !x.arrs.any (fun a => a.holds r.tile.id)
      && !(match x.fused with
           | some f => decide (f.producer = r.tile.id) && !f.body.isEmpty
           | none => false)))

/-- The fused sequence of a set that a tile belongs to, as producer or consumer. -/
def SetState.fusedOf (x : SetState) (id : Nat) : Option Fused :=
  x.fused.filter fun f => decide (id = f.producer ∨ some id = f.consumer)

/-- Completes a running tile: the status byte, the counter, and the fault of a status that stops the set. -/
def State.tileDone (s : State) (n : Nat) (r : TileRun) : State :=
  let x := s.setSt n
  let d := r.tile.desc
  let fu := match x.fused with
    | some f => if f.consumer = some r.tile.id ∨ (f.producer = r.tile.id ∧ (f.consumer = none ∨ r.failed.isSome = true)) then none
      else some f
    | none => none
  let rest := x.tiles.filter fun t => decide (t.tile.id ≠ r.tile.id)
  let partner := (x.fusedOf r.tile.id).bind Fused.consumer
  let tiles := if r.failed.isNone then rest else rest.map fun t =>
    if some t.tile.id = partner then { t with left := [], status := r.status, failed := r.failed } else t
  let s1 := s.putSet n { x.clearTile r.tile.id with tiles := tiles, fused := fu }
  let st := Status.ofNum r.status
  let s2 := s1.complete x.slot r.tile.owner r.tile.addr 13 (leAt d 12 1 % 64) (leAt d 14 2) r.status
  if st.stops then s2.stopSet n st 3 (r.failed.getD 0) r.tile.owner (localAddr r.tile.addr) else s2.takeUp n

/-- TILE_COMPLETE (R139): the oldest running tile that has finished. -/
def execTileComplete (set : Fin 768) (s : State) : Res :=
  let n := set.val
  let x := s.setSt n
  ok (if !s.unitRuns n || !x.live then s
    else match x.tiles.find? (s.tileOver n) with
      | some r => s.tileDone n r
      | none => s)

/-! ### Cut-in (R86 to R90, R100) -/

/-- A set is idle for cut-in. -/
def State.cutinIdle (s : State) (n : Nat) : Bool :=
  let x := s.setSt n
  s.arraysRun n && x.cutin && x.queue.isEmpty && x.tiles.isEmpty && x.lentFrom.isNone && !x.soft && !x.hard
    && decide (s.arrOk n ≠ 0)

/-- The lowest crewmate that has an array in service. -/
def State.firstWithArrays (s : State) (x : SetState) : Option Nat := x.crew.find? fun m => decide (s.arrOk m ≠ 0)

/-- The tail of a crewmate's queue that a set may take. -/
def State.takable (s : State) (n : Nat) (x : SetState) (m : Nat) : Option Tile :=
  let y := s.setSt m
  match y.queue.reverse with
  | [] => none
  | t :: before =>
    let follows := match before with
      | b :: _ => b.body.isSome
      | [] => false
    let pinnedOk := !tPinned t.desc || (decide (s.arrOk m = 0 ∧ s.firstWithArrays x = some n) && !follows)
    if y.slot = x.slot ∧ y.lentFrom = none ∧ y.frozen = false ∧ t.body = none ∧ pinnedOk = true then some t else none

/-- The first crewmate, from the next index upward, with a tail that may be taken. -/
def State.cutinFrom (s : State) (n : Nat) : Option (Nat × Tile) :=
  let x := s.setSt n
  ((List.range (x.crewSize - 1)).map fun i => (x.crewIndex + 1 + i) % x.crewSize).findSome? fun i =>
    match x.crew[i]? with
    | some m => (s.takable n x m).map fun t => (m, t)
    | none => none

/-- CUT_IN (R87, R88, R90): the taker runs the tile under a number of its own. -/
def execCutIn (set : Fin 768) (s : State) : Res :=
  let n := set.val
  ok (if !s.cutinIdle n then s
    else match s.cutinFrom n with
      | none => s
      | some (m, t) =>
        let y := s.setSt m
        let s1 := s.putSet m { y with queue := y.queue.dropLast, given := (y.given + 1) % 2 ^ 32 }
        let x := s1.setSt n
        (s1.putSet n { x with taken := (x.taken + 1) % 2 ^ 32, nextId := x.nextId + 1 }).runTile n { t with id := x.nextId })

/-! ### Ramps and pauses (R152, R153, R167) -/

/-- START_RAMP_END (R152). -/
def execStartRampEnd (set : Fin 768) (array : Fin 4) (s : State) : Res :=
  let x := s.setSt set.val
  let a := x.arr array.val
  ok (if a.ramp = .up ∧ s.arraysRun set.val = true then s.putSet set.val (x.putArr array.val { a with ramp := .active }) else s)

/-- STOP_RAMP_END (R152). -/
def execStopRampEnd (set : Fin 768) (array : Fin 4) (s : State) : Res :=
  let x := s.setSt set.val
  let a := x.arr array.val
  ok (if a.ramp = .down then s.putSet set.val (x.putArr array.val { a with ramp := .idle }) else s)

/-- The arrays of a die that have a pass run a start ramp after a pause. -/
def State.rampDie (s : State) (d : Nat) : State :=
  s.sets.foldl (fun (s : State) e =>
    if dieOf e.1 = d ∧ e.2.pass.isSome = true then
      let x := s.setSt e.1
      s.putSet e.1 { x with arrs := x.arrs.map fun a => if a.ramp = .active then { a with ramp := .up } else a }
    else s) s

/-- PAUSE_END (R167): the throttle pause of a die expires. -/
def execPauseEnd (die : Fin 4) (s : State) : Res :=
  ok (if bit s.pwr.throttled die.val then
      ({ s with pwr := { s.pwr with throttled := setBits s.pwr.throttled die.val die.val 0 } }).rampDie die.val
    else s)

/-! ### Array faults (R99, R169) -/

/-- The blocks of a running tile that are to be redone, each from its first row not yet drained, by block number. -/
def SetState.redoOf (x : SetState) (r : TileRun) : SMap Nat :=
  let arrs := x.arrs.flatMap fun a => (a.cur.toList ++ a.drain.toList).filter fun b => decide (b.tile = r.tile.id ∧ b.next < b.rows)
  arrs.foldl (fun m b => m.insert b.block b.next) (r.left.foldl (fun m e => m.insert e.1 e.2) [])

/-- The lowest row of a tile not yet drained. -/
def lowestRow (m : SMap Nat) : Nat := match m with
  | (j, r) :: _ => 256 * j + r
  | [] => 0

/-- A fused sequence goes back to its start: registers and predicates from the entry copy, the producer from row 0, the
consumer's drained rows not written again (R195). -/
def SetState.refuse (x : SetState) (f : Fused) : SetState :=
  let blocks (r : TileRun) (drained : Bool) : List (Nat × Nat) :=
    let m := x.redoOf r
    (List.range ((tRows r.tile.desc + 255) / 256)).map fun j =>
      (j, if drained then (m.find j).getD (min 256 (tRows r.tile.desc - 256 * j)) else 0)
  let runs := x.tiles.map fun r =>
    if r.tile.id = f.producer then { r with left := blocks r false }
    else if some r.tile.id = f.consumer then { r with left := blocks r true } else r
  let y := (x.clearTile f.producer).clearTile (f.consumer.getD f.producer)
  { y with
    tiles := runs, v := f.entryV, p := f.entryP, active := none, shadow := none,
    fused := some { f with run := 0, pos := 0, ready := [], taken := 0, given := [] } }

/-- The running tile that a fault on an array concerns: in a drain that of the block that drains, else that of the pass. -/
def SetState.faulted (x : SetState) (k : Nat) (inDrain : Bool) : Option TileRun :=
  let a := x.arr k
  match (if inDrain then a.drain.filter (fun b => decide (b.next < b.rows)) else
      if (x.pass.map Pass.begun) = some true then a.cur else none) with
  | some b => x.findRun b.tile
  | none => none

/-- An array faults a second time: it is retired (R99). -/
def State.retireArray (s : State) (n k count : Nat) : State :=
  let u := s.setUnit n
  (s.putSetUnit n { u with arrOk := setBits u.arrOk k k 0 }).emit RT_ARRAY_RETIRE .data 2 (4 * n + k) (s.ctxOf (s.setSt n).slot) [count]

/-- A tile that an array fault stopped goes back to the head of its owner's queue (R99). -/
def State.requeue (s : State) (n : Nat) (r : TileRun) (redo : SMap Nat) : State :=
  let y := (s.setSt n).clearTile r.tile.id
  let s0 := s.putSet n { y with tiles := y.tiles.filter fun t => decide (t.tile.id ≠ r.tile.id) }
  let own := decide (r.tile.owner = n)
  match s0.ownSet y.slot r.tile.owner with
  | none => s0
  | some o =>
    let t : Tile := { r.tile with id := if own then r.tile.id else o.nextId, redo := some redo }
    s0.putOwn y.slot r.tile.owner { o with queue := t :: o.queue, nextId := if own then o.nextId else o.nextId + 1 }

/-- After an array fault: a fused sequence on a set with no array left ends with NO_RESOURCE (R100), else the arrays go
on. -/
def State.afterFault (s : State) (n k : Nat) (fused : Bool) : State :=
  let x := s.setSt n
  if fused && decide (s.arrOk n = 0) then
    s.putSet n { x with tiles := x.tiles.map fun t =>
      { t with left := [], status := Status.noResource.num, failed := some k } }
  else if x.live then s.takeUp n else s

/-- Counts an array fault and records it; the second retires the array. -/
def State.countFault (s : State) (n k owner lowest : Nat) : State :=
  let x := s.setSt n
  let count := min 255 (x.arrFaults.getD k 0 + 1)
  let s1 := (s.putSet n { x with arrFaults := listSet x.arrFaults k count }).emit RT_ARRAY_FAULT .data 2 (4 * n + k) (s.ctxOf x.slot)
    [count, owner, lowest]
  if count = 2 then s1.retireArray n k count else s1

/-- What an array fault does once its tile is known. -/
def State.arrayFault (s : State) (n k : Nat) (r : TileRun) : State :=
  let x := s.setSt n
  let redo := x.redoOf r
  match x.fusedOf r.tile.id with
  | some f => ((s.putSet n (x.refuse f)).countFault n k r.tile.owner 0).afterFault n k true
  | none => ((s.requeue n r redo).countFault n k r.tile.owner (lowestRow redo)).afterFault n k false

/-- ARRAY_FAULT (R99, R195): a residue mismatch in a pass, or a parity error found while a block drains. -/
def execArrayFault (set : Fin 768) (array : Fin 4) (inDrain : Bool) (s : State) : Res :=
  ok (if !s.ready || decide (array.val ∉ s.arraysOf set.val) then s
    else match (s.setSt set.val).faulted array.val inDrain with
    | none => s
    | some r => s.arrayFault set.val array.val r)

end Sys2Proof.Machine
end

