-- ==== Sys2Proof/Machine/Fusion.lean ====
section
/-! DEFINITION. Fused sequences and pre-emption (R97, R98, R100, R124, R188 to R195). -/

namespace Sys2Proof.Machine

/-! ### The start of a fused sequence -/

/-- The word at a context address that can be fetched (R103). -/
def State.codeWord (s : State) (die slot a : Nat) : Option (BitVec 64) :=
  if s.codeOk die slot a then
    (s.spanNow die slot a).map fun x => BitVec.ofNat 64 (ofBytes (s.mem.a.read 0 ((x.base + (a - x.first)) % 2 ^ 48) 8))
  else none

/-- Fetches a body; none when a word cannot be fetched. -/
def State.fetchBody (s : State) (die slot : Nat) : Nat → Nat → Option (List (BitVec 64))
  | 0, _ => some []
  | n + 1, a =>
    match s.codeWord die slot a with
    | none => none
    | some w => (s.fetchBody die slot n (a + 8)).map (w :: ·)

/-- A word that a body may hold (R188). -/
def bodyWord (w : BitVec 64) : Bool :=
  decide (0x10 ≤ majorOf w ∧ majorOf w ≤ 0x18)
  && !decide (majorOf w = 0x15 ∧ (funcOf w = 1 ∨ funcOf w = 3)) && !decide (majorOf w = 0x16 ∧ 0x10 ≤ funcOf w)

/-- VTAKE, and VGIVE. -/
def isTake (w : BitVec 64) : Bool := decide (majorOf w = 0x18 ∧ funcOf w = 0)
/-- VGIVE. -/
def isGive (w : BitVec 64) : Bool := decide (majorOf w = 0x18 ∧ funcOf w = 1)

/-- The checks of R188 on a body for a producer of some rows. -/
def bodyOk (body : List (BitVec 64)) (rows : Nat) : Bool :=
  let t := (body.filter isTake).length
  let g := (body.filter isGive).length
  body.all bodyWord && decide ((rows ≠ 0 → t ≠ 0) ∧ (t ≠ 0 → rows % t = 0) ∧ (g = 0 ∨ g = t))

/-- The checks of R191 on a consumer. -/
def consumerOk (t : Tile) (rows : Nat) (body : List (BitVec 64)) : Bool :=
  let d := t.desc
  let k := tSteps d
  t.body.isNone && tPinned d
  && decide (tRows d = rows ∧ leAt d 24 8 = 0 ∧ leAt d 44 4 = 0 ∧ leAt d 56 4 = 0 ∧ tActFmt d ≤ 3 ∧ 1 ≤ k)
  && (body.filter isGive).all fun w => decide (k ≤ if bits w.toNat 25 23 = 0 then 2 else 4)

/-- How the head of a queue starts as a fused sequence: it waits for its consumer, fails, does nothing but complete, or
runs with a body. -/
inductive FuseStart where
  | wait
  | fail (st : Status)
  | noop (consumer : Bool) (st : Status)
  | run (body : List (BitVec 64)) (consumer : Bool)
deriving DecidableEq, Repr

/-- Decides how a fused sequence starts (R100, R124, R188, R191). DEDUCED, log entry 98. -/
def State.fuseStart (s : State) (n : Nat) (t : Tile) (rest : List Tile) (len addr : Nat) : FuseStart :=
  let x := s.setSt n
  let rows := tRows t.desc
  if len = 0 then .noop false (if s.arrOk n = 0 then .noResource else .done)
  else match s.fetchBody (dieOf n) x.slot len addr with
  | none => .fail .access
  | some body =>
    if !bodyOk body rows then .fail .illegal
    else
      let g := !(body.filter isGive).isEmpty
      let go (_ : Unit) : FuseStart :=
        if s.arrOk n = 0 then .noop g .noResource
        else if rows = 0 ∨ tSteps t.desc = 0 then .noop g .done else .run body g
      if g then match rest with
        | [] => .wait
        | c :: _ => if consumerOk c rows body then go () else .fail .illegal
      else go ()

/-- A run that only completes. -/
def overRun (t : Tile) (st : Status) (failed : Bool) : TileRun := ⟨t, [], st.num, if failed then some 0 else none⟩

/-- FUSED_SEQUENCE_START (R189): every earlier tile has completed and the consumer is present. -/
def execFusedSequenceStart (set : Fin 768) (s : State) : Res :=
  let n := set.val
  let x := s.setSt n
  ok (match x.queue with
    | [] => s
    | t :: rest => match t.body with
      | none => s
      | some (len, addr) =>
        if !s.unitRuns n || !x.live || s.paused n || x.frozen || x.soft || x.hard || !x.tiles.isEmpty || x.fused.isSome then s
        else match s.fuseStart n t rest len addr with
        | .wait => s
        | .fail st => s.putSet n { x with queue := rest, tiles := [overRun t st true] }
        | .noop g st =>
          let cs := if g then rest.take 1 else []
          s.putSet n { x with queue := rest.drop cs.length, tiles := overRun t st false :: cs.map fun c => overRun c st false }
        | .run body g =>
          let cs := if g then rest.take 1 else []
          let takes := (body.filter isTake).length
          let f : Fused := {
            producer := t.id, consumer := cs.head?.map Tile.id, body := body, bodyAddr := addr, takes := takes,
            runs := tRows t.desc / takes, run := 0, pos := 0, ready := [], taken := 0, given := [],
            giveFmt := (cs.head?.map fun c => tActFmt c.desc).getD 0, giveLen := 32 * (cs.head?.map fun c => tSteps c.desc).getD 0,
            entryV := x.v, entryP := x.p }
          (s.putSet n { x with
            queue := rest.drop cs.length, fused := some f,
            tiles := (t :: cs).map fun c => ⟨c, tileBlocks c, 0, none⟩ }).takeUp n)

/-- PRODUCER_COMPLETE (R193): the last body run has completed. -/
def execProducerComplete (set : Fin 768) (s : State) : Res :=
  let n := set.val
  let x := s.setSt n
  ok (match x.fused with
    | none => s
    | some f =>
      if f.busy || !s.unitRuns n || !x.live then s
      else match x.findRun f.producer with
        | some r => s.tileDone n r
        | none => s)

/-! ### Pre-emption (R97, R98, R170) -/

/-- A set is bound and has its state. -/
def SetState.bound (x : SetState) : Bool := decide (x.run ≠ .unbound ∧ x.run ≠ .inReset)

/-- A soft pre-emption is asked of a set. -/
def State.softPreempt (s : State) (n : Nat) : State :=
  let x := s.setSt n
  if x.bound && !x.atPoint then s.putSet n { x with soft := true } else s

/-- SOFT_PREEMPT (R97). -/
def execSoftPreempt (set : Fin 768) (s : State) : Res := ok (if s.ready then s.softPreempt set.val else s)

/-- The units of a set are where a pre-emption point asks for them: no row of the pass in progress has entered, a fused body
is between its runs, and no promenade block is under way. -/
def SetState.atBoundary (x : SetState) : Bool :=
  (x.arrs.all fun a => decide (a.entered = 0))
  && (match x.fused with
      | some f => decide (f.pos = 0) || !f.busy
      | none => true)
  && x.proms.all fun p => p.buf.isEmpty && decide (p.put = 0)

/-- A block read of a promenade descriptor of a set is under way at another module. -/
def State.promReads (s : State) (n : Nat) : Bool :=
  s.fab.sent.any fun q => match q.waiter, q.op with
    | .prom m _, .readBlock _ => decide (m = n ∧ q.ctx = s.ctxOf (s.setSt n).slot)
    | _, _ => false

/-- PREEMPTION_POINT (R97): every unit of the set holds. -/
def execPreemptionPoint (set : Fin 768) (s : State) : Res :=
  let x := s.setSt set.val
  ok (if s.ready && x.bound && (x.soft || x.hard) && !x.atPoint && x.atBoundary && !s.promReads set.val then s.putSet set.val { x with atPoint := true } else s)

/-- A hard pre-emption: the accumulators of every block in progress are discarded, and those blocks are reissued; a fused
sequence goes back to its start (R98, R195). -/
def State.hardPreempt (s : State) (n : Nat) : State :=
  let x := s.setSt n
  if !x.bound || x.atPoint then s
  else
    let x1 := { x with tiles := x.tiles.map fun r => if r.failed.isSome then r else { r with left := x.redoOf r } }
    let x2 := match x.fused with
      | some f => if f.busy then x.refuse f else x1
      | none => x1
    s.putSet n { x2 with
      hard := true, pass := none, active := none, shadow := none,
      arrs := x2.arrs.map fun _ => Arr.init }

/-- HARD_PREEMPT (R98). -/
def execHardPreempt (set : Fin 768) (s : State) : Res := ok (if s.ready then s.hardPreempt set.val else s)

/-- A pre-empted set goes on (R98). -/
def State.resumeSet (s : State) (n : Nat) : State :=
  let x := s.setSt n
  let s1 := s.putSet n { x with
    soft := false, hard := false, atPoint := false,
    arrs := x.arrs.map fun a => { a with ramp := .idle } }
  if !x.live then s1 else if x.pass.isSome then s1.rampUp n else s1.takeUp n

/-- RESUME (R98). -/
def execResume (set : Fin 768) (s : State) : Res :=
  let x := s.setSt set.val
  ok (if s.ready && x.atPoint && x.lentFrom.isNone && !s.moves set.val && !s.fencedSlot x.slot then s.resumeSet set.val else s)

end Sys2Proof.Machine
end

