-- ==== Sys2Proof/Machine/Scalar.lean ====
section
/-! DEFINITION. The scalar class (R108 to R117). -/

namespace Sys2Proof.Machine

/-! ### SALU and SALUI (R109, R110) -/

/-- RD from RA and RB. -/
def State.alu2 (s : State) (n : Fin 768) (rd ra rb : Fin 32) (f : BitVec 64 → BitVec 64 → BitVec 64) : State :=
  s.alu n.val [ra.val, rb.val] rd.val fun x => f (x.reg ra.val) (x.reg rb.val)

/-- RD from RA and IMM32, sign-extended (R110). -/
def State.aluI (s : State) (n : Fin 768) (rd ra : Fin 32) (imm : BitVec 32) (f : BitVec 64 → BitVec 64 → BitVec 64) : State :=
  s.alu n.val [ra.val] rd.val fun x => f (x.reg ra.val) (imm.signExtend 64)

/-- A Bool as a register value. -/
def flag (b : Bool) : BitVec 64 := if b then 1 else 0

/-- The shift count of RB. -/
def count6 (b : BitVec 64) : Nat := b.toNat % 64

/-- RA << RB[5:0]. -/
def sllOp (a b : BitVec 64) : BitVec 64 := a <<< count6 b
/-- RA >> RB[5:0], zero fill. -/
def srlOp (a b : BitVec 64) : BitVec 64 := a >>> count6 b
/-- RA >> RB[5:0], sign fill. -/
def sraOp (a b : BitVec 64) : BitVec 64 := a.sshiftRight (count6 b)
/-- High 64 bits of the unsigned product. -/
def mulhuOp (a b : BitVec 64) : BitVec 64 := BitVec.ofNat 64 (a.toNat * b.toNat / 2 ^ 64)
/-- High 64 bits of the signed product. -/
def mulhsOp (a b : BitVec 64) : BitVec 64 := BitVec.ofInt 64 (a.toInt * b.toInt / 2 ^ 64)
/-- Unsigned quotient; all ones for RB = 0. -/
def divuOp (a b : BitVec 64) : BitVec 64 := if b = 0 then BitVec.allOnes 64 else a / b
/-- Unsigned remainder; RA for RB = 0. -/
def remuOp (a b : BitVec 64) : BitVec 64 := if b = 0 then a else a % b
/-- Signed minimum. -/
def minOp (a b : BitVec 64) : BitVec 64 := if a.slt b then a else b
/-- Signed maximum. -/
def maxOp (a b : BitVec 64) : BitVec 64 := if a.slt b then b else a
/-- Unsigned minimum. -/
def minuOp (a b : BitVec 64) : BitVec 64 := if a.ult b then a else b
/-- Unsigned maximum. -/
def maxuOp (a b : BitVec 64) : BitVec 64 := if a.ult b then b else a

/-- ADD (R109). -/
def execIAdd (set : Fin 768) (rd ra rb : Fin 32) (s : State) : Res := ok (s.alu2 set rd ra rb (· + ·))

/-- SUB (R109). -/
def execISub (set : Fin 768) (rd ra rb : Fin 32) (s : State) : Res := ok (s.alu2 set rd ra rb (· - ·))

/-- AND (R109). -/
def execIAnd (set : Fin 768) (rd ra rb : Fin 32) (s : State) : Res := ok (s.alu2 set rd ra rb (· &&& ·))

/-- OR (R109). -/
def execIOr (set : Fin 768) (rd ra rb : Fin 32) (s : State) : Res := ok (s.alu2 set rd ra rb (· ||| ·))

/-- XOR (R109). -/
def execIXor (set : Fin 768) (rd ra rb : Fin 32) (s : State) : Res := ok (s.alu2 set rd ra rb (· ^^^ ·))

/-- SLL (R109). -/
def execISll (set : Fin 768) (rd ra rb : Fin 32) (s : State) : Res := ok (s.alu2 set rd ra rb sllOp)

/-- SRL (R109). -/
def execISrl (set : Fin 768) (rd ra rb : Fin 32) (s : State) : Res := ok (s.alu2 set rd ra rb srlOp)

/-- SRA (R109). -/
def execISra (set : Fin 768) (rd ra rb : Fin 32) (s : State) : Res := ok (s.alu2 set rd ra rb sraOp)

/-- MUL (R109). -/
def execIMul (set : Fin 768) (rd ra rb : Fin 32) (s : State) : Res := ok (s.alu2 set rd ra rb (· * ·))

/-- MULHU (R109). -/
def execIMulhu (set : Fin 768) (rd ra rb : Fin 32) (s : State) : Res := ok (s.alu2 set rd ra rb mulhuOp)

/-- MULHS (R109). -/
def execIMulhs (set : Fin 768) (rd ra rb : Fin 32) (s : State) : Res := ok (s.alu2 set rd ra rb mulhsOp)

/-- DIVU (R109). -/
def execIDivu (set : Fin 768) (rd ra rb : Fin 32) (s : State) : Res := ok (s.alu2 set rd ra rb divuOp)

/-- REMU (R109). -/
def execIRemu (set : Fin 768) (rd ra rb : Fin 32) (s : State) : Res := ok (s.alu2 set rd ra rb remuOp)

/-- MIN (R109). -/
def execIMin (set : Fin 768) (rd ra rb : Fin 32) (s : State) : Res := ok (s.alu2 set rd ra rb minOp)

/-- MAX (R109). -/
def execIMax (set : Fin 768) (rd ra rb : Fin 32) (s : State) : Res := ok (s.alu2 set rd ra rb maxOp)

/-- MINU (R109). -/
def execIMinu (set : Fin 768) (rd ra rb : Fin 32) (s : State) : Res := ok (s.alu2 set rd ra rb minuOp)

/-- MAXU (R109). -/
def execIMaxu (set : Fin 768) (rd ra rb : Fin 32) (s : State) : Res := ok (s.alu2 set rd ra rb maxuOp)

/-- SLT (R109). -/
def execISlt (set : Fin 768) (rd ra rb : Fin 32) (s : State) : Res := ok (s.alu2 set rd ra rb (fun a b => flag (a.slt b)))

/-- SLTU (R109). -/
def execISltu (set : Fin 768) (rd ra rb : Fin 32) (s : State) : Res := ok (s.alu2 set rd ra rb (fun a b => flag (a.ult b)))

/-- SEQ (R109). -/
def execISeq (set : Fin 768) (rd ra rb : Fin 32) (s : State) : Res := ok (s.alu2 set rd ra rb (fun a b => flag (a == b)))

/-- SEL (R109): RA if RC is not 0, else RB. -/
def execISel (set : Fin 768) (rd ra rb rc : Fin 32) (s : State) : Res :=
  ok (s.alu set.val [ra.val, rb.val, rc.val] rd.val fun x => if x.reg rc.val = 0 then x.reg rb.val else x.reg ra.val)

/-- ADDI (R110). -/
def execIAddi (set : Fin 768) (rd ra : Fin 32) (imm : BitVec 32) (s : State) : Res := ok (s.aluI set rd ra imm (· + ·))

/-- ANDI (R110). -/
def execIAndi (set : Fin 768) (rd ra : Fin 32) (imm : BitVec 32) (s : State) : Res := ok (s.aluI set rd ra imm (· &&& ·))

/-- ORI (R110). -/
def execIOri (set : Fin 768) (rd ra : Fin 32) (imm : BitVec 32) (s : State) : Res := ok (s.aluI set rd ra imm (· ||| ·))

/-- XORI (R110). -/
def execIXori (set : Fin 768) (rd ra : Fin 32) (imm : BitVec 32) (s : State) : Res := ok (s.aluI set rd ra imm (· ^^^ ·))

/-- MULI (R110). -/
def execIMuli (set : Fin 768) (rd ra : Fin 32) (imm : BitVec 32) (s : State) : Res := ok (s.aluI set rd ra imm (· * ·))

/-- MINI (R110). -/
def execIMini (set : Fin 768) (rd ra : Fin 32) (imm : BitVec 32) (s : State) : Res := ok (s.aluI set rd ra imm minOp)

/-- MAXI (R110). -/
def execIMaxi (set : Fin 768) (rd ra : Fin 32) (imm : BitVec 32) (s : State) : Res := ok (s.aluI set rd ra imm maxOp)

/-- SLTI (R110). -/
def execISlti (set : Fin 768) (rd ra : Fin 32) (imm : BitVec 32) (s : State) : Res := ok (s.aluI set rd ra imm (fun a b => flag (a.slt b)))

/-- SLTUI (R110). -/
def execISltui (set : Fin 768) (rd ra : Fin 32) (imm : BitVec 32) (s : State) : Res := ok (s.aluI set rd ra imm (fun a b => flag (a.ult b)))

/-- SEQI (R110). -/
def execISeqi (set : Fin 768) (rd ra : Fin 32) (imm : BitVec 32) (s : State) : Res := ok (s.aluI set rd ra imm (fun a b => flag (a == b)))

/-- A shift by IMM32: IMM32[31:6] must be zero, else ILLEGAL (R110). -/
def State.shiftI (s : State) (n : Fin 768) (rd ra : Fin 32) (imm : BitVec 32) (f : BitVec 64 → BitVec 64 → BitVec 64) : State :=
  if imm.toNat < 64 then s.aluI n rd ra imm f else s.issue n.val [] fun _ => s.illegal n.val

/-- SLLI (R110). -/
def execISlli (set : Fin 768) (rd ra : Fin 32) (imm : BitVec 32) (s : State) : Res := ok (s.shiftI set rd ra imm sllOp)

/-- SRLI (R110). -/
def execISrli (set : Fin 768) (rd ra : Fin 32) (imm : BitVec 32) (s : State) : Res := ok (s.shiftI set rd ra imm srlOp)

/-- SRAI (R110). -/
def execISrai (set : Fin 768) (rd ra : Fin 32) (imm : BitVec 32) (s : State) : Res := ok (s.shiftI set rd ra imm sraOp)

/-- MOVI (R111). -/
def execIMovi (set : Fin 768) (rd : Fin 32) (imm : BitVec 48) (s : State) : Res :=
  ok (s.alu set.val [] rd.val fun _ => imm.signExtend 64)

/-- MOVHI (R111): RD[63:48], the rest of RD unchanged. -/
def execIMovhi (set : Fin 768) (rd : Fin 32) (imm : BitVec 16) (s : State) : Res :=
  ok (s.alu set.val [] rd.val fun x => imm ++ (x.reg rd.val).setWidth 48)

/-! ### Loads and stores (R112, R113) -/

/-- The effective address RA + IMM32, sign-extended, modulo 2^64. -/
def SetState.ea (x : SetState) (ra : Nat) (imm : BitVec 32) : Nat := (x.reg ra + imm.signExtend 64).toNat

/-- A loaded value in its register form. -/
def loadValue (size : Nat) (sext : Bool) (bs : List Byte) : BitVec 64 :=
  let v := ofBytes bs
  if sext then BitVec.ofInt 64 (signed (8 * size) v) else BitVec.ofNat 64 v

/-- The SOURCE code of a fault of an access: set memory for an uncorrectable word of it, else the control core (R102). -/
def sourceOf (t : Target) (st : Status) (unit : Nat) : Nat :=
  match t, st with
  | .sm _ _, .uncorrectable => 5
  | _, _ => unit

/-- A load that completes at once: its value, a fault, or, with a status that does not stop the set, a free value (log
entry 46). -/
def State.loaded (s : State) (n rd size : Nat) (sext : Bool) (t : Target) (st : Status) (bs : List Byte) : State :=
  if st = .done then s.putSet n (((s.setSt n).setReg rd (loadValue size sext bs)).next)
  else if st.stops then s.fault n st (sourceOf t st 1)
  else
    let (v, s1) := s.takeFree
    s1.putSet n (((s1.setSt n).setReg rd v).next)

/-- A load (R113). -/
def State.loadOp (s : State) (n : Fin 768) (rd ra : Fin 32) (imm : BitVec 32) (size : Nat) (sext : Bool) : State :=
  s.issue n.val [rd.val, ra.val] fun x =>
    let a := x.ea ra.val imm
    if a % size ≠ 0 then s.fault n.val .access 1
    else
      let (t, _, s1) := s.target n.val a .r
      match t with
      | .away fa =>
        match s1.remote n.val 1 a fa (.load size) (.reg n.val rd.val size sext x.pc.toNat) with
        | (.wait, _) => s
        | (.sent, s2) => s2.putSet n.val (s2.setSt n.val).next
        | (.refused st, s2) => s2.loaded n.val rd.val size sext t st []
        | (.answered st bs, s2) => s2.loaded n.val rd.val size sext t (Status.ofNum st) bs
      | _ =>
        let (st, bs, s2) := s1.readTarget n.val 0 t size
        s2.loaded n.val rd.val size sext t st bs

/-- LD8U (R113). -/
def execILd8u (set : Fin 768) (rd ra : Fin 32) (imm : BitVec 32) (s : State) : Res :=
  ok (s.loadOp set rd ra imm 1 false)

/-- LD16U (R113). -/
def execILd16u (set : Fin 768) (rd ra : Fin 32) (imm : BitVec 32) (s : State) : Res :=
  ok (s.loadOp set rd ra imm 2 false)

/-- LD32U (R113). -/
def execILd32u (set : Fin 768) (rd ra : Fin 32) (imm : BitVec 32) (s : State) : Res :=
  ok (s.loadOp set rd ra imm 4 false)

/-- LD64 (R113). -/
def execILd64 (set : Fin 768) (rd ra : Fin 32) (imm : BitVec 32) (s : State) : Res :=
  ok (s.loadOp set rd ra imm 8 false)

/-- LD8S (R113). -/
def execILd8s (set : Fin 768) (rd ra : Fin 32) (imm : BitVec 32) (s : State) : Res :=
  ok (s.loadOp set rd ra imm 1 true)

/-- LD16S (R113). -/
def execILd16s (set : Fin 768) (rd ra : Fin 32) (imm : BitVec 32) (s : State) : Res :=
  ok (s.loadOp set rd ra imm 2 true)

/-- LD32S (R113). -/
def execILd32s (set : Fin 768) (rd ra : Fin 32) (imm : BitVec 32) (s : State) : Res :=
  ok (s.loadOp set rd ra imm 4 true)

/-- A store (R113): the low bytes of RB. A remote store is posted (R275). -/
def State.storeOp (s : State) (n : Fin 768) (ra rb : Fin 32) (imm : BitVec 32) (size : Nat) : State :=
  s.issue n.val [ra.val, rb.val] fun x =>
    let a := x.ea ra.val imm
    let bs := toBytes size (x.reg rb.val).toNat
    if a % size ≠ 0 then s.fault n.val .access 1
    else
      let (t, _, s1) := s.target n.val a .w
      match t with
      | .away fa =>
        match s1.remote n.val 1 a fa (.store bs) (.posted n.val) with
        | (.wait, _) => s
        | (.sent, s2) => s2.putSet n.val (s2.setSt n.val).next
        | (.refused st, s2) => s2.finish n.val st 1 id
        | (.answered st _, s2) =>
          let s3 := s2.putSet n.val (s2.setSt n.val).next
          if st = 0 then s3 else s3.stopSet n.val (Status.ofNum st) 1 0 (s3.setSt n.val).tileOwner a
      | _ =>
        let (st, s2) := s1.writeTarget n.val 1 t bs
        s2.finish n.val st (sourceOf t st 1) id

/-- ST8 (R113). -/
def execISt8 (set : Fin 768) (ra rb : Fin 32) (imm : BitVec 32) (s : State) : Res :=
  ok (s.storeOp set ra rb imm 1)

/-- ST16 (R113). -/
def execISt16 (set : Fin 768) (ra rb : Fin 32) (imm : BitVec 32) (s : State) : Res :=
  ok (s.storeOp set ra rb imm 2)

/-- ST32 (R113). -/
def execISt32 (set : Fin 768) (ra rb : Fin 32) (imm : BitVec 32) (s : State) : Res :=
  ok (s.storeOp set ra rb imm 4)

/-- ST64 (R113). -/
def execISt64 (set : Fin 768) (ra rb : Fin 32) (imm : BitVec 32) (s : State) : Res :=
  ok (s.storeOp set ra rb imm 8)

/-! ### Atomics (R114, R115, R248) -/

/-- An atomic: RD receives the word as it stood; with RD = s0 it is posted. DEDUCED, log entry 44. -/
def State.amoOp (s : State) (n : Fin 768) (func : Nat) (rd ra rb rc : Fin 32) : State :=
  s.issue n.val [rd.val, ra.val, rb.val, rc.val] fun x =>
    let a := (x.reg ra.val).toNat
    let opnd := (x.reg rb.val).toNat
    let cmp := (x.reg rc.val).toNat
    let (t, _, s1) := s.target n.val a .a
    let size := amoSize func
    match t with
    | .sm _ _ => s1.fault n.val .access 1
    | .no st => s1.loaded n.val rd.val 8 false t st []
    | .here tier off =>
      let (st, old, s2) := s1.serveAmo s1.self (s1.ctxOf x.slot) tier (if rd.val = 0 then 1 else 0) func off opnd cmp
      s2.loaded n.val rd.val 8 false t st (toBytes 8 old)
    | .away fa =>
      if fa.space ≠ 0 ∨ a % size ≠ 0 then s1.fault n.val .access 1
      else
        let w : Waiter := if rd.val = 0 then .posted n.val else .reg n.val rd.val size false x.pc.toNat
        match s1.remote n.val 1 a fa (.amo func opnd cmp) w with
        | (.wait, _) => s
        | (.sent, s2) => s2.putSet n.val (s2.setSt n.val).next
        | (.refused st, s2) => s2.loaded n.val rd.val size false t st []
        | (.answered st bs, s2) => s2.loaded n.val rd.val size false t (Status.ofNum st) bs

/-- AADD64 (R114, R248). -/
def execIAadd64 (set : Fin 768) (rd ra rb : Fin 32) (s : State) : Res := ok (s.amoOp set 0 rd ra rb 0)

/-- AADD32 (R114, R248). -/
def execIAadd32 (set : Fin 768) (rd ra rb : Fin 32) (s : State) : Res := ok (s.amoOp set 1 rd ra rb 0)

/-- AAND (R114, R248). -/
def execIAand (set : Fin 768) (rd ra rb : Fin 32) (s : State) : Res := ok (s.amoOp set 2 rd ra rb 0)

/-- AOR (R114, R248). -/
def execIAor (set : Fin 768) (rd ra rb : Fin 32) (s : State) : Res := ok (s.amoOp set 3 rd ra rb 0)

/-- AXOR (R114, R248). -/
def execIAxor (set : Fin 768) (rd ra rb : Fin 32) (s : State) : Res := ok (s.amoOp set 4 rd ra rb 0)

/-- AMIN (R114, R248). -/
def execIAmin (set : Fin 768) (rd ra rb : Fin 32) (s : State) : Res := ok (s.amoOp set 5 rd ra rb 0)

/-- AMAX (R114, R248). -/
def execIAmax (set : Fin 768) (rd ra rb : Fin 32) (s : State) : Res := ok (s.amoOp set 6 rd ra rb 0)

/-- AMINU (R114, R248). -/
def execIAminu (set : Fin 768) (rd ra rb : Fin 32) (s : State) : Res := ok (s.amoOp set 7 rd ra rb 0)

/-- AMAXU (R114, R248). -/
def execIAmaxu (set : Fin 768) (rd ra rb : Fin 32) (s : State) : Res := ok (s.amoOp set 8 rd ra rb 0)

/-- ASWAP (R114, R248). -/
def execIAswap (set : Fin 768) (rd ra rb : Fin 32) (s : State) : Res := ok (s.amoOp set 9 rd ra rb 0)

/-- ACAS (R114, R248). -/
def execIAcas (set : Fin 768) (rd ra rb rc : Fin 32) (s : State) : Res := ok (s.amoOp set 10 rd ra rb rc)

/-- AFADD32 (R114, R248). -/
def execIAfadd32 (set : Fin 768) (rd ra rb : Fin 32) (s : State) : Res := ok (s.amoOp set 11 rd ra rb 0)

/-! ### Branches and jumps (R116) -/

/-- A branch: PC + IMM32 × 8 when the condition holds. -/
def State.branch (s : State) (n : Fin 768) (ra rb : Fin 32) (imm : BitVec 32) (c : BitVec 64 → BitVec 64 → Bool) : State :=
  s.issue n.val [ra.val, rb.val] fun x => s.putSet n.val
    (if c (x.reg ra.val) (x.reg rb.val) then { x with pc := x.pc + imm.signExtend 64 * 8 } else x.next)

/-- BEQ (R116). -/
def execIBeq (set : Fin 768) (ra rb : Fin 32) (imm : BitVec 32) (s : State) : Res :=
  ok (s.branch set ra rb imm (fun a b => a == b))

/-- BNE (R116). -/
def execIBne (set : Fin 768) (ra rb : Fin 32) (imm : BitVec 32) (s : State) : Res :=
  ok (s.branch set ra rb imm (fun a b => a != b))

/-- BLT (R116). -/
def execIBlt (set : Fin 768) (ra rb : Fin 32) (imm : BitVec 32) (s : State) : Res :=
  ok (s.branch set ra rb imm (fun a b => a.slt b))

/-- BGE (R116). -/
def execIBge (set : Fin 768) (ra rb : Fin 32) (imm : BitVec 32) (s : State) : Res :=
  ok (s.branch set ra rb imm (fun a b => !a.slt b))

/-- BLTU (R116). -/
def execIBltu (set : Fin 768) (ra rb : Fin 32) (imm : BitVec 32) (s : State) : Res :=
  ok (s.branch set ra rb imm (fun a b => a.ult b))

/-- BGEU (R116). -/
def execIBgeu (set : Fin 768) (ra rb : Fin 32) (imm : BitVec 32) (s : State) : Res :=
  ok (s.branch set ra rb imm (fun a b => !a.ult b))

/-- JAL (R116). -/
def execIJal (set : Fin 768) (rd : Fin 32) (imm : BitVec 32) (s : State) : Res :=
  ok (s.issue set.val [rd.val] fun x =>
    s.putSet set.val { x.setReg rd.val (x.pc + 8) with pc := x.pc + imm.signExtend 64 * 8 })

/-- JALR (R116): a target that is not 8-byte aligned completes with ACCESS. -/
def execIJalr (set : Fin 768) (rd ra : Fin 32) (imm : BitVec 32) (s : State) : Res :=
  ok (s.issue set.val [rd.val, ra.val] fun x =>
    let t := x.reg ra.val + imm.signExtend 64
    if t.toNat % 8 ≠ 0 then s.fault set.val .access 1
    else s.putSet set.val { x.setReg rd.val (x.pc + 8) with pc := t })

/-! ### Status reads (R117) -/

/-- RD receives a value that the state of the module and the set gives. -/
def State.sread (s : State) (n : Fin 768) (rd : Fin 32) (v : SetState → Nat) : State :=
  s.alu n.val [] rd.val fun x => BitVec.ofNat 64 (v x)

/-- RSET (R117). -/
def execIRset (set : Fin 768) (rd : Fin 32) (s : State) : Res := ok (s.sread set rd SetState.routine)

/-- RCREW (R117). -/
def execIRcrew (set : Fin 768) (rd : Fin 32) (s : State) : Res := ok (s.sread set rd SetState.crewId)

/-- RCIDX (R117). -/
def execIRcidx (set : Fin 768) (rd : Fin 32) (s : State) : Res := ok (s.sread set rd SetState.crewIndex)

/-- RCSIZE (R117). -/
def execIRcsize (set : Fin 768) (rd : Fin 32) (s : State) : Res := ok (s.sread set rd SetState.crewSize)

/-- RCTX (R117). -/
def execIRctx (set : Fin 768) (rd : Fin 32) (s : State) : Res := ok (s.sread set rd (fun x => s.ctxOf x.slot))

/-- RSTEP (R117). -/
def execIRstep (set : Fin 768) (rd : Fin 32) (s : State) : Res := ok (s.sread set rd (fun x => s.getF CTX_S_STEP_NO x.slot 0))

/-- RSEED (R117). -/
def execIRseed (set : Fin 768) (rd : Fin 32) (s : State) : Res := ok (s.sread set rd (fun x => s.recField x.slot 16 8))

/-- RMOD (R117). -/
def execIRmod (set : Fin 768) (rd : Fin 32) (s : State) : Res := ok (s.sread set rd (fun _ => s.self))

/-- RARR (R117). -/
def execIRarr (set : Fin 768) (rd : Fin 32) (s : State) : Res := ok (s.sread set rd (fun _ => s.arrOk set.val))

/-- RCYC (R117): SETCLK cycles since the set was bound, at 8 for each CALLCLK cycle (R36, DEDUCED, log entry 47). -/
def execIRcyc (set : Fin 768) (rd : Fin 32) (s : State) : Res :=
  ok (s.sread set rd fun x => 8 * (s.callerCycles - x.boundAt))

end Sys2Proof.Machine
end

