-- ==== Sys2Proof/Machine/Promenade.lean ====
section
/-! DEFINITION. The promenade engine (R136 to R140, R230, R276, R431): descriptors start in push order, up to four run at
once, and each moves block by block, a block whole before it is written. -/

namespace Sys2Proof.Machine

/-! ### Fields and blocks -/

/-- OP. -/
def Prom.op (p : Prom) : Nat := leAt p.desc 4 1
/-- LENGTH. -/
def Prom.len (p : Prom) : Nat := leAt p.desc 8 4
/-- ROWS. -/
def Prom.rows (p : Prom) : Nat := leAt p.desc 12 4
/-- SRC_FMT of a REDUCE_WRITE. -/
def Prom.fmt (p : Prom) : Nat := leAt p.desc 7 1 % 16
/-- WINDOW of a REDUCE_WRITE. -/
def Prom.window (p : Prom) : Window := if leAt p.desc 7 1 / 16 = 2 then .wa160 else .bw48

/-- The bytes of the next block: 4 KiB, or what is left of the row; for REDUCE_WRITE one addend row (R138). -/
def Prom.block (p : Prom) : Nat :=
  if p.op = 3 then min 64 (p.len / srcSize p.fmt - 64 * p.pos) * srcSize p.fmt else min 4096 (p.len - p.pos)

/-- The set address of the next block's source. -/
def Prom.src (p : Prom) : Nat :=
  (leAt p.desc 16 8 + p.row * leAt p.desc 32 4 + (if p.op = 3 then 64 * srcSize p.fmt * p.pos else p.pos)) % 2 ^ 64

/-- The set address of the next block's destination. -/
def Prom.dst (p : Prom) : Nat :=
  (leAt p.desc 24 8 + p.row * leAt p.desc 36 4 + (if p.op = 3 then p.window.block * p.pos else p.pos)) % 2 ^ 64

/-- The bytes of a row that are behind the next block's start. -/
def Prom.behind (p : Prom) : Nat := if p.op = 3 then 64 * srcSize p.fmt * p.pos else p.pos

/-- No block is left: the rows are over, LENGTH or ROWS is zero (R140), or a status has ended the descriptor. -/
def Prom.over (p : Prom) : Bool := p.ending || decide (p.len = 0 ∨ p.rows ≤ p.row)

/-- A block is partly moved. -/
def Prom.midBlock (p : Prom) : Bool := !p.buf.isEmpty || decide (p.put ≠ 0)

/-- Past a block, to the next one of the row or the first of the next row. -/
def Prom.advance (p : Prom) : Prom :=
  let q := { p with pos := if p.op = 3 then p.pos + 1 else p.pos + p.block, buf := [], put := 0 }
  if q.behind < q.len then q else { q with row := q.row + 1, pos := 0 }

/-- Meets a status: OVERRANGE lets the descriptor go on; the first other status ends it (R139). -/
def Prom.meet (p : Prom) (st : Status) (source : Nat) : Prom :=
  if st = .done ∨ p.ending then p
  else if st = .overrange then { p with status := st.num }
  else { p with status := st.num, ending := true, source := source, buf := [], put := 0 }

/-- Replaces a descriptor of a set. -/
def SetState.putProm (x : SetState) (p : Prom) : SetState :=
  { x with proms := x.proms.map fun q => if q.id = p.id then p else q }

/-- A request or tier C write of a descriptor is under way. -/
def State.promFlying (s : State) (n id : Nat) : Bool :=
  (s.fab.sent.any fun q => decide (q.waiter = .prom n id)) || s.tierC.flying.any fun w => decide (w.who = .prom n id)

/-- A read of a descriptor's block is under way. -/
def State.promReading (s : State) (n id : Nat) : Bool :=
  s.fab.sent.any fun q => decide (q.waiter = .prom n id) && (match q.op with
    | .readBlock _ => true
    | _ => false)

/-! ### Starting (R137, R138, R431) -/

/-- The descriptor that starts next: the first not started, while fewer than four run and, when it is ORDERED, once every
earlier one has completed. -/
def SetState.nextProm (x : SetState) : Option Prom :=
  match x.proms.find? fun p => !p.started with
  | none => none
  | some p =>
    let running := (x.proms.filter Prom.started).length
    if 4 ≤ running ∨ (bit (leAt p.desc 2 2) 0 = true ∧ running ≠ 0) then none else some p

/-- What a tier C descriptor meets when it starts: NO_RESOURCE before the range check, then ACCESS. -/
def State.promCheck (s : State) (slot : Nat) (p : Prom) : Status :=
  let c := s.get MEM_C_STATE
  let first := if p.op = 4 then leAt p.desc 16 8 else leAt p.desc 24 8
  if p.op < 4 ∨ p.len = 0 ∨ p.rows = 0 then .done
  else if c = 0 ∨ (p.op = 5 ∧ c ≠ 1) then .noResource
  else if s.getF CTX_S_EXT_BLOCKS slot 0 < first + p.len / 4096 then .access else .done

/-- Starts the next descriptor of a set when it is of an operation. -/
def State.promStart (s : State) (n op : Nat) : State :=
  let x := s.setSt n
  match x.nextProm with
  | none => s
  | some p =>
    if p.op ≠ op ∨ s.unitRuns n = false ∨ x.live = false then s
    else s.putSet n (x.putProm ({ p with started := true }.meet (s.promCheck x.slot p) 4))

/-- COPY (R138). -/
def execCopy (set : Fin 768) (s : State) : Res := ok (s.promStart set.val 1)

/-- FILL (R137). -/
def execFill (set : Fin 768) (s : State) : Res := ok (s.promStart set.val 2)

/-- REDUCE_WRITE (R138). -/
def execReduceWrite (set : Fin 768) (s : State) : Res := ok (s.promStart set.val 3)

/-- TC_READ (R137). -/
def execTcRead (set : Fin 768) (s : State) : Res := ok (s.promStart set.val 4)

/-- TC_WRITE (R137). -/
def execTcWrite (set : Fin 768) (s : State) : Res := ok (s.promStart set.val 5)

/-! ### Moving a block -/

/-- How a part of a block went: held because the pair is full, ended by a status of a unit, or moved. -/
inductive Moved where
  | held
  | bad (st : Status) (source : Nat) (s : State)
  | on (p : Prom) (s : State)

/-- Reads the next part of a block: as far as one translation reaches (R269). -/
def State.promRead (s : State) (n : Nat) (p : Prom) : Moved :=
  let x := s.setSt n
  let need := p.block - p.buf.length
  match p.op with
  | 2 => .on { p with buf := (List.replicate (need / 8) (toBytes 8 (leAt p.desc 16 8))).flatten } s
  | 4 =>
    if s.fencedSlot x.slot then .bad .fenced 4 s
    else
      let (st, bs, s1) := s.tcRead 0 2 (s.getF CTX_S_EXT_FIRST x.slot 0 + leAt p.desc 16 8 + p.pos / 4096) 1
      if st = .done then .on { p with buf := bs } s1 else .bad st 4 s1
  | _ =>
    let a := (p.src + p.buf.length) % 2 ^ 64
    let (t, left, s1) := s.target n a .r
    let m := min need (max left 1)
    match t with
    | .away fa =>
      match s1.remote n 1 a fa (.readBlock m) (.prom n p.id) with
      | (.wait, _) => .held
      | (.sent, s2) => .on p s2
      | (.refused st, s2) => .bad st 4 s2
      | (.answered st bs, s2) => if st = 0 then .on { p with buf := p.buf ++ bs } s2 else .bad (Status.ofNum st) 4 s2
    | _ =>
      let (st, bs, s2) := s1.readTarget n 2 t m
      if st = .done then .on { p with buf := p.buf ++ bs } s2 else .bad st (sourceOf t st 4) s2

/-- Reads a block's parts until it is whole or a part is asked of another module. -/
def State.promReads1 (s : State) (n : Nat) (p : Prom) : Nat → Moved
  | 0 => .on p s
  | fuel + 1 =>
    if p.block ≤ p.buf.length ∨ s.promReading n p.id = true then .on p s
    else match s.promRead n p with
      | .on q s1 => s1.promReads1 n q fuel
      | r => r

/-- Writes the next part of a whole block of a COPY, FILL or TC_READ. -/
def State.promWrite (s : State) (n : Nat) (p : Prom) : Moved :=
  let a := (p.dst + p.put) % 2 ^ 64
  let (t, left, s1) := s.target n a .w
  let bs := (p.buf.drop p.put).take (max left 1)
  let q := { p with put := p.put + bs.length }
  match t with
  | .away fa =>
    let op : ReqOp := if p.op = 2 then .fill (leAt p.desc 16 8) bs.length else .writeBlock bs
    match s1.remote n 7 a fa op (.prom n p.id) with
    | (.wait, _) => .held
    | (.sent, s2) => .on q s2
    | (.refused st, s2) => .bad st 4 s2
    | (.answered st _, s2) => if st = 0 then .on q s2 else .bad (Status.ofNum st) 4 s2
  | _ =>
    let (st, s2) := s1.writeTarget n 2 t bs
    if st = .done then .on q s2 else .bad st (sourceOf t st 4) s2

/-- Adds the addend row of a REDUCE_WRITE to its window block (R138, R255, R277). DEDUCED, log entry 149. -/
def State.promReduce (s : State) (n : Nat) (p : Prom) : Moved :=
  let x := s.setSt n
  let w := p.window
  let entry := leAt p.desc 42 2
  let els := elemsOf (srcSize p.fmt) p.buf
  let whole := { p with put := p.buf.length }
  match x.place n p.dst with
  | .ctx c =>
    if (els.map (srcValue p.fmt)).any Option.isNone then .bad .illegal 4 s
    else if s.fencedSlot x.slot then .bad .fenced 4 s
    else
      let (st, m, offs, s1) := s.blockLines (dieOf n) x.slot c (w.block / 64)
      if st ≠ .done then .bad st 4 s1
      else if m = s1.self then
        let (st2, s2) := s1.windowHere s1.self (s1.ctxOf x.slot) x.slot w c entry offs (els.filterMap (srcValue p.fmt))
        if st2 = .done ∨ st2 = .overrange then .on (whole.meet st2 4) s2 else .bad st2 4 s2
      else
        match s1.remote n 3 c ⟨m, 0, offs.headD 0⟩ (.windowAdd entry (w == .wa160) p.fmt p.buf) (.prom n p.id) with
        | (.wait, _) => .held
        | (.sent, s2) => .on whole s2
        | (.refused st2, s2) => .bad st2 4 s2
        | (.answered st2 _, s2) =>
          let st3 := Status.ofNum st2
          if st3 = .done ∨ st3 = .overrange then .on (whole.meet st3 4) s2 else .bad st3 4 s2
  | _ => .bad .access 4 s

/-- Hands a block of a TC_WRITE to the tier C controller (R230). -/
def State.promTc (s : State) (n : Nat) (p : Prom) : Moved :=
  let x := s.setSt n
  if s.fencedSlot x.slot then .bad .fenced 4 s
  else
    let (st, s1) := s.tcWrite (s.getF CTX_S_EXT_FIRST x.slot 0 + leAt p.desc 24 8 + p.pos / 4096) p.buf (.prom n p.id)
    if st = .done then .on { p with put := p.buf.length } s1 else .bad st 4 s1

/-- Writes a whole block's parts. -/
def State.promWrites (s : State) (n : Nat) (p : Prom) : Nat → Moved
  | 0 => .on p s
  | fuel + 1 =>
    if p.buf.length ≤ p.put then .on p s
    else match (match p.op with
        | 3 => s.promReduce n p
        | 5 => s.promTc n p
        | _ => s.promWrite n p) with
      | .on q s1 => s1.promWrites n q fuel
      | r => r

/-- Moves a block as far as it goes: the parts still to read, and, once it is whole, those to write; a block wholly
written gives way to the next. -/
def State.promMove (s : State) (n : Nat) (p : Prom) : Moved :=
  match s.promReads1 n p 3 with
  | .on q s1 =>
    if q.buf.length < q.block then .on q s1
    else match s1.promWrites n q 3 with
      | .on r s2 => .on (if r.buf.length ≤ r.put then r.advance else r) s2
      | r => r
  | r => r

/-- PROMENADE_BLOCK (R138): the descriptor at a position among the set's slots moves its next block. A stopped set only
ends the block under way (R101). -/
def execPromenadeBlock (set : Fin 768) (k : Fin 16) (s : State) : Res :=
  let n := set.val
  let x := s.setSt n
  ok (match x.proms[k.val]? with
    | none => s
    | some p =>
      if !s.unitRuns n || !p.started || p.over || s.promReading n p.id
          || !(x.live || (decide (x.run = .stopped) && p.midBlock)) then s
      else match s.promMove n p with
        | .held => s
        | .bad st src s1 => s1.putSet n ((s1.setSt n).putProm (p.meet st src))
        | .on q s1 => s1.putSet n ((s1.setSt n).putProm q))

/-- Completes a descriptor of a set (R139). -/
def State.promDone (s : State) (n : Nat) (p : Prom) : State :=
  let x := s.setSt n
  let s1 := s.putSet n { x with proms := x.proms.filter fun q => decide (q.id ≠ p.id) }
  let st := Status.ofNum p.status
  let s2 := s1.complete x.slot n p.addr 5 (leAt p.desc 6 1 % 64) (leAt p.desc 40 2) p.status
  if st.stops then s2.stopSet n st p.source 0 (s2.setSt n).tileOwner (localAddr p.addr) else s2

/-- PROMENADE_COMPLETE (R139): the oldest descriptor of which every block has finished. -/
def execPromenadeComplete (set : Fin 768) (s : State) : Res :=
  let n := set.val
  let x := s.setSt n
  ok (if !s.unitRuns n || !x.bound then s
    else match x.proms.find? fun p => p.started && p.over && !s.promFlying n p.id with
      | some p => s.promDone n p
      | none => s)

/-! ### Answers and acknowledgements -/

/-- A descriptor's request has ended: data join the block under way, a status is met. -/
def State.promAnswer (s : State) (slot n id : Nat) (st : Status) (read : Bool) (data : List Byte) : State :=
  match s.ownSet slot n with
  | none => s
  | some x =>
    match x.proms.find? fun p => decide (p.id = id) with
    | none => s
    | some p =>
      s.putOwn slot n (x.putProm (if st = .done ∧ read = true ∧ p.ending = false then { p with buf := p.buf ++ data } else p.meet st 4))

end Sys2Proof.Machine
end

