-- ==== Sys2Proof/Machine/Update.lean ====
section
/-! DEFINITION. The fused update units (R202, R204 to R211, R384): the checks of an update table, the arithmetic of a block,
and an UPDATE from its start to its completion with its witness digests (R442). -/

namespace Sys2Proof.Machine

/-! ### Context memory -/

/-- The parts that bytes may fall into: one for each page they touch, and one more. -/
def runFuel (n : Nat) : Nat := n / 2 ^ 21 + 3

/-- Reads context memory of a slot on this module: tier A, or with `top` 1 either tier. -/
def State.ctxBytes (s : State) (slot cls top a n : Nat) : Status × List Byte × State := s.ctxRead 0 slot cls top (runFuel n) a n

/-- Writes context memory of a slot on this module through a die's translation, each part on its own with right W. -/
def State.ctxWrite (s : State) (die slot cls : Nat) : Nat → Nat → List Byte → Status × State
  | 0, _, _ => (.access, s)
  | fuel + 1, a, bs =>
    if bs.isEmpty then (.done, s)
    else
      let (st, fa, left, s1) := s.resolve die slot a .w
      if st ≠ .done then (st, s1)
      else if fa.module ≠ s1.self ∨ 1 < fa.space then (.access, s1)
      else
        let m := max left 1
        let (st2, s2) := s1.serveWrite s1.self (s1.ctxOf slot) fa.space cls fa.off (bs.take m)
        if st2 ≠ .done then (st2, s2) else s2.ctxWrite die slot cls fuel (a + m) (bs.drop m)

/-- Writes bytes to context memory of a slot. -/
def State.ctxPut (s : State) (slot cls a : Nat) (bs : List Byte) : Status × State := s.ctxWrite 0 slot cls (runFuel bs.length) a bs

/-- Checks that a range of context addresses translates on this module with a right and passes its access check; the
tiers it lies in. -/
def State.ctxRange (s : State) (slot : Nat) (right : Right) (k : Kind) : Nat → Nat → Nat → Status × List Nat × State
  | 0, _, _ => (.access, [], s)
  | fuel + 1, a, n =>
    if n = 0 then (.done, [], s)
    else
      let (st, fa, left, s1) := s.resolve 0 slot a right
      if st ≠ .done then (st, [], s1)
      else if fa.module ≠ s1.self ∨ 1 < fa.space then (.access, [], s1)
      else
        let m := min n (max left 1)
        let (st2, s2) := s1.guard s1.self (s1.ctxOf slot) fa.space fa.off m k
        if st2 ≠ .done then (st2, [], s2)
        else
          let (st3, ts, s3) := s2.ctxRange slot right k fuel (a + m) (n - m)
          (st3, fa.space :: ts, s3)

/-- A range that is read and written, or only written. -/
def State.ctxRanges (s : State) (slot : Nat) (rights : List (Right × Kind)) (a n : Nat) : Status × List Nat × State :=
  rights.foldl (fun (x : Status × List Nat × State) r =>
    if x.1 ≠ .done then x else x.2.2.ctxRange slot r.1 r.2 (runFuel n) a n) (Status.done, ([] : List Nat), s)

/-! ### Update table entries (R205, R206) -/

/-- The parts of an entry that its program uses, each with the offset of its address and its bytes per element. -/
def entryParts (e : List Byte) : List (Nat × Nat) :=
  let p := leAt e 0 1
  [(16, 4)] ++ (if p = 3 then [] else [(24, 4)]) ++ (if p = 1 then [(32, 4)] else []) ++ [(40, 6), (48, 2)]

/-- The state parts of an entry that a freeze holds (R411): the master and the moments its program keeps, by their address
offset. -/
def stateParts (e : List Byte) : List Nat :=
  let p := leAt e 0 1
  [16] ++ (if p = 3 then [] else [24]) ++ (if p = 1 then [32] else [])

/-- The blocks of an entry. -/
def entryBlocks (e : List Byte) : Nat := leAt e 8 4

/-- An entry is enabled. -/
def entryOn (e : List Byte) : Bool := decide (leAt e 0 1 ≠ 0 ∧ entryBlocks e ≠ 0)

/-- The codes, reserved fields and alignment of an entry. -/
def entryForm (e : List Byte) : Status :=
  if leAt e 1 1 = 2 ∨ leAt e 1 1 = 3 then .version
  else if leAt e 1 1 ≠ 1 ∨ 4 < leAt e 0 1 ∨ leAt e 2 2 / 2 ≠ 0 ∨ leAt e 6 2 ≠ 0 ∨ leAt e 12 4 ≠ 0 ∨ leAt e 104 8 ≠ 0
      ∨ leAt e 112 8 ≠ 0 ∨ leAt e 120 8 ≠ 0 then .illegal
  else if (entryParts e).any fun p => decide (leAt e p.1 8 % (64 * p.2) ≠ 0) then .illegal else .done

/-- The accumulators of an entry lie inside its exponent entry. -/
def State.entryGrad (s : State) (slot : Nat) (e : List Byte) : Status × State :=
  let (st, x, s1) := s.expEntry slot (leAt e 4 2)
  match x with
  | none => (st, s1)
  | some x =>
    let (st2, k) := x.index .bw48 (leAt e 40 8)
    (if st2 = .done ∧ k + entryBlocks e ≤ x.blocks then .done else .illegal, s1)

/-- The address checks of an entry: every range it uses, and the tiers they lie in. -/
def State.entryPlaces (s : State) (slot : Nat) (e : List Byte) : Status × State :=
  let r := (entryParts e).foldl (fun (x : Status × List Nat × State) p =>
    if x.1 ≠ .done then x
    else
      let rights := if p.1 = 48 then [(Right.w, Kind.store)] else [(Right.r, Kind.load), (Right.w, Kind.store)]
      let (st, ts, s1) := x.2.2.ctxRanges slot rights (leAt e p.1 8) (entryBlocks e * 64 * p.2)
      if st ≠ .done then (st, [], s1)
      else if p.1 = 40 ∨ p.1 = 48 then (if ts.any fun t => decide (t ≠ 0) then .access else .done, x.2.1, s1)
      else (.done, x.2.1 ++ ts, s1)) (Status.done, ([] : List Nat), s)
  if r.1 ≠ .done then (r.1, r.2.2)
  else (if r.2.1.any fun t => decide (t ≠ r.2.1.headD 0) then .illegal else .done, r.2.2)

/-- The checks of one entry. -/
def State.checkEntry (s : State) (slot : Nat) (e : List Byte) : Status × State :=
  if entryForm e ≠ .done then (entryForm e, s)
  else
    let (st, s1) := s.entryGrad slot e
    if st ≠ .done then (st, s1) else s1.entryPlaces slot e

/-- The byte ranges an entry uses. -/
def entryRanges (e : List Byte) : List (Nat × Nat) :=
  (entryParts e).map fun p => (leAt e p.1 8, entryBlocks e * 64 * p.2)

/-- No two ranges overlap. -/
def disjoint : List (Nat × Nat) → Bool
  | [] => true
  | (a, n) :: rs => (rs.all fun r => decide (a + n ≤ r.1 ∨ r.1 + r.2 ≤ a)) && disjoint rs

/-- Reads the entries that a descriptor names and checks the enabled ones (R206): numbers and bytes. -/
def State.readTable (s : State) (slot table : Nat) : List Nat → Status × List (Nat × List Byte) × State
  | [] => (.done, [], s)
  | i :: is =>
    let (st, e, s1) := s.ctxBytes slot 1 0 (table + 128 * i) 128
    if st ≠ .done then (st, [], s1)
    else
      let (st2, s2) := if entryOn e then s1.checkEntry slot e else (Status.done, s1)
      if st2 ≠ .done then (st2, [], s2)
      else
        let (st3, es, s3) := s2.readTable slot table is
        (st3, if entryOn e then (i, e) :: es else es, s3)

/-- The enabled entries of a descriptor, checked. -/
def State.checkTable (s : State) (slot : Nat) (d : List Byte) : Status × List (Nat × List Byte) × State :=
  let (st, es, s1) := s.readTable slot (leAt d 8 8) ((List.range (leAt d 20 4)).map (· + leAt d 16 4))
  if st ≠ .done then (st, [], s1)
  else if disjoint (es.flatMap fun e => entryRanges e.2) then (.done, es, s1) else (.illegal, [], s1)

/-- The scales of the entries, each read once: 1.0 without SCALE_ADDR. -/
def State.readScales (s : State) (slot : Nat) : List (Nat × List Byte) → Status × List (Nat × List Byte × Nat) × State
  | [] => (.done, [], s)
  | (i, e) :: es =>
    let a := leAt e 96 8
    let (st, bs, s1) := if a = 0 then (Status.done, toBytes 4 0x3F800000, s) else s.ctxBytes slot 1 1 a 4
    if st ≠ .done then (st, [], s1)
    else
      let (st2, rs, s2) := s1.readScales slot es
      (st2, (i, e, ofBytes bs) :: rs, s2)

/-! ### The arithmetic of an element (R208) -/

/-- sign(c). -/
def signOf (c : Nat) : Nat :=
  if (FP.fin false 0 0).lt (f32 c) then 0x3F800000 else if (f32 c).lt (.fin false 0 0) then 0xBF800000 else c

/-- The gradient of an accumulator element under block exponent β, scaled. -/
def gradOf (a beta s : Nat) : Nat := mul32 (r32 (FP.ofInt (windowInt .bw48 a) (Window.unit .bw48 beta) false)) s

/-- The new master and moments of an element, from the entry, the gradient, the master and the moments. -/
def updateElem (e : List Byte) (g th m v : Nat) : Nat × Nat × Nat :=
  let nlr := neg32 (leAt e 56 4)
  let wd := leAt e 60 4
  let b1 := leAt e 64 4
  let omb1 := leAt e 68 4
  let b2 := leAt e 72 4
  let omb2 := leAt e 76 4
  match leAt e 0 1 with
  | 1 =>
    let m1 := fma32 b1 m (mul32 omb1 g)
    let v1 := fma32 b2 v (mul32 omb2 (mul32 g g))
    let u := div32 (mul32 m1 (leAt e 84 4)) (add32 (sqrt32 (mul32 v1 (leAt e 88 4))) (leAt e 80 4))
    (fma32 nlr (fma32 wd th u) th, m1, v1)
  | 2 =>
    let g1 := fma32 wd th g
    let mo := fma32 b1 m (mul32 omb1 g1)
    let d := if bit (leAt e 2 2) 0 then fma32 b1 mo g1 else mo
    (fma32 nlr d th, mo, v)
  | 3 => (fma32 nlr (fma32 wd th g) th, m, v)
  | _ =>
    let c := fma32 b1 m (mul32 omb1 g)
    (fma32 nlr (fma32 wd th (signOf c)) th, fma32 b2 m (mul32 omb2 g), v)

/-- fl_BF16 of a master (R180). -/
def bf16Of (w : Nat) : Nat := fmtBF16.round (f32 w)

/-! ### A block (R207, R209, R211) -/

/-- What reading a block gives: the parts by address offset, its block exponent, or the first failure with the address
read. -/
structure BlockIn where
  status : Status
  addr   : Nat
  parts  : List (Nat × List Nat)
  beta   : Nat
deriving DecidableEq, Repr

/-- The patterns of a part, zero where the part was not read. -/
def BlockIn.part (x : BlockIn) (off : Nat) : List Nat :=
  match x.parts.find? fun p => decide (p.1 = off) with
  | some p => p.2
  | none => List.replicate 64 0

/-- The context address of block `b` of a part of an entry. -/
def blockAddr (e : List Byte) (off size b : Nat) : Nat := leAt e off 8 + 64 * size * b

/-- Reads the block exponent of block `b` of an entry's accumulator, with the address of its byte. -/
def State.blockBeta (s : State) (slot : Nat) (e : List Byte) (b : Nat) : Status × Nat × Nat × State :=
  let (st, x, s1) := s.expEntry slot (leAt e 4 2)
  match x with
  | none => (st, 0, 0, s1)
  | some x =>
    let k := (x.index .bw48 (leAt e 40 8)).2 + b
    let (st2, beta, s2) := s1.blockExp slot x k
    (st2, beta, x.expAddr + k, s2)

/-- Reads a block: masters, moments, accumulator and exponent. -/
def State.readBlock (s : State) (slot : Nat) (e : List Byte) (b : Nat) : BlockIn × State :=
  let r := ((entryParts e).filter fun p => decide (p.1 ≠ 48)).foldl (fun (x : BlockIn × State) p =>
    if x.1.status ≠ .done then x
    else
      let a := blockAddr e p.1 p.2 b
      let (st, bs, s1) := x.2.ctxBytes slot 1 1 a (64 * p.2)
      if st = .done then ({ x.1 with parts := x.1.parts ++ [(p.1, elemsOf p.2 bs)] }, s1)
      else ({ x.1 with status := st, addr := a }, s1)) (⟨.done, 0, [], 0⟩, s)
  if r.1.status ≠ .done then r
  else
    let (st, beta, a, s1) := r.2.blockBeta slot e b
    ({ r.1 with status := st, addr := if st = .done then 0 else a, beta := beta }, s1)

/-- Writes parts in order, until one fails. -/
def State.writeParts (s : State) (slot : Nat) : List (Nat × List Byte) → Status × State
  | [] => (.done, s)
  | (a, bs) :: ps =>
    let (st, s1) := s.ctxPut slot 1 a bs
    if st = .done then s1.writeParts slot ps else (st, s1)

/-- What block `b` of an entry writes once it is computed: the master, the moments the program updates, the working copy
and the zeroed accumulator. -/
def blockWrites (e : List Byte) (scale b : Nat) (x : BlockIn) : List (Nat × List Byte) :=
  let s := mul32 (leAt e 92 4) scale
  let out := (List.range 64).map fun i =>
    updateElem e (gradOf ((x.part 40).getD i 0) x.beta s) ((x.part 16).getD i 0) ((x.part 24).getD i 0) ((x.part 32).getD i 0)
  let p := leAt e 0 1
  [(blockAddr e 16 4 b, out.flatMap fun o => toBytes 4 o.1)]
    ++ (if p = 3 then [] else [(blockAddr e 24 4 b, out.flatMap fun o => toBytes 4 o.2.1)])
    ++ (if p = 1 then [(blockAddr e 32 4 b, out.flatMap fun o => toBytes 4 o.2.2)] else [])
    ++ [(blockAddr e 48 2 b, out.flatMap fun o => toBytes 2 (bf16Of o.1)), (blockAddr e 40 6 b, List.replicate 384 0)]

/-- The unit of a block: that of the home of its first master byte (R207). -/
def State.updateUnit (s : State) (slot : Nat) (e : List Byte) (b : Nat) : Nat × Nat :=
  let (_, fa, _, s1) := s.resolve 0 slot (blockAddr e 16 4 b) .r
  (unitKind fa.space, s1.unitOf fa.space fa.off)

/-! ### Completion of freeze-engine work (R139, R387, R414) -/

/-- A descriptor of a shared engine completes with a stopping status: its set stops (R101), live or saved. A shared engine
is no unit of a set: its SOURCE is 0 (DEDUCED, log entry 50). -/
def State.stopOwner (s : State) (slot n : Nat) (st : Status) (source addr : Nat) : State :=
  let m := s.homeOf slot n
  let x := s.setSt m
  if m < 1024 ∧ x.slot = slot ∧ x.run ≠ .unbound then s.stopSet m st source 0 x.tileOwner addr
  else match s.ownSet slot n with
    | none => s
    | some y =>
      let f := match y.fault with
        | some f => f
        | none => ⟨st.num, source, 0, y.tileOwner, addr⟩
      let s1 := (s.putOwn slot n { y.halt with fault := some f }).emit RT_SET_FAULT .data 1 n (s.ctxOf slot)
        [st.num, source, addr, y.tileOwner]
      s1.contextFault slot st n (s1.lastSeq .data)

/-- Completes a freeze descriptor: its STATUS byte is byte 5. -/
def State.frzDone (s : State) (slot : Nat) (d : RoundDesc) (st : Status) (stops : Bool) : State :=
  let s1 := s.ownerWrite slot d.set (d.addr + 5) (toBytes 1 st.num)
  if stops then s1.stopOwner slot d.set st 0 (localAddr d.addr)
  else s1.counterAdd slot d.set (leAt d.desc 6 1 % 64) (BitVec.ofNat 64 (leAt d.desc 36 2))

/-- A suspect's work on an engine waits for the turn of another (R479): the freeze engine, the update units for an UPDATE, the
service NIC for an EXPORT. -/
def State.turnWaits (s : State) (slot op : Nat) : Bool :=
  let k := s.hng.testEng / 1024
  decide (s.get HNG_TESTING = 1 ∧ slot ∈ s.hng.turns ∧ (k = 1 ∨ (k = 3 ∧ op = 2) ∨ (k = 6 ∧ op = 4)))

/-- The descriptor at the head of a slot's queue, when it is of an operation and the slot has no context fault (R412,
R481). -/
def State.frzHead (s : State) (slot op : Nat) : Option RoundDesc :=
  match (s.frzSlot slot).queue with
  | d :: _ => if leAt d.desc 4 1 = op ∧ s.ready = true ∧ (s.slot slot).faulted = false ∧ s.fencedSlot slot = false ∧ s.turnWaits slot op = false then some d
    else none
  | [] => none

/-- Takes the head of a slot's queue. -/
def State.frzPop (s : State) (slot : Nat) : State :=
  let z := s.frzSlot slot
  s.putFrz slot { z with queue := z.queue.drop 1 }

/-! ### UPDATE -/

/-- The start of an UPDATE whose entries pass: the flags are sampled (R202, R384), and the blocks follow. -/
def State.updateBegin (s : State) (slot : Nat) (d : RoundDesc) (es : List (Nat × List Byte × Nat)) : State :=
  let ovr := decide (s.getF CTX_S_STEP_OVERRANGE slot 0 = 1)
  let abort := decide (s.getF CTX_S_STEP_ABORT slot 0 = 1)
  let u : Upd := { desc := d, mode := if ovr then 1 else if abort then 2 else 0, left := es, block := 0, status := 0, wrote := false }
  let s1 := (s.putFrz slot { s.frzSlot slot with update := some u }).when abort fun s => s.setF CTX_S_STEP_ABORT slot 0 0
  if !ovr then s1
  else if s1.getF CTX_S_ACTIVE_TABLE slot 0 = 3 then
    let s2 := s1.emit RT_TABLE_EXHAUSTED .data 9 0 (s.ctxOf slot) [leAt d.desc 8 8]
    s2.contextFault slot .overrange 0x3FF (s2.lastSeq .data)
  else
    let s2 := (s1.setF CTX_S_ACTIVE_TABLE slot 0 (s1.getF CTX_S_ACTIVE_TABLE slot 0 + 1)).setF CTX_S_STEP_OVERRANGE slot 0 0
    s2.putSlot slot { s2.slot slot with overRec := false }

/-- UPDATE (R202, R204, R206): the head of a slot's queue, once no UPDATE or drain of its context is in progress.
DEDUCED, log entry 153. -/
def execUpdate (slot : Fin 32) (s : State) : Res :=
  let i := slot.val
  let z := s.frzSlot i
  ok (match s.frzHead i 2 with
    | none => s
    | some d =>
      if z.update.isSome || z.drain.isSome then s
      else
        let s0 := s.frzPop i
        if leAt d.desc 20 4 = 0 then s0.frzDone i d .done false
        else
          let (st, es, s1) := s0.checkTable i d.desc
          if st ≠ .done then s1.frzDone i d st st.stops
          else
            let (st2, rs, s2) := s1.readScales i es
            if st2 ≠ .done then s2.frzDone i d st2 st2.stops else s2.updateBegin i d rs)

/-- One block of an UPDATE: the status and whether a block has been written. DEDUCED, log entry 150. -/
def State.updateOne (s : State) (slot : Nat) (u : Upd) (num : Nat) (e : List Byte) (scale : Nat) : Upd × State :=
  if u.mode ≠ 0 then
    let (st, s1) := s.ctxPut slot 1 (blockAddr e 40 6 u.block) (List.replicate 384 0)
    ({ u with status := if u.status = 0 then st.num else u.status }, s1)
  else
    let (x, s1) := s.readBlock slot e u.block
    if x.status ≠ .done then
      let (kind, unit) := s1.updateUnit slot e u.block
      ({ u with status := if u.status = 0 then x.status.num else u.status },
        s1.when (x.status == .uncorrectable) fun s => s.emit RT_UPDATE_FAULT .data kind unit (s.ctxOf slot) [x.addr, num])
    else
      let (st, s2) := s1.writeParts slot (blockWrites e scale u.block x)
      ({ u with status := if u.status = 0 then st.num else u.status, wrote := true }, s2)

/-- UPDATE_BLOCK (R207, R209): the next block, in table order. Blocks of different units may run in any order; no element's
result depends on it. -/
def execUpdateBlock (slot : Fin 32) (s : State) : Res :=
  let i := slot.val
  let z := s.frzSlot i
  ok (match z.update with
    | none => s
    | some u => match u.left with
      | [] => s
      | (num, e, scale) :: rest =>
        if !s.ready || s.fencedSlot i then s
        else
          let (u1, s1) := s.updateOne i u num e scale
          let u2 := if u.block + 1 < entryBlocks e then { u1 with block := u.block + 1 } else { u1 with left := rest, block := 0 }
          s1.putFrz i { s1.frzSlot i with update := some u2 })

/-! ### Witness digests (R442, R444) -/

/-- One digest per witness entry of a table, with its WID. -/
def State.digests (s : State) (slot : Nat) : List Nat → Status × List (Nat × Nat) × State
  | [] => (.done, [], s)
  | i :: is =>
    let (st, w, s1) := s.ctxBytes slot 3 1 (s.get64 ENC_WIT_ADDR_LO ENC_WIT_ADDR_HI 0 + 16 * i) 16
    if st ≠ .done then (st, [], s1)
    else
      let n := leAt w 8 4
      let (st2, bs, s2) := s1.ctxBytes slot 3 1 (leAt w 0 8) n
      if st2 ≠ .done then (st2, [], s2)
      else
        let (st3, ds, s3) := (s2.wrap ENC_DIGESTS 0 0 1).digests slot is
        (st3, (leAt w 12 4, if n = 0 then 0 else crc64xz bs) :: ds, s3)

/-- A replayed digest differs from the journal's (R444). -/
def State.mismatch (s : State) (slot wid : Nat) : State :=
  let step := s.getF CTX_S_STEP_NO slot 0
  let s1 := s.replayEnd 3 .checkFail
  let s2 := if s1.get ENC_MISMATCH_VALID = 1 then s1
    else ((((s1.set ENC_MISMATCH_STEP step).set ENC_MISMATCH_ATTEMPT s.enc.attempt).set ENC_MISMATCH_UPDATE s.enc.updates).set
      ENC_MISMATCH_WID wid).set ENC_MISMATCH_VALID 1
  let s3 := s2.emit RT_ENC_MISMATCH .data 10 0 (s.ctxOf slot)
    [step, s.enc.attempt, s.enc.updates, wid]
  s3.contextFault slot .checkFail 0x3FF (s3.lastSeq .data)

/-- The digests of an UPDATE that completes: recorded while its step is journalled, compared in a replay. -/
def State.witness (s : State) (slot : Nat) : Status × State :=
  if !(s.journals slot || s.replaying slot) then (.done, s)
  else
    let (st, ds, s1) := s.digests slot (List.range (s.get ENC_WIT_COUNT))
    if st ≠ .done then (.access, s1)
    else
      let key := s1.enc.updates
      let s2 := if s1.journals slot then s1.journal slot 0x0A key 0 (ds.flatMap fun d => toBytes 8 d.2)
        else
          let (r, s2) := s1.takeInput slot 0x0A key
          match r with
          | none => s2
          | some r =>
            match (List.range ds.length).find? fun i => decide (leAt r.data (8 * i) 8 ≠ (ds.getD i (0, 0)).2) with
            | none => s2
            | some i => s2.mismatch slot (ds.getD i (0, 0)).1
      (.done, { s2 with enc := { s2.enc with updates := s2.enc.updates + 1 } })

/-- UPDATE_COMPLETE (R209): every block is written; the digests come before INCREMENT. -/
def execUpdateComplete (slot : Fin 32) (s : State) : Res :=
  let i := slot.val
  let z := s.frzSlot i
  ok (match z.update with
    | none => s
    | some u =>
      if !u.left.isEmpty || !s.ready || s.fencedSlot i then s
      else
        let s0 := s.putFrz i { z with update := none }
        let (wst, s1) := s0.witness i
        let st : Status := if u.status ≠ 0 then Status.ofNum u.status else if wst ≠ .done then wst
          else if u.mode = 1 then .overrange else if u.mode = 2 then .aborted else .done
        let s2 := if st = .done then { s1 with hng := { s1.hng with updDone := s1.hng.updDone ||| 2 ^ i } } else s1
        s2.frzDone i u.desc st st.stops)

end Sys2Proof.Machine
end

