-- ==== Sys2Proof/Machine/Freeze.lean ====
section
/-! DEFINITION. The freeze engine beyond UPDATE (R411 to R433): draining a FREEZE, parity stripes, EXPORT, RESTORE, REBUILD and
the repair of unreadable blocks (R232). -/

namespace Sys2Proof.Machine

/-! ### Places in the extent (R418, R421, R423) -/

/-- SLOT_BLOCKS. -/
def State.slotBlocks (s : State) (i : Nat) : Nat := s.getF FRZ_S_SLOT_BLOCKS i 0

/-- A third of a slot. -/
def State.third (s : State) (i : Nat) : Nat := s.slotBlocks i / 3

/-- The first extent block of an area: freeze slots 0 and 1, then parity areas 0 and 1 as 2 and 3. -/
def State.areaFirst (s : State) (i area : Nat) : Nat :=
  if area < 2 then area * s.slotBlocks i else 2 * s.slotBlocks i + (area - 2) * s.getF FRZ_S_PARITY_BLOCKS i 0

/-- The blocks of an area. -/
def State.areaSize (s : State) (i area : Nat) : Nat := if area < 2 then s.slotBlocks i else s.getF FRZ_S_PARITY_BLOCKS i 0

/-- The tier C block of a block of an area. -/
def State.areaBlock (s : State) (i area b : Nat) : Nat := s.getF CTX_S_EXT_FIRST i 0 + s.areaFirst i area + b

/-- The parity area that protects a freeze slot. -/
def State.parityArea (s : State) (i fslot : Nat) : Nat := if s.getF FRZ_S_PARITY_SLOTS i 0 = 2 then 2 + fslot else 2

/-- The module ID of a stripe member. -/
def State.stripeMember (s : State) (i m : Nat) : Nat :=
  match m with
  | 0 => s.getF FRZ_S_MEMBER0 i 0
  | 1 => s.getF FRZ_S_MEMBER1 i 0
  | 2 => s.getF FRZ_S_MEMBER2 i 0
  | _ => s.getF FRZ_S_MEMBER3 i 0

/-- This module's member index. -/
def State.stripeSelf (s : State) (i : Nat) : Nat := s.getF FRZ_S_SELF i 0

/-- The other members. -/
def State.stripeOthers (s : State) (i : Nat) : List Nat := (List.range 4).filter fun m => decide (m ≠ s.stripeSelf i)

/-- The index among the others of the module with an ID. -/
def State.stripeIndex (s : State) (i module : Nat) : Option Nat :=
  (s.stripeOthers i).find? fun m => decide (s.stripeMember i m = module)

/-- Which of its thirds member `m` sends to row `r` (R421). -/
def thirdFor (m r : Nat) : Nat := if r < m then r else r - 1

/-- The row that a third of member `m` belongs to. -/
def rowOf (m j : Nat) : Nat := if j < m then j else j + 1

/-- Byte by byte exclusive or. -/
def xorBytes (a b : List Byte) : List Byte := a.zipWith (· ^^^ ·) b

/-! ### Headers (R419) -/

/-- The header block of a freeze slot. -/
def freezeHeader (state seq job step ctx module entries blocks cycles : Nat) : List Byte :=
  padTo 4096 0 ([0x48#8, 0x56#8, 0x46#8, 0x52#8, 0x45#8, 0x45#8, 0x5A#8, 0x45#8]
    ++ toBytes 1 1 ++ toBytes 1 state ++ toBytes 2 1 ++ toBytes 4 seq ++ toBytes 4 job ++ toBytes 4 step ++ toBytes 2 ctx
    ++ toBytes 2 module ++ toBytes 4 entries ++ toBytes 8 blocks ++ toBytes 8 cycles)

/-- A header block is that of a complete freeze; its SEQ. -/
def headerSeq (b : List Byte) : Option Nat :=
  if b.take 8 = [0x48#8, 0x56#8, 0x46#8, 0x52#8, 0x45#8, 0x45#8, 0x5A#8, 0x45#8] ∧ leAt b 8 1 = 1 ∧ leAt b 9 1 = 1 ∧ leAt b 10 2 = 1
  then some (leAt b 12 4) else none

/-- The bytes of a tier C block as they stand; empty when it cannot be read. -/
def State.tcPeek (s : State) (b : Nat) : List Byte :=
  if s.tierC.bad.get false b then [] else s.tierC.bytes.read 0 (4096 * b) 4096

/-- The SEQ of the complete freeze in a slot of the extent. -/
def State.slotSeq (s : State) (i f : Nat) : Option Nat := headerSeq (s.tcPeek (s.areaBlock i f 0))

/-- The slot that holds the newest complete freeze (R418). -/
def State.newestSlot (s : State) (i : Nat) : Option Nat :=
  match s.slotSeq i 0, s.slotSeq i 1 with
  | some a, some b => some (if b < a then 0 else 1)
  | some _, none => some 0
  | none, some _ => some 1
  | none, none => none

/-- The SEQ a FREEZE takes (R418): one more than the last, which after an admission is that of the complete slots (log
entry 51). DEDUCED, log entry 51. -/
def State.freezeSeq (s : State) (i : Nat) : Nat :=
  let z := s.frzSlot i
  nextSeq (if z.seq ≠ 0 then z.seq else max ((s.slotSeq i 0).getD 0) ((s.slotSeq i 1).getD 0))

/-! ### Failures (R414) -/

/-- A FREEZE, RESTORE or EXPORT ends with a status: counted and recorded; only ILLEGAL and ACCESS stop the set. -/
def State.frzFail (s : State) (i : Nat) (d : RoundDesc) (st : Status) : State :=
  let s1 := (s.sat FRZ_FREEZE_FAILS 0 0 1).emit RT_FREEZE_FAIL .data 9 0 (s.ctxOf i) [leAt d.desc 4 1, st.num, (s.frzSlot i).seq]
  s1.frzDone i d st (decide (st = .illegal ∨ st = .access))

/-! ### RDMA operations (R506) -/

/-- The path MTU of a storage channel's port (R505). -/
def State.pathMtu (s : State) (t : Nat) : Nat :=
  let m := s.getF MBX_K_MTU (s.getF MBX_T_PORT t 0 % 2) 0
  if 4200 ≤ m then 4096 else if 2200 ≤ m then 2048 else 1024

/-- Posts an outbound operation of some length: none while the pair is not ready to send. -/
def State.rdmaPost (s : State) (t slot len : Nat) (mk : Nat → RdmaOp) : Option State :=
  if s.getF MBX_T_QP_STATE t 0 ≠ 1 then none
  else
    let psn := s.mbx.psn.get 0 t
    let next := (psn + (len + s.pathMtu t - 1) / s.pathMtu t) % 2 ^ 24
    some (({ s with mbx := { s.mbx with rdma := s.mbx.rdma ++ [RdmaPending.mk t psn slot (mk psn)], psn := s.mbx.psn.put 0 t next } }).emitOut
      (.rdma t (mk psn)))

/-! ### FREEZE (R416 to R420) -/

/-- A FREEZE part: where its bytes are, and how many tier C blocks it takes. -/
def partBlocks (e : List Byte) : Nat := (entryBlocks e + 15) / 16

/-- The directory of a freeze, from the entries with their map entries, and the data blocks it places. -/
def freezeDir : List (List Byte × List Byte) → Nat → List Byte
  | [], _ => []
  | (e, m) :: es, at_ =>
    let n := (stateParts e).length
    let mask := if n = 1 then 1 else if n = 2 then 3 else 7
    toBytes 4 (leAt m 0 4) ++ toBytes 1 (leAt e 0 1) ++ toBytes 1 mask ++ toBytes 2 0 ++ toBytes 8 (leAt m 8 8)
      ++ toBytes 8 (64 * entryBlocks e) ++ toBytes 8 at_ ++ freezeDir es (at_ + n * partBlocks e)

/-- The data blocks of a freeze. -/
def freezeData (es : List (List Byte)) : Nat := es.foldl (fun n e => n + (stateParts e).length * partBlocks e) 0

/-- Reads the parts of the entries and sends them to the slot's data blocks, in directory order. -/
def State.drainParts (s : State) (i f at_ : Nat) : List (Nat × Nat) → Status × State
  | [] => (.done, s)
  | (a, n) :: ps =>
    let (st, bs, s1) := s.ctxBytes i 3 1 a n
    if st ≠ .done then (st, s1)
    else
      let k := (n + 4095) / 4096
      let (st2, s2) := s1.tcWrite (s1.areaBlock i f at_) (padTo (4096 * k) 0 bs) (.drain i)
      if st2 ≠ .done then (st2, s2) else s2.drainParts i f (at_ + k) ps

/-- Where the parts of a drain go, as (tier C block, context address, bytes). -/
def State.partPlaces (s : State) (i f : Nat) : Nat → List (Nat × Nat) → List (Nat × Nat × Nat)
  | _, [] => []
  | at_, (a, n) :: ps => (s.areaBlock i f at_, a, n) :: s.partPlaces i f (at_ + (n + 4095) / 4096) ps

/-- What a drain's write brings (R417): each 64-byte line of a part in the form it had when the FREEZE started, or in the form
it has by now, which the spec leaves open. -/
def State.drainBytes (s : State) (w : TcWrite) : List Byte × State :=
  let src : Option (Nat × Nat × Nat) := match w.who with
    | .drain i => ((s.frzSlot i).drain.bind fun (d : Drain) => d.parts.find? fun p => decide (p.1 = w.block)).map fun p => (i, p.2)
    | _ => none
  match src with
  | none => (w.bytes, s)
  | some (i, a, n) =>
    let (st, bs, _) := s.ctxBytes i 3 1 a n
    let now := padTo w.bytes.length 0 bs
    if st ≠ .done then (w.bytes, s)
    else (List.range ((w.bytes.length + 63) / 64)).foldl (fun (x : List Byte × State) k =>
      let before := (w.bytes.drop (64 * k)).take 64
      let after := (now.drop (64 * k)).take 64
      if before = after then (x.1 ++ before, x.2)
      else
        let (v, s1) := x.2.takeFree
        (x.1 ++ (if bit v.toNat 0 then after else before), s1)) ([], s)

/-- The freeze map entries of a FREEZE for some entries (R415). -/
def State.readMap (s : State) (i list first : Nat) : List (Nat × List Byte) → Status × List (List Byte × List Byte) × State
  | [] => (.done, [], s)
  | (num, e) :: es =>
    let (st, m, s1) := s.ctxBytes i 3 1 (list + 16 * (num - first)) 16
    if st ≠ .done then (st, [], s1)
    else
      let (st2, ms, s2) := s1.readMap i list first es
      (st2, (e, m) :: ms, s2)

/-- Ends an EXPORT with a status. -/
def State.endExport (s : State) (i : Nat) (st : Status) : State :=
  let z := s.frzSlot i
  match z.exporting with
  | none => s
  | some x =>
    let s1 := s.putFrz i { z with exporting := none, repairs := z.repairs.filter fun r => decide (r.use ≠ .exporting) }
    let s2 := { s1 with mbx := { s1.mbx with rdma := s1.mbx.rdma.filter fun p => match p.op with
      | .write _ _ _ => decide (p.slot ≠ i)
      | _ => true } }
    if st = .done then s2.frzDone i x.desc .done false else s2.frzFail i x.desc st

/-- The drain of a FREEZE that has passed its checks, into freeze slot `f`: the invalid header is programmed before anything
else is written. -/
def State.drainBegin (s : State) (i : Nat) (d : RoundDesc) (f : Nat) (es : List (List Byte × List Byte)) : State :=
  let seq := s.freezeSeq i
  let s1 := s.putFrz i { s.frzSlot i with seq := seq }
  let s2 := match (s1.frzSlot i).exporting with
    | some x => if leAt x.desc.desc 7 1 = f then s1.endExport i .aborted else s1
    | none => s1
  let n := es.length
  let data := freezeData (es.map (·.1))
  let first := 1 + (32 * n + 4095) / 4096
  let job := s.getF CTX_S_JOB i 0
  let s3 := (s2.tcStore (s2.areaBlock i f 0) (freezeHeader 0 seq job d.step (s.ctxOf i) s.self n data 0)).tcCount 1 1
  if s.slotBlocks i < first + data then s3.frzFail i d .noResource
  else
    let s4 := s3.setF FRZ_S_DRAIN_BLOCKS i 0 1
    let parts := es.flatMap fun e => (stateParts e.1).map fun p => (leAt e.1 p 8, 256 * entryBlocks e.1)
    let (st2, s5) := s4.drainParts i f first parts
    if st2 ≠ .done then s5.frzFail i d st2
    else
      let dir := freezeDir es first
      let (st3, s6) := if n = 0 then (Status.done, s5) else
        s5.tcWrite (s5.areaBlock i f 1) (padTo (4096 * ((32 * n + 4095) / 4096)) 0 dir) (.drain i)
      if st3 ≠ .done then s6.frzFail i d st3
      else (s6.putFrz i { s6.frzSlot i with drain := some ⟨d, f, seq, n, data, s.partPlaces i f first parts⟩ }).setF FRZ_S_DRAIN_STATE i 0 1

/-- FREEZE (R416): the head of a slot's queue, once every earlier descriptor but an EXPORT has completed (DEDUCED, log entry 52); it
waits for the parity phase before it (R423) and for a REBUILD (R432). -/
def execFreeze (slot : Fin 32) (s : State) : Res :=
  let i := slot.val
  let z := s.frzSlot i
  ok (match s.frzHead i 1 with
    | none => s
    | some d =>
      if z.update.isSome || z.drain.isSome || z.restore.isSome || z.rebuild.isSome then s
      else if z.parity.isSome && decide (leAt d.desc 20 4 ≠ 0) then s.setF FRZ_S_DRAIN_STATE i 0 2
      else
        let s0 := (s.frzPop i).setF FRZ_S_DRAIN_STATE i 0 0
        if leAt d.desc 20 4 = 0 then s0.frzDone i d .done false
        else if s.get MEM_C_STATE ≠ 1 then s0.frzFail i d .noResource
        else
          let (st, es, s1) := s0.checkTable i d.desc
          if st ≠ .done then s1.frzFail i d st
          else
            let (st2, ms, s2) := s1.readMap i (leAt d.desc 24 8) (leAt d.desc 16 4) es
            let f := if bit (leAt d.desc 2 2) 1 then leAt d.desc 7 1 else match s.newestSlot i with
              | some 0 => 1
              | _ => 0
            if st2 ≠ .done then s2.frzFail i d st2
            else if s.getF CTX_S_EXT_BLOCKS i 0 < (f + 1) * s.slotBlocks i then s2.frzFail i d .access
            else s2.drainBegin i d f ms)

/-! ### Repair of an unreadable block (R232) -/

/-- Asks another stripe member for blocks of an area; none when the request cannot be sent. -/
def State.askMember (s : State) (i m area first n : Nat) (w : Waiter) : Option State :=
  match s.send (s.stripeMember i m) 6 (s.ctxOf i) 0 ⟨s.stripeMember i m, 0, 0⟩ (.tcBlocks area first n) w 0 with
  | some (.done, s1) => some s1
  | _ => none

/-- Asks several members. -/
def State.askAll (s : State) (i : Nat) (w : Waiter) : List (Nat × Nat × Nat × Nat) → Option State
  | [] => some s
  | (m, area, first, n) :: qs =>
    match s.askMember i m area first n w with
    | some s1 => s1.askAll i w qs
    | none => none

/-- The three reads that give back a block of this member's slot: the parity block of its row, and the two other members'
blocks of that row (R421). -/
def State.repairReads (s : State) (i f b n : Nat) : List (Nat × Nat × Nat × Nat) :=
  let t := s.third i
  let r := rowOf (s.stripeSelf i) (b / t)
  (s.stripeOthers i).map fun m =>
    if m = r then (m, s.parityArea i f, 1 + b % t, n) else (m, f, thirdFor m r * t + b % t, n)

/-- Starts the repair of a block of a freeze slot that parity protects; none when it is not protected or a partner cannot be
asked. -/
def State.repair (s : State) (i f b : Nat) (use : RepairFor) : Option State :=
  let z := s.frzSlot i
  if s.getF FRZ_S_STRIPE_VALID i 0 = 0 ∨ s.getF FRZ_S_PARITY_SLOTS i 0 = 0 ∨ s.slotBlocks i % 3 ≠ 0 ∨ s.third i = 0
      ∨ s.slotSeq i f ≠ some (s.getF FRZ_S_PROTECTED_SEQ i 0) then none
  else (s.askAll i (.repair i f b) (s.repairReads i f b 1)).map fun s1 =>
    s1.putFrz i { z with repairs := z.repairs ++ [⟨f, b, [], use⟩] }

/-- The first unreadable block of some blocks of an area. -/
def State.badBlock (s : State) (i area first n : Nat) : Option Nat :=
  ((List.range n).map (· + first)).find? fun b => s.tierC.bad.get false (s.areaBlock i area b)

/-! ### Parity (R421 to R424) -/

/-- The windows of a row. -/
def State.windows (s : State) (i : Nat) : Nat := (s.third i + 65535) / 65536

/-- The blocks of a window. -/
def State.windowBlocks (s : State) (i w : Nat) : Nat := min 65536 (s.third i - 65536 * w)

/-- The parity phase of a slot ends in failure (R424). -/
def State.parityFail (s : State) (i m : Nat) (st : Status) : State :=
  let z := s.frzSlot i
  match z.parity with
  | none => s
  | some p =>
    let s1 := ((s.putFrz i { z with parity := none }).setF FRZ_S_PARITY_STATE i 0 3).sat FRZ_PARITY_FAILS 0 0 1
    let s2 := s1.emit RT_FREEZE_PARITY_FAIL .data 9 0 (s.ctxOf i) [m, p.seq]
    s2.notify .parityFailed st.num 0 i 0x3FFF m (s2.lastSeq .data)

/-- Writes the stamp block of the row (R421); it is programmed before anything that follows. -/
def State.stamp (s : State) (i : Nat) (p : Parity) : State :=
  let bitmap := p.stamped.foldl (fun b w => b ||| 2 ^ w) 0
  (s.tcStore (s.areaBlock i (s.parityArea i p.fslot) 0) (padTo 4096 0 (Config.stampBlock p.seq p.fslot bitmap))).tcCount 1 1

/-- The staging address of a window. -/
def State.stageAt (s : State) (i w : Nat) : Nat :=
  s.get64 FRZ_S_STAGE_ADDR_LO FRZ_S_STAGE_ADDR_HI i + (w % 2) * 2 ^ 28

/-- Grants the next window to the three contributors: its half of the staging buffer is zeroed first. A member without a
route ends the phase. -/
def State.grantWindow (s : State) (i : Nat) : State :=
  let z := s.frzSlot i
  match z.parity with
  | none => s
  | some p =>
    if s.windows i ≤ p.next then s
    else
      let w := p.next
      let (_, s1) := s.ctxPut i 3 (s.stageAt i w) (List.replicate (2 ^ 28) 0)
      let s2 := s1.putFrz i { s1.frzSlot i with parity := some { p with granted := p.granted ++ [⟨w, []⟩], next := w + 1 } }
      match (s2.stripeOthers i).find? fun m => (s2.route (s2.stripeMember i m)).1.isNone with
      | some m => s2.parityFail i m .peerLost
      | none =>
      match (s2.stripeOthers i).find? fun m => (match (s2.route (s2.stripeMember i m)).1 with
          | some h => !s2.hopHas h 6 6
          | none => true) with
      | some m => s2.parityFail i m .version
      | none => (s2.stripeOthers i).foldl (fun s m => s.postMsg (s.stripeMember i m) 6 (.parityGrant (s.stripeMember i m) (s.ctxOf i) p.seq w)) s2

/-- The phase ends once the row is stamped and every contribution is sent (R422). -/
def State.parityEnd (s : State) (i : Nat) : State :=
  let z := s.frzSlot i
  match z.parity with
  | none => s
  | some p =>
    if s.windows i ≤ p.stamped.length ∧ p.owe = [] then
      ((s.putFrz i { z with parity := none }).setF FRZ_S_PARITY_STATE i 0 2).setF FRZ_S_PROTECTED_SEQ i 0 p.seq
    else s

/-- Sends one block of a contribution. -/
def State.sendPart (s : State) (i r seq w b : Nat) (bs : List Byte) : State :=
  s.postMsg (s.stripeMember i r) 6 (.parityPart (s.stripeMember i r) (s.ctxOf i) seq w b bs)

/-- Contributes a window to a row (R422): this member's blocks of it, from its own tier C; an unreadable one is sent once it
is repaired. -/
def State.contribute (s : State) (i r w : Nat) : State :=
  match (s.frzSlot i).parity with
  | none => s
  | some p =>
    let first := thirdFor (s.stripeSelf i) r * s.third i + 65536 * w
    let s1 := (List.range (s.windowBlocks i w)).foldl (fun s b =>
      let (st, bs, s1) := s.tcRead 0 3 (s.areaBlock i p.fslot (first + b)) 1
      if st = .done then s1.sendPart i r p.seq w b bs
      else (s1.repair i p.fslot (first + b) (.part r p.seq w)).getD s1) s
    let z := s1.frzSlot i
    (s1.putFrz i { z with parity := z.parity.map fun p => { p with owe := p.owe.filter fun o => decide (o ≠ (r, w)) } }).parityEnd i

/-- Serves the grants that came before the phase they belong to. -/
def State.heldGrants (s : State) (i seq : Nat) : State :=
  let z := s.frzSlot i
  let mine := z.grants.filter fun g => decide (g.2.1 = seq)
  mine.foldl (fun s g => s.contribute i g.1 g.2.2) (s.putFrz i { z with grants := z.grants.filter fun g => decide (seq < g.2.1) })

/-- The parity phase of a FREEZE that has completed (R422). -/
def State.parityStart (s : State) (i f seq : Nat) : State :=
  let t := s.third i
  if s.getF FRZ_S_STRIPE_VALID i 0 = 0 ∨ s.getF FRZ_S_PARITY_SLOTS i 0 = 0 ∨ s.slotBlocks i % 3 ≠ 0 ∨ t = 0
      ∨ s.getF FRZ_S_PARITY_BLOCKS i 0 < t + 1 then s
  else
    let owe := (s.stripeOthers i).flatMap fun r => (List.range (s.windows i)).map fun w => (r, w)
    let p : Parity := ⟨f, seq, [], 0, [], owe⟩
    let s1 := ((s.putFrz i { s.frzSlot i with parity := some p }).setF FRZ_S_PARITY_STATE i 0 1).setF FRZ_S_WINDOWS_DONE i 0 0
    (((s1.stamp i p).grantWindow i).grantWindow i).heldGrants i seq

/-- DRAIN_COMPLETE (R416): every write of the drain is programmed; the complete header goes last, and the FREEZE completes. -/
def execDrainComplete (slot : Fin 32) (s : State) : Res :=
  let i := slot.val
  let z := s.frzSlot i
  ok (match z.drain with
    | none => s
    | some d =>
      if !s.ready || (s.tierC.flying.any fun w => decide (w.who = .drain i)) then s
      else
        let s0 := (s.putFrz i { z with drain := none }).setF FRZ_S_DRAIN_STATE i 0 0
        if s.get MEM_C_STATE ≠ 1 then s0.frzFail i d.desc .noResource
        else
          let h := freezeHeader 1 d.seq (s.getF CTX_S_JOB i 0) d.desc.step (s.ctxOf i) s.self d.entries d.blocks s.callerCycles
          let s1 := (s0.tcStore (s0.areaBlock i d.fslot 0) h).tcCount 1 1
          let s2 := (s1.setF FRZ_S_LAST_SEQ i 0 d.seq).setF FRZ_S_LAST_SLOT i 0 d.fslot
          let s3 := (s2.setF FRZ_S_DRAIN_BLOCKS i 0 ((s2.getF FRZ_S_DRAIN_BLOCKS i 0 + 1) % 2 ^ 30)).wrap FRZ_FREEZES_DONE 0 0 1
          let s4 := s3.frzDone i d.desc .done false
          if bit (leAt d.desc.desc 2 2) 0 then s4.parityStart i d.fslot d.seq else s4)

/-- A window whose contributions are all in: it goes to the parity area, its bit is set, and the next is granted. -/
def State.windowDone (s : State) (i w : Nat) : State :=
  let z := s.frzSlot i
  match z.parity with
  | none => s
  | some p =>
    let (st, bs, s1) := s.ctxBytes i 3 0 (s.stageAt i w) (4096 * s.windowBlocks i w)
    if st ≠ .done then s1.parityFail i (s.stripeSelf i) st
    else if s.get MEM_C_STATE ≠ 1 then s1.parityFail i (s.stripeSelf i) .noResource
    else
        let s2 := (s1.tcStore (s1.areaBlock i (s1.parityArea i p.fslot) (1 + 65536 * w)) bs).tcCount (s.windowBlocks i w) (s.windowBlocks i w)
        let q := { p with granted := p.granted.filter fun x => decide (x.window ≠ w), stamped := p.stamped ++ [w] }
        let s3 := (s2.putFrz i { s2.frzSlot i with parity := some q }).setF FRZ_S_WINDOWS_DONE i 0 q.stamped.length
        (((s3.stamp i q).grantWindow i)).parityEnd i

/-- PARITY_PART (R422): a block of a granted window from another member is exclusive-or'd into the staging window; each
block of a member counts once. -/
def execParityPart (src : BitVec 12) (context : BitVec 16) (seq window : BitVec 32) (block : Fin 65536) (bytes : List Byte)
    (s : State) : Res :=
  ok (match s.slotOf context.toNat with
    | none => s
    | some i =>
      let z := s.frzSlot i
      if !s.ready || s.fencedSlot i then s
      else match z.parity, s.stripeIndex i src.toNat with
      | some p, some m =>
        if seq.toNat < p.seq then s.sat FRZ_STALE_PARITY 0 0 1
        else match p.granted.find? fun x => decide (x.window = window.toNat) with
        | none => s
        | some x =>
          if seq.toNat ≠ p.seq ∨ s.windowBlocks i x.window ≤ block.val ∨ (m, block.val) ∈ x.heard then s
          else
            let a := s.stageAt i x.window + 4096 * block.val
            let (st, old, s1) := s.ctxBytes i 3 0 a 4096
            let (st2, s2) := if st = .done then s1.ctxPut i 3 a (xorBytes old (padTo 4096 0 bytes)) else (st, s1)
            if st2 ≠ .done then s2.parityFail i m st2
            else
              let y := { x with heard := x.heard ++ [(m, block.val)] }
              let s3 := s2.putFrz i { s2.frzSlot i with
                parity := some { p with granted := p.granted.map fun g => if g.window = x.window then y else g } }
              if 3 * s.windowBlocks i x.window ≤ y.heard.length then s3.windowDone i x.window else s3
      | none, some _ => if seq.toNat < z.seq then s.sat FRZ_STALE_PARITY 0 0 1 else s
      | _, none => s)

/-- PARITY_GRANT (R422): the holder of a row grants a window; it waits while this member's own FREEZE of that SEQ has not
completed. -/
def execParityGrant (src : BitVec 12) (context : BitVec 16) (seq window : BitVec 32) (s : State) : Res :=
  ok (match s.slotOf context.toNat with
    | none => s
    | some i =>
      let z := s.frzSlot i
      if !s.ready || s.fencedSlot i then s
      else match s.stripeIndex i src.toNat with
      | none => s
      | some r =>
        match z.parity with
        | some p =>
          if p.seq = seq.toNat then (if (r, window.toNat) ∈ p.owe then s.contribute i r window.toNat else s)
          else if p.seq < seq.toNat then s.putFrz i { z with grants := z.grants ++ [(r, seq.toNat, window.toNat)] } else s
        | none =>
          if s.getF FRZ_S_PROTECTED_SEQ i 0 < seq.toNat ∧ window.toNat < s.windows i then
            s.putFrz i { z with grants := z.grants ++ [(r, seq.toNat, window.toNat)] }
          else s)

/-- PARITY_TIMEOUT (R424): a member has answered no grant or part within ROUND_TIMEOUT_US. -/
def execParityTimeout (slot : Fin 32) (member : Fin 4) (s : State) : Res :=
  let i := slot.val
  ok (match (s.frzSlot i).parity with
    | none => s
    | some p =>
      let waits := (p.granted.any fun x => decide ((x.heard.filter fun h => decide (h.1 = member.val)).length < s.windowBlocks i x.window))
        || p.owe.any fun o => decide (o.1 = member.val)
      if s.ready && decide (member.val ≠ s.stripeSelf i) && waits then s.parityFail i member.val .timeout else s)

/-! ### EXPORT (R425) -/

/-- Sends a block of an export to storage. -/
def State.exportBlock (s : State) (i t at_ : Nat) (bs : List Byte) : State :=
  (s.rdmaPost t i 4096 fun psn => .write psn (s.get64 MBX_T_REMOTE_BASE_LO MBX_T_REMOTE_BASE_HI t + 4096 * at_) bs).getD s

/-- The blocks of an export in order: the slot, then, with parity, the stamp block and the row (DEDUCED, log entry 53), as (area,
block). -/
def State.exportBlocks (s : State) (i f : Nat) : List (Nat × Nat) :=
  (List.range (s.slotBlocks i)).map (fun b => (f, b))
    ++ (if s.getF FRZ_S_PARITY_SLOTS i 0 = 0 then [] else (List.range (s.third i + 1)).map fun b => (s.parityArea i f, b))

/-- The place in the export of a block of a slot. -/
def State.exportSend (s : State) (i f t : Nat) : State :=
  let bs := s.exportBlocks i f
  (List.range bs.length).foldl (fun s k =>
    let (area, b) := bs.getD k (0, 0)
    let (st, data, s1) := s.tcRead 0 3 (s.areaBlock i area b) 1
    if st = .done then s1.exportBlock i t k data
    else
      let lost := fun (s : State) => let z := s.frzSlot i
        s.putFrz i { z with exporting := z.exporting.map fun x => { x with status := Status.uncorrectable.num } }
      if area < 2 then (s1.repair i f b .exporting).getD (lost s1) else lost s1) s

/-- EXPORT (R425). -/
def execExportStart (slot : Fin 32) (s : State) : Res :=
  let i := slot.val
  let z := s.frzSlot i
  ok (match s.frzHead i 4 with
    | none => s
    | some d =>
      if z.exporting.isSome then s
      else
        let s0 := s.frzPop i
        let t := leAt d.desc 38 2
        let f := leAt d.desc 7 1
        if leAt d.desc 20 4 = 0 then s0.frzDone i d .done false
        else if s.get MEM_C_STATE ≠ 1 then s0.frzFail i d .noResource
        else if 64 ≤ t ∨ s.getF CTX_S_EXT_BLOCKS i 0 < (f + 1) * s.slotBlocks i
            ∨ s.get64 MBX_T_REMOTE_LEN_LO MBX_T_REMOTE_LEN_HI t < 4096 * (s.exportBlocks i f).length then s0.frzFail i d .access
        else if s.slotSeq i f = none then s0.frzFail i d .checkFail
        else if s.getF MBX_T_QP_STATE t 0 ≠ 1 then s0.frzFail i d .peerLost
        else (s0.putFrz i { s0.frzSlot i with exporting := some ⟨d, 0⟩ }).exportSend i f t)

/-- EXPORT_DONE (R425): storage has acknowledged every byte, or the export has met a status. -/
def execExportDone (slot : Fin 32) (s : State) : Res :=
  let i := slot.val
  let z := s.frzSlot i
  ok (match z.exporting with
    | none => s
    | some x =>
      let waits := (s.mbx.rdma.any fun p => decide (p.slot = i) && (match p.op with | .write _ _ _ => true | _ => false))
        || z.repairs.any fun r => decide (r.use = .exporting)
      if !s.ready || (waits && decide (x.status = 0)) then s else s.endExport i (Status.ofNum x.status))

/-! ### RESTORE (R426, R427, R429) -/

/-- What reading a source gives: its bytes, a wait, or a status. -/
inductive Source where
  | bytes (bs : List Byte) (s : State)
  | wait (s : State)
  | fail (st : Status) (s : State)

/-- Reads blocks of the source of a piece: this module's tier C, another module's freeze engine, or storage. -/
def State.pieceSource (s : State) (i : Nat) (d : RoundDesc) (pc : List Byte) (first n : Nat) : Source :=
  let f := leAt pc 10 1
  let m := leAt pc 8 2 % 4096
  if n = 0 then .bytes [] s
  else if f = 2 then
    let t := leAt d.desc 38 2
    match s.rdmaPost t i (4096 * n) fun psn =>
        .read psn (s.get64 MBX_T_REMOTE_BASE_LO MBX_T_REMOTE_BASE_HI t + 4096 * first) (4096 * n) with
    | some s1 => .wait s1
    | none => .fail .peerLost s
  else if m = s.self then
    if (s.frzSlot i).rebuild.isSome then .wait s
    else if s.tcMounted = false then .fail .noResource s
    else if s.areaSize i f < first + n ∨ s.getF CTX_S_EXT_BLOCKS i 0 < (f + 1) * s.slotBlocks i then .fail .access s
    else
      let (st, bs, s1) := s.tcRead 0 3 (s.areaBlock i f first) n
      if st = .done then .bytes bs s1
      else match s1.badBlock i f first n with
        | some b => match s1.repair i f b .restore with
          | some s2 => .wait s2
          | none => .fail .uncorrectable s1
        | none => .fail .uncorrectable s1
  else match s.send m 6 (s.ctxOf i) 0 ⟨m, 0, 0⟩ (.tcBlocks f first n) (.restore i) 0 with
    | none => .wait s
    | some (.done, s1) => .wait s1
    | some (st, s1) => .fail st s1

/-- The bit of a state part in PARTS (R420). -/
def partBit (off : Nat) : Nat := (off - 16) / 8

/-- The first block and the number of blocks that hold some elements of a part of a source entry, and the byte of the first
block where they begin. -/
def partRange (src pc : List Byte) (off : Nat) : Nat × Nat × Nat :=
  let parts := leAt src 5 1
  let each := (4 * leAt src 16 8 + 4095) / 4096
  let before := popCount (partBit off) parts
  let at_ := 4 * leAt pc 24 8
  let n := 4 * leAt pc 32 8
  (leAt src 24 8 + before * each + at_ / 4096, if n = 0 then 0 else (at_ + n - 1) / 4096 - at_ / 4096 + 1, at_ % 4096)

/-- A RESTORE ends with a status. -/
def Restore.stop (r : Restore) (st : Status) : Restore := { r with pieces := [], status := st.num }

/-- Past a piece's part, or past the piece. -/
def Restore.past (r : Restore) (k : Nat) (src dst : List Byte) : Restore :=
  if k + 1 < (stateParts dst).length then { r with at_ := .part (k + 1) src }
  else { r with pieces := r.pieces.drop 1, at_ := .header }

/-- The blocks the first piece reads next: none for a part its source lacks. -/
def State.pieceNext (s : State) (i : Nat) (r : Restore) (pc : List Byte) : Option (Nat × Nat) × State :=
  match r.at_ with
  | .header => (some (0, 1), s)
  | .directory => (some (1 + leAt pc 4 4 * 32 / 4096, 1), s)
  | .part k src =>
    let (_, dst, s1) := s.ctxBytes i 3 0 (leAt r.desc.desc 8 8 + 128 * leAt pc 0 4) 128
    let off := (stateParts dst).getD k 16
    let (first, n, _) := partRange src pc off
    (if bit (leAt src 5 1) (partBit off) then some (first, n) else none, s1)

/-- Takes what the first piece has read (R427): a header that is checked, a directory entry whose ranges are, or the bytes of
a part, which are written; a part its source lacks is written as zero. -/
def State.pieceTake (s : State) (i : Nat) (r : Restore) (pc : List Byte) (bs : Option (List Byte)) : Restore × State :=
  let d := r.desc.desc
  let (dst, dent, s0) := s.ctxBytes i 3 0 (leAt d 8 8 + 128 * leAt pc 0 4) 128
  match r.at_ with
  | .header =>
    let b := bs.getD []
    if headerSeq b ≠ some (leAt pc 12 4) then (r.stop .checkFail, s0)
    else if leAt b 28 4 ≤ leAt pc 4 4 then (r.stop .access, s0)
    else ({ r with at_ := .directory }, s0)
  | .directory =>
    let e := ((bs.getD []).drop (leAt pc 4 4 * 32 % 4096)).take 32
    let inDest := decide (leAt d 16 4 ≤ leAt pc 0 4 ∧ leAt pc 0 4 < leAt d 16 4 + leAt d 20 4) && entryOn dent && decide (dst = .done)
    if !inDest || decide (leAt e 16 8 < leAt pc 24 8 + leAt pc 32 8 ∨ 64 * entryBlocks dent < leAt pc 16 8 + leAt pc 32 8) then
      (r.stop .access, s0)
    else ({ r with at_ := .part 0 e }, s0)
  | .part k src =>
    let off := (stateParts dent).getD k 16
    let (_, _, skip) := partRange src pc off
    let n := 4 * leAt pc 32 8
    let data := match bs with
      | some b => (b.drop skip).take n
      | none => List.replicate n 0
    let (st, s1) := s0.ctxPut i 3 (leAt dent off 8 + 4 * leAt pc 16 8) data
    if st = .done then (r.past k src dent, s1) else (r.stop st, s1)

/-- Runs a RESTORE until a read is under way, or no piece is left. -/
def State.restoreRun (s : State) (i : Nat) : Nat → State
  | 0 => s
  | fuel + 1 =>
    let z := s.frzSlot i
    match z.restore with
    | none => s
    | some r =>
      match r.pieces with
      | [] => s
      | pc :: _ =>
        let (want, s1) := s.pieceNext i r pc
        let take (s : State) (bs : Option (List Byte)) : State :=
          let (q, s2) := s.pieceTake i r pc bs
          (s2.putFrz i { s2.frzSlot i with restore := some q }).restoreRun i fuel
        match want with
        | none => take s1 none
        | some (first, n) => match s1.pieceSource i r.desc pc first n with
          | .bytes bs s2 => take s2 (some bs)
          | .wait s2 => s2
          | .fail st s2 => s2.putFrz i { s2.frzSlot i with restore := some (r.stop st) }

/-- The steps a RESTORE's pieces can take. -/
def Restore.fuel (r : Restore) : Nat := 6 * r.pieces.length + 1

/-- Goes on with a RESTORE whose read has been answered. -/
def State.restoreGot (s : State) (i : Nat) (st : Status) (bs : List Byte) : State :=
  let z := s.frzSlot i
  match z.restore with
  | none => s
  | some r =>
    match r.pieces with
    | [] => s
    | pc :: _ =>
      if st ≠ .done then s.putFrz i { z with restore := some (r.stop st) }
      else
        let (q, s1) := s.pieceTake i r pc (some bs)
        (s1.putFrz i { s1.frzSlot i with restore := some q }).restoreRun i r.fuel

/-- A RESTORE that waited for this module's own slot goes on. -/
def State.restoreAgain (s : State) (i : Nat) : State :=
  match (s.frzSlot i).restore with
  | some r => s.restoreRun i r.fuel
  | none => s

/-- Reads the piece list of a RESTORE. -/
def State.readPieces (s : State) (i list : Nat) : Nat → Status × List (List Byte) × State
  | 0 => (.done, [], s)
  | n + 1 =>
    let (st, pc, s1) := s.ctxBytes i 3 1 list 48
    if st ≠ .done then (st, [], s1)
    else if 2 < leAt pc 10 1 ∨ leAt pc 11 1 ≠ 0 ∨ leAt pc 40 8 ≠ 0 then (.illegal, [], s1)
    else
      let (st2, ps, s2) := s1.readPieces i (list + 48) n
      (st2, pc :: ps, s2)

/-- RESTORE (R427). -/
def execRestore (slot : Fin 32) (s : State) : Res :=
  let i := slot.val
  let z := s.frzSlot i
  ok (match s.frzHead i 3 with
    | none => s
    | some d =>
      if z.restore.isSome || z.update.isSome || z.drain.isSome then s
      else
        let s0 := s.frzPop i
        if leAt d.desc 20 4 = 0 then s0.frzDone i d .done false
        else
          let (st, _, s1) := s0.checkTable i d.desc
          if st ≠ .done then s1.frzFail i d st
          else
            let (st2, ps, s2) := s1.readPieces i (leAt d.desc 24 8) (leAt d.desc 32 4)
            if st2 ≠ .done then s2.frzFail i d st2
            else if (ps.any fun p => decide (leAt p 10 1 = 2)) && decide (64 ≤ leAt d.desc 38 2) then s2.frzFail i d .access
            else
              let r : Restore := ⟨d, ps, .header, 0⟩
              (s2.putFrz i { s2.frzSlot i with restore := some r }).restoreRun i r.fuel)

/-- Derives the working copy of a block and zeroes its accumulator (R209, R427). -/
def State.deriveBlock (s : State) (i : Nat) (e : List Byte) (b : Nat) : Status × State :=
  let (st, bs, s1) := s.ctxBytes i 3 1 (blockAddr e 16 4 b) 256
  if st ≠ .done then (st, s1)
  else s1.writeParts i [(blockAddr e 48 2 b, (elemsOf 4 bs).flatMap fun w => toBytes 2 (bf16Of w)), (blockAddr e 40 6 b, List.replicate 384 0)]

/-- Derives every block of the entries. -/
def State.derive (s : State) (i : Nat) : List (List Byte × Nat) → Status × State
  | [] => (.done, s)
  | (e, b) :: bs =>
    let (st, s1) := s.deriveBlock i e b
    if st = .done then s1.derive i bs else (st, s1)

/-- RESTORE_DONE (R427): every piece is written; working copies and accumulators follow. -/
def execRestoreDone (slot : Fin 32) (s : State) : Res :=
  let i := slot.val
  let z := s.frzSlot i
  ok (match z.restore with
    | none => s
    | some r =>
      if !r.pieces.isEmpty || !s.ready || s.fencedSlot i then s
      else
        let s0 := s.putFrz i { z with restore := none }
        if r.status ≠ 0 then s0.frzFail i r.desc (Status.ofNum r.status)
        else
          let (st, es, s1) := s0.checkTable i r.desc.desc
          if st ≠ .done then s1.frzFail i r.desc st
          else
            let (st2, s2) := s1.derive i (es.flatMap fun e => (List.range (entryBlocks e.2)).map fun b => (e.2, b))
            if st2 ≠ .done then s2.frzFail i r.desc st2 else s2.frzDone i r.desc .done false)

/-! ### Serving another module, and repairs answered -/

/-- Serves a freeze engine's read of this module's tier C (R427): the answer, or none while a block is repaired. -/
def State.serveTc (s : State) (src ctx seq area first n : Nat) : Option (Status × List Byte) × State :=
  match s.slotOf ctx with
  | none => (some (.access, []), s)
  | some i =>
    if s.fencedSlot i then (some (.fenced, []), s)
    else if s.tcMounted = false then (some (.noResource, []), s)
    else if 4 ≤ area ∨ s.areaSize i area < first + n
        ∨ s.getF CTX_S_EXT_BLOCKS i 0 < s.areaFirst i area + s.areaSize i area then (some (.access, []), s)
    else
      let (st, bs, s1) := s.tcRead 0 3 (s.areaBlock i area first) n
      if st = .done then (some (.done, bs), s1)
      else match (if area < 2 then s1.badBlock i area first n else none) with
        | some b => match s1.repair i area b (.serve src seq area first n) with
          | some s2 => (none, s2)
          | none => (some (.uncorrectable, []), s1)
        | none => (some (.uncorrectable, []), s1)

/-- What waited for a repair goes on: with the block's bytes, or without them. -/
def State.repairUse (s : State) (i : Nat) (r : Repair) (bs : Option (List Byte)) : State :=
  let epoch := s.epoch % 256
  match r.use, bs with
  | .restore, some _ => s.restoreAgain i
  | .restore, none => match (s.frzSlot i).restore with
    | some x => s.putFrz i { s.frzSlot i with restore := some (x.stop .uncorrectable) }
    | none => s
  | .serve src seq area first n, some _ =>
    let (a, s1) := s.serveTc src (s.ctxOf i) seq area first n
    match a with
    | some (st, data) => s1.postMsg src 6 (.response src 6 false (s1.ctxOf i) seq st.num epoch data)
    | none => s1
  | .serve src seq _ _ _, none => s.postMsg src 6 (.response src 6 false (s.ctxOf i) seq Status.uncorrectable.num epoch [])
  | .exporting, some b => match (s.frzSlot i).exporting with
    | some x => s.exportBlock i (leAt x.desc.desc 38 2) r.block b
    | none => s
  | .exporting, none =>
    let z := s.frzSlot i
    s.putFrz i { z with exporting := z.exporting.map fun x => { x with status := Status.uncorrectable.num } }
  | .part row seq w, some b => s.sendPart i row seq w ((r.block % s.third i) - 65536 * w) b
  | .part _ _ _, none => s

/-- A partner has answered a repair (R232): with all three, the block is their exclusive or, and is written again. -/
def State.repairGot (s : State) (i f b : Nat) (st : Status) (bs : List Byte) : State :=
  let z := s.frzSlot i
  match z.repairs.find? fun r => decide (r.fslot = f ∧ r.block = b) with
  | none => s
  | some r =>
    let rest := z.repairs.filter fun q => decide (q ≠ r)
    if st ≠ .done then (s.putFrz i { z with repairs := rest }).repairUse i r none
    else
      let got := r.got ++ [bs]
      if got.length < 3 then s.putFrz i { z with repairs := z.repairs.map fun q => if q = r then { r with got := got } else q }
      else
        let data := got.foldl xorBytes (List.replicate 4096 0)
        ((s.putFrz i { z with repairs := rest }).tcStore (s.areaBlock i f b) data).repairUse i r (some data)

/-! ### REBUILD (R428) -/

/-- A REBUILD ends with a status. -/
def State.rebuildEnd (s : State) (i : Nat) (st : Status) : State :=
  let z := s.frzSlot i
  match z.rebuild with
  | none => s
  | some r =>
    let s1 := ((s.putFrz i { z with rebuild := none }).setF FRZ_S_DRAIN_STATE i 0 0).set FRZ_BUSY 0
    let s2 := s1.set FRZ_RESULT st.num
    if st = .done then
      let s3 := (s2.tcStore (s2.areaBlock i r.fslot 0) r.header).tcCount 1 1
      let s4 := s3.stamp i ⟨r.fslot, r.seq, [], 0, List.range (s3.windows i), []⟩
      let s5 := (((s4.setF FRZ_S_LAST_SEQ i 0 r.seq).setF FRZ_S_LAST_SLOT i 0 r.fslot).setF FRZ_S_PROTECTED_SEQ i 0 r.seq).set
        FRZ_PROGRESS 100
      (s5.wrap FRZ_REBUILDS 0 0 1).putFrz i { s5.frzSlot i with seq := max r.seq (s5.frzSlot i).seq }
    else s2.emit RT_FREEZE_REBUILD_FAIL .data 9 0 (s.ctxOf i) [st.num, r.seq]

/-- REBUILD (R428): FRZ.CMD 1 names a context slot. Its first reads are the headers of the survivors' slots.
DEDUCED, log entry 152. -/
def State.rebuildStart (s : State) : State :=
  let i := s.get FRZ_CMD_SLOT
  let z := s.frzSlot i
  if s.get FRZ_BUSY = 1 ∨ !s.ready then s
  else
    let fail (st : Status) : State := (s.set FRZ_RESULT st.num).emit RT_FREEZE_REBUILD_FAIL .data 9 0 (s.ctxOf i) [st.num, 0]
    if s.getF CTX_S_STATE i 0 = 0 ∨ s.getF FRZ_S_STRIPE_VALID i 0 = 0 ∨ s.getF FRZ_S_PARITY_SLOTS i 0 = 0
        ∨ s.slotBlocks i % 3 ≠ 0 ∨ s.third i = 0 then fail .access
    else if s.get MEM_C_STATE ≠ 1 then fail .noResource
    else if z.drain.isSome || z.parity.isSome || z.rebuild.isSome then fail .order
    else
      let (p, s1) := s.takeFree
      let s2 := ((s1.set FRZ_BUSY 1).set FRZ_PROGRESS (p.toNat % 100)).setF FRZ_S_DRAIN_STATE i 0 3
      let s3 := s2.putFrz i { z with rebuild := some ⟨0, 0, 0, [], [], 0⟩ }
      (s3.askAll i (.rebuild i) ((s3.stripeOthers i).flatMap fun m => [(m, 0, 0, 1), (m, 1, 0, 1)])).getD
        (s3.putFrz i { z with rebuild := some ⟨3, 0, 0, [], [], Status.peerLost.num⟩ })

/-- The restart point a survivor's two headers give: its SEQ and slot. -/
def restartPoint (got : List (Nat × Nat × Nat × List Byte)) (m : Nat) : Option (Nat × Nat) :=
  let seqOf := fun (f : Nat) => (got.find? fun g => decide (g.1 = m ∧ g.2.1 = f)).bind fun g => headerSeq g.2.2.2
  match seqOf 0, seqOf 1 with
  | some a, some b => some (if b < a then (a, 0) else (b, 1))
  | some a, none => some (a, 0)
  | none, some b => some (b, 1)
  | none, none => none

/-- What the survivors sent of some block, by exclusive or. -/
def combine (got : List (Nat × Nat × Nat × List Byte)) (qs : List (Nat × Nat × Nat × Nat)) (n : Nat) : List Byte :=
  qs.foldl (fun acc q => match got.find? fun g => decide (g.1 = q.1 ∧ g.2.1 = q.2.1 ∧ g.2.2.1 = q.2.2.1) with
    | some g => xorBytes acc g.2.2.2
    | none => acc) (List.replicate (4096 * n) 0)

/-- The reads of the rebuild of a slot's three thirds. DEDUCED, log entry 151. -/
def State.thirdReads (s : State) (i f : Nat) : List (Nat × Nat × Nat × Nat) :=
  (List.range 3).flatMap fun j => s.repairReads i f (j * s.third i) (s.third i)

/-- The reads of the rebuild of this member's own parity row. -/
def State.rowReads (s : State) (i f : Nat) : List (Nat × Nat × Nat × Nat) :=
  (s.stripeOthers i).map fun m => (m, f, thirdFor m (s.stripeSelf i) * s.third i, s.third i)

/-- The next stage of a REBUILD whose reads are all answered. -/
def State.rebuildStage (s : State) (i : Nat) (r : Rebuild) : State :=
  let put (s : State) (r : Rebuild) : State := s.putFrz i { s.frzSlot i with rebuild := some r }
  let lost (s : State) (st : Status) : State := put s { r with stage := 3, status := st.num }
  let t := s.third i
  match r.stage with
  | 0 =>
    let ps := (s.stripeOthers i).map (restartPoint r.got)
    match ps.headD none with
    | none => lost s .peerLost
    | some (seq, f) =>
      if ps.any fun p => decide (p.map (·.1) ≠ some seq) then lost s .peerLost
      else
        let q := { r with stage := 1, seq := seq, fslot := f, got := [] }
        ((put s q).askAll i (.rebuild i) (s.thirdReads i f)).getD (lost s .peerLost)
  | 1 =>
    let (st, s1) := (List.range 3).foldl (fun (x : Status × State) j =>
      let data := combine r.got (s.repairReads i r.fslot (j * t) t) t
      let skip := if j = 0 then 1 else 0
      let (st, s1) := if t ≤ skip then (Status.done, x.2) else
        x.2.tcWrite (s.areaBlock i r.fslot (j * t + skip)) (data.drop (4096 * skip)) (.parity i)
      (x.1.andThen st, s1)) (Status.done, s)
    if st ≠ .done then lost s1 st
    else
      let q := { r with stage := 2, header := (combine r.got (s.repairReads i r.fslot 0 t) t).take 4096, got := [] }
      ((put s1 q).askAll i (.rebuild i) (s1.rowReads i r.fslot)).getD (lost s1 .peerLost)
  | _ =>
    let (st, s1) := s.tcWrite (s.areaBlock i (s.parityArea i r.fslot) 1) (combine r.got (s.rowReads i r.fslot) t) (.parity i)
    if st ≠ .done then lost s1 st else put s1 { r with stage := 3, got := [] }

/-- The answers a stage of a REBUILD waits for. -/
def rebuildReads (stage : Nat) : Nat := if stage = 0 then 6 else if stage = 1 then 9 else 3

/-- A survivor has answered a REBUILD. -/
def State.rebuildGot (s : State) (i m area first : Nat) (st : Status) (bs : List Byte) : State :=
  let z := s.frzSlot i
  match z.rebuild with
  | none => s
  | some r =>
    if 3 ≤ r.stage then s
    else if st ≠ .done then s.putFrz i { z with rebuild := some { r with stage := 3, status := Status.peerLost.num } }
    else
      let q := { r with got := r.got ++ [(m, area, first, bs)] }
      let s1 := s.putFrz i { z with rebuild := some q }
      if q.got.length < rebuildReads r.stage then s1 else s1.rebuildStage i q

/-- REBUILD (R428) as a command: the write of 1 to FRZ.CMD. -/
def execRebuild (slot : Fin 32) (s : State) : Res :=
  ok (if s.ready then (s.set FRZ_CMD_SLOT slot.val).rebuildStart else s)

/-- REBUILD_DONE (R428): every block is written, or a source was missing. -/
def execRebuildDone (slot : Fin 32) (s : State) : Res :=
  let i := slot.val
  ok (match (s.frzSlot i).rebuild with
    | none => s
    | some r =>
      if r.stage ≠ 3 ∨ !s.ready ∨ (s.tierC.flying.any fun w => decide (w.who = .parity i)) = true then s
      else (s.rebuildEnd i (if r.status = 0 ∧ s.get MEM_C_STATE ≠ 1 then .noResource else Status.ofNum r.status)).restoreAgain i)

/-! ### Ends that resets bring (R471, R474) -/

/-- The freeze engine's work of a context ends: queued descriptors with ABORTED, a drain with FENCED and its slot left
invalid, an UPDATE with ABORTED after its current block; with a partition reset, parity phases too. -/
def State.frzAbort (s : State) (i : Nat) (parity : Bool) : State :=
  let z := s.frzSlot i
  let torn := (z.update.map Upd.wrote).getD false
  let left := s.tierC.flying.filter fun w => decide (w.who ≠ .drain i)
  let s1 := { s with
    hng := { s.hng with
      updTorn := if torn then s.hng.updTorn ||| 2 ^ i else s.hng.updTorn,
      frzLost := if z.drain.isSome then s.hng.frzLost ||| 2 ^ i else s.hng.frzLost },
    tierC := { s.tierC with flying := left } }
  let s2 := s1.putFrz i { z with queue := [], update := none, drain := none, restore := none, repairs := [] }
  let s3 := s2.setF FRZ_S_DRAIN_STATE i 0 (if z.rebuild.isSome then 3 else 0)
  let s4 := match z.update with
    | some u => s3.frzDone i u.desc .aborted false
    | none => s3
  let s5 := match z.drain with
    | some d => s4.frzFail i d.desc .fenced
    | none => s4
  let s6 := match z.restore with
    | some r => s5.frzFail i r.desc .aborted
    | none => s5
  let s7 := s6.endExport i .aborted
  let s8 := z.queue.foldl (fun s d => s.frzDone i d .aborted false) s7
  if parity then s8.parityFail i (s8.stripeSelf i) .aborted else s8

/-- TIER_C_WRITE_DONE (R230): the oldest write in flight is programmed; who waited for it goes on with its next command. -/
def execTierCWriteDone (extra : BitVec 8) (s : State) : Res :=
  ok (match s.tierC.flying with
    | [] => s
    | w :: ws =>
      let (bs, s0) := s.drainBytes w
      match ({ s0 with tierC := { s0.tierC with flying := { w with bytes := bs } :: ws } }).tcProgram extra.toNat with
      | none => s
      | some (who, s1) => match who with
        | .drain i => s1.setF FRZ_S_DRAIN_BLOCKS i 0 ((s1.getF FRZ_S_DRAIN_BLOCKS i 0 + w.bytes.length / 4096) % 2 ^ 30)
        | _ => s1)

end Sys2Proof.Machine
end

