-- ==== Sys2Proof/Machine/Answers.lean ====
section
/-! DEFINITION. What the answer of a request does here (R101, R139, R276, R278, R281, R282, R427, R428, R438): a response, an
acknowledgement, or the status that ends a request that gets none. -/

namespace Sys2Proof.Machine

/-- The OP of the message that answers a request (R329), as a RESPONSE record holds it. -/
def Sent.answerOp (q : Sent) : Nat := match q.waiter, q.op with
  | .posted _, _ => 0x81
  | _, .writeBlock _ | _, .fill _ _ | _, .windowAdd .. => 0x81
  | _, _ => 0x80

/-- Records the answer of a request of a set while its context is journalled (R438, R439). -/
def State.journalAnswer (s : State) (slot : Nat) (q : Sent) (st : Nat) (data : List Byte) : State :=
  s.journal slot 0x09 q.key 0 (msgHeader q.answerOp st q.ctx 0 0 0 data.length q.seq 0 0 ++ data)

/-- A load or an atomic that returns a value is answered: its register takes the value, a stopping status stops the set,
and any other status leaves the register open (DEDUCED, log entry 46). -/
def State.answerReg (s : State) (slot n rd size : Nat) (sext : Bool) (pc : Nat) (st : Status) (data : List Byte) : State :=
  if st.stops then s.stopOwner slot n st 1 pc
  else match s.ownSet slot n with
  | none => s
  | some x =>
    if st = .done then s.putOwn slot n (x.setReg rd (loadValue size sext data))
    else
      let (v, s1) := s.takeFree
      s1.putOwn slot n (x.setReg rd v)

/-- A row of a draining tile is acknowledged (R196, R277): OVERRANGE lets the tile go on, any other status fails it. -/
def State.answerTile (s : State) (slot n id : Nat) (st : Status) : State :=
  let x := s.setSt n
  if x.slot ≠ slot ∨ st = .done then s
  else if st = .overrange then
    match x.findRun id with
    | some r => s.putSet n (x.putRun { r with status := st.num })
    | none => s
  else s.failTile n id 0 st

/-- What a waiter does with the end of its request. -/
def State.answerTo (s : State) (slot : Nat) (q : Sent) (st : Status) (data : List Byte) : State :=
  match q.waiter with
  | .reg n rd size sext pc => s.answerReg slot n rd size sext pc st data
  | .posted n => if st = .done ∨ st = .aborted then s else s.stopOwner slot n st 1 q.addr
  | .prom n id =>
    s.promAnswer slot n id st (match q.op with
      | .readBlock _ => true
      | _ => false) data
  | .tile n id => s.answerTile slot n id st
  | .restore i => s.restoreGot i st data
  | .repair i f b => s.repairGot i f b st data
  | .rebuild i =>
    match q.op, s.stripeIndex i q.dest with
    | .tcBlocks area first _, some m => s.rebuildGot i m area first st data
    | _, _ => s

/-- A request of a set (and not of the freeze engine). -/
def Waiter.ofSet : Waiter → Bool
  | .reg .. | .posted _ | .prom .. | .tile .. => true
  | _ => false

/-- A request has ended with a status and data: it is outstanding no more, and what waits for it goes on. The context may
have gone since; then nothing does. -/
def State.answer (s : State) (q : Sent) (st : Status) (data : List Byte) : State :=
  let s1 := { s with fab := { s.fab with sent := s.fab.sent.filter fun p => decide (p ≠ q) } }
  match s1.slotOf q.ctx with
  | none => s1
  | some slot => ((if q.waiter.ofSet then s1.journalAnswer slot q st.num data else s1)).answerTo slot q st data

/-- Ends the outstanding requests that satisfy a test with ABORTED; their responses, should they come, are late (R470). -/
def State.abortSent (s : State) (p : Sent → Bool) : State :=
  let qs := s.fab.sent.filter p
  qs.foldl (fun s q => (s.answer q .aborted []))
    { s with fab := { s.fab with gone := s.fab.gone ++ qs } }

/-- The outstanding request of a pair with a number. -/
def State.sentOn (s : State) (dest vc seq : Nat) : Option Sent :=
  s.fab.sent.find? fun q => decide (q.dest = dest ∧ q.vc = vc ∧ q.seq = seq)

end Sys2Proof.Machine
end

