-- ==== Sys2Proof/Machine/LinkOps.lean ====
section
/-! DEFINITION. Links (R311 to R341, R350, R357): how lanes form links, flits and messages, the forwarding stage, and how a
link comes up, retrains and goes down. The rows of the chapter are in Links.lean. -/

namespace Sys2Proof.Machine

/-! ### Lanes and links (R311) -/

/-- A port faces a router. -/
def State.facesRouter (s : State) (p : Nat) : Bool := bit (s.get OPT_ROUTER_FACING) p

/-- A port runs in short mode. -/
def State.shortPort (s : State) (p : Nat) : Bool := bit (s.get OPT_SHORT_MODE) p

/-- A port is enabled. -/
def State.portOn (s : State) (p : Nat) : Bool := bit (s.get OPT_PORT_ENABLE) p

/-- The transmit lane of a lane number is ENABLED or RECAL. -/
def State.txOn (s : State) (l : Nat) : Bool :=
  let st := s.getF OPT_LN_TX_STATE (l / 16) (l % 16)
  decide (st = 5 ∨ st = 6)

/-- The receive lane of a lane number is ENABLED or RECAL. -/
def State.rxOn (s : State) (l : Nat) : Bool :=
  let st := s.getF OPT_LN_RX_STATE (l / 16) (l % 16)
  decide (st = 5 ∨ st = 6)

/-- A lane is enabled in both directions. -/
def State.laneOn (s : State) (l : Nat) : Bool := s.txOn l && s.rxOn l

/-- A loopback lane: line 0 of a router-facing port (R290, R311). -/
def State.loopback (s : State) (l : Nat) : Bool :=
  s.facesRouter (l / 16) && decide (s.getF OPT_LN_TARGET_LINE (l / 16) (l % 16) = 0)

/-- The link a lane belongs to, by its lowest lane: on a router-facing port every line leads to another partner, so that
each lane is a link of its own; on any other port the data lanes form one. -/
def State.linkOf (s : State) (l : Nat) : Option Nat :=
  let p := l / 16
  if !s.portOn p then none
  else if s.facesRouter p then if s.loopback l then none else some l
  else if s.shortPort p ∧ l % 16 = 15 then none
  else some (16 * p)

/-- The lanes of a link. -/
def State.lanesOf (s : State) (L : Nat) : List Nat :=
  if s.linkOf L ≠ some L then []
  else if s.facesRouter (L / 16) then [L]
  else (List.range (if s.shortPort (L / 16) then 15 else 16)).map (· + L)

/-- The links of a port. -/
def State.portLinks (s : State) (p : Nat) : List Nat :=
  ((List.range 16).map (· + 16 * p)).filter fun l => s.linkOf l == some l

/-- The expected partner of a link; 0xFFFF for none. -/
def State.expectedOf (s : State) (L : Nat) : Nat :=
  let p := L / 16
  if s.facesRouter p then 32 * s.get MOD_FLOOR + (s.get MOD_SLOT + s.getF OPT_LN_TARGET_LINE p (L % 16)) % 32
  else s.getF LNK_P_EXPECTED p 0

/-- What a link keeps. -/
def State.lk (s : State) (L : Nat) : Link := s.links.links.get Link.init L

/-- The state with a link replaced; KEPT follows its replay buffer. -/
def State.putLk (s : State) (L : Nat) (x : Link) : State :=
  ({ s with links := { s.links with links := s.links.links.put Link.init L x } }).setF LNK_L_KEPT L 0 x.kept.length

/-- Counts the links in a state of some set, up to the field's top. -/
def State.countLinks (s : State) (p : Nat → Bool) : Nat :=
  min 255 ((List.range 192).filter fun l => p (s.getF LNK_L_LINK_STATE l 0)).length

/-- Changes LINK_STATE; LINKS_UP and LINKS_HELD follow. -/
def State.linkState (s : State) (L st : Nat) : State :=
  let s1 := s.setF LNK_L_LINK_STATE L 0 st
  (s1.set LNK_LINKS_UP (s1.countLinks fun v => decide (v = 4 ∨ v = 5))).set LNK_LINKS_HELD (s1.countLinks fun v => decide (v = 6))

/-- Sets or clears MISSING of a link; the port's flag and the count follow. -/
def State.setMissing (s : State) (L : Nat) (v : Bool) : State :=
  let s1 := s.putLk L { s.lk L with missing := v }
  let p := L / 16
  let s2 := s1.setF LNK_P_MISSING p 0 (bitOf ((List.range 16).any fun k => (s1.lk (16 * p + k)).missing))
  s2.set LNK_LINKS_MISSING (min 255 (s2.links.links.filter fun e => e.2.missing).length)

/-- A record of a link. -/
def State.linkRec (s : State) (type L : Nat) (items : List Nat) : State := s.emit type .control 7 L 0 items

/-! ### Flits (R327 to R329) -/

/-- The header of a flit as a 128-bit value. -/
def Flit.header (f : Flit) (lseq lack nak cvc count : Nat) : Nat :=
  let idle := f.ftype = 0
  lseq + 2 ^ 16 * lack + (if idle then 0 else 2 ^ 32 * f.vc) + 2 ^ 35 * nak + 2 ^ 36 * f.ftype + 2 ^ 40 * cvc + 2 ^ 43 * count
    + (if idle then 0 else 2 ^ 52 * f.dest + 2 ^ 64 * f.src + 2 ^ 76 * f.e2e + 2 ^ 92 * (f.epoch % 256)) + 2 ^ 100
    + (if idle then 0 else 2 ^ 102 * bitOf f.som + 2 ^ 103 * bitOf f.eom + 2 ^ 104 * f.hops)

/-- Header and payload: what the CRC covers. -/
def Flit.body (f : Flit) (lseq lack nak cvc count : Nat) : List Byte :=
  toBytes 16 (f.header lseq lack nak cvc count) ++ padTo 232 0 f.payload

/-- A body with its CRC. -/
def withCrc (b : List Byte) : List Byte := b ++ toBytes 8 (crc64xz b)

/-- An IDLE flit. -/
def Flit.idle : Flit := ⟨0, 0, 0, 0, 0, 0, false, false, 0, []⟩

/-- The flits of a message on a VC (R329). -/
def flitsOfMsg (vc dest src e2e epoch : Nat) (msg : List Byte) : List Flit :=
  let n := max 1 ((msg.length + 231) / 232)
  (List.range n).map fun i =>
    ⟨vc, 1, dest, src, e2e, epoch, decide (i = 0), decide (i + 1 = n), 0, padTo 232 0 ((msg.drop (232 * i)).take 232)⟩

/-- A flit is bad (R328): its CRC, a reserved field or type, FGEN, or a codeword that was not corrected. -/
def badFlit (bs : List Byte) (fecBad : Bool) : Bool :=
  let h := leAt bs 0 16
  fecBad || decide (bs.length ≠ 256 ∨ leAt bs 248 8 ≠ crc64xz (bs.take 248) ∨ bits h 127 108 ≠ 0 ∨ bits h 101 100 ≠ 1
    ∨ 2 < bits h 39 36)

/-- The flit that 256 bytes spell. -/
def flitOf (bs : List Byte) : Flit :=
  let h := leAt bs 0 16
  ⟨bits h 34 32, bits h 39 36, bits h 63 52, bits h 75 64, bits h 91 76, bits h 99 92, bit h 102, bit h 103, bits h 107 104,
    (bs.drop 16).take 232⟩

/-! ### Messages (R329, R376, R482) -/

/-- The fabric address of an offset of a module (R264). -/
def fabAddr (m space off : Nat) : Nat := 2 ^ 50 * m + 2 ^ 48 * space + off

/-- The bytes of a request. The bytes a READ_BLOCK or a FILL asks for stand in LENGTH (DEDUCED, log entry 54).
DEDUCED, log entry 55. -/
def reqBytes (dest ctx space off : Nat) (op : ReqOp) : List Byte :=
  let a := fabAddr dest space off
  match op with
  | .load n => msgHeader 0x01 0 ctx n 0 a 0 0 0 0
  | .store bs => msgHeader 0x02 0 ctx bs.length 0 a 0 0 (ofBytes bs) 0
  | .amo f o c => msgHeader 0x03 0 ctx f 0 a 0 0 o c
  | .readBlock n => msgHeader 0x04 0 ctx 0 0 a n 0 0 0
  | .writeBlock bs => msgHeader 0x05 0 ctx 0 0 a bs.length 0 0 0 ++ bs
  | .fill p n => msgHeader 0x06 0 ctx 0 0 a n 0 p 0
  | .windowAdd e wa f bs => msgHeader 0x07 0 ctx (f + 16 * (if wa then 2 else 1)) e a bs.length 0 0 0 ++ bs
  | .ctlLoad => msgHeader 0x08 0 ctx 4 0 a 0 0 0 0
  | .ctlStore v => msgHeader 0x09 0 ctx 4 0 a 0 0 v 0
  | .tcBlocks area first n => Config.vc6Bytes 0 ctx area first n []

/-- The VC, destination and bytes of a message. A response that finds EPOCH changed gives the current one in OPERAND (log
entry 55). -/
def msgOf : Out → Option (Nat × Nat × List Byte)
  | .request d vc _ _ ctx space off op => some (vc, d, reqBytes d ctx space off op)
  | .response d vc ack ctx seq st ep data =>
    some (vc, d, msgHeader (if ack then 0x81 else 0x80) st ctx 0 0 0 data.length seq (if st = Status.peerLost.num then ep else 0) 0
      ++ data)
  | .round d vc h data => some (vc, d, h ++ data)
  | .notice d bs => some (0, d, bs)
  | .parityGrant d ctx seq w => some (6, d, Config.vc6Bytes 1 ctx seq w 0 [])
  | .parityPart d ctx seq w b bs => some (6, d, Config.vc6Bytes 2 ctx seq w b bs)
  | _ => none

/-! ### The forwarding stage (R336, R350, R354) -/

/-- The flits queued on a link. -/
def Link.queued (x : Link) : Nat := x.queues.foldl (fun n e => n + e.2.length) 0

/-- Appends a flit to its VC's queue on a link. -/
def State.enqueue (s : State) (L : Nat) (f : Flit) : State :=
  let x := s.lk L
  s.putLk L { x with queues := x.queues.put [] f.vc (x.queues.get [] f.vc ++ [f]) }

/-- The candidate links to a next hop, sorted by lowest lane. -/
def State.candidates (s : State) (hop : Nat) : List Nat :=
  (List.range 192).filter fun l => s.linkLive l && decide (s.getF LNK_L_PARTNER l 0 = hop)

/-- The candidate with the fewest flits queued, the lowest lane on a tie. -/
def State.fewest (s : State) : List Nat → Option Nat
  | [] => none
  | l :: ls => match s.fewest ls with
    | none => some l
    | some m => if (s.lk l).queued ≤ (s.lk m).queued then some l else some m

/-- The link a message takes to its next hop (R350). -/
def State.pickLink (s : State) (hop dest vc : Nat) : Option Nat :=
  let cs := s.candidates hop
  if vc < 4 then cs[(dest + vc) % max 1 cs.length]? else s.fewest cs

/-- A flit without a route (R265, R336): a request of this module completes with PEER_LOST. -/
def State.lostFlit (s : State) (f : Flit) : State :=
  let s1 := s.sat TOP_NO_ROUTE 0 0 1
  if f.src = s1.self ∧ f.som then
    match s1.sentOn f.dest f.vc f.e2e with
    | some q => s1.answer q .peerLost []
    | none => s1
  else s1

/-- Puts a flit on a link towards its destination: the flits of one message stay on the link its first one took. -/
def State.forward (s : State) (prev : Option Nat) (f : Flit) : Option Nat × State :=
  let (hop, s1) := s.route f.dest
  match hop with
  | none => (none, s1.lostFlit f)
  | some h =>
    match (match prev with
      | some l => if !f.som ∧ s1.linkLive l ∧ s1.getF LNK_L_PARTNER l 0 = h then some l else s1.pickLink h f.dest f.vc
      | none => s1.pickLink h f.dest f.vc) with
    | some l => (some l, s1.enqueue l f)
    | none => (none, s1.lostFlit f)

/-- Forwards flits in order; per VC the link in use is kept until its message ends. -/
def State.forwardAll (s : State) : SMap Nat → List Flit → State
  | _, [] => s
  | m, f :: fs =>
    let (l, s1) := s.forward (m.find f.vc) f
    s1.forwardAll (match l with
      | some k => if f.eom then m.erase f.vc else m.insert f.vc k
      | none => m.erase f.vc) fs

/-- A VC0 message of a two-network arrangement leaves as a datagram (R508): by service port m mod 2, or by the other one
when that is down. -/
def State.vc0Datagram (s : State) (dest n : Nat) (msg : List Byte) : State :=
  let p := dest % 2
  let port := if s.getF MBX_K_ETH_STATE p 0 = 0 then 1 - p else p
  let f : Flit := ⟨0, 1, dest, s.self, n, s.fab.epochs.get 0 dest, true, true, 0, []⟩
  s.emitOut (.datagram port dest (toBytes 16 (f.header 0 0 0 0 0) ++ msg))

/-- Puts one message on its way. -/
def State.launch (s : State) (n : Nat) (o : Out) : State :=
  match msgOf o with
  | none => s
  | some (vc, dest, msg) =>
    if vc = 0 ∧ s.get TOP_NETWORKS = 2 then s.vc0Datagram dest n msg
    else s.forwardAll [] (flitsOfMsg vc dest s.self n (s.fab.epochs.get 0 dest) msg)

/-- Puts every message that waits on its way. Routes change only by commands that do this first, so that each message takes
the route that held when it left. -/
def State.drainOut (s : State) : State :=
  s.links.outbox.foldl (fun s x => s.launch x.1 x.2) { s with links := { s.links with outbox := [] } }

/-! ### Control flits (R317, R319) -/

/-- The payload of a CTRL flit: HELLO 1, ACCEPT 2, REJECT 3, WIDTH 4, WIDTH_ACK 5. -/
def State.ctrlBytes (s : State) (L l type heard reason : Nat) : List Byte :=
  let p := l / 16
  let image := s.get CFG_IMAGE_VERSION
  toBytes 1 type ++ toBytes 1 (s.get LNK_GEN_MIN) ++ toBytes 1 (s.get LNK_GEN_MAX)
  ++ toBytes 1 (bitOf (s.shortPort p) + 2 * bitOf (s.facesRouter p) + 4 * s.get LNK_PORT_AGNOSTIC)
  ++ toBytes 2 s.self ++ toBytes 1 p ++ toBytes 1 (s.getF LNK_P_LOGICAL p 0) ++ toBytes 1 (l % 16)
  ++ toBytes 1 (s.getF OPT_LN_TARGET_LINE p (l % 16)) ++ toBytes 1 (s.epoch % 256)
  ++ toBytes 1 (s.get TOP_MODE + 2 * s.get TOP_NETWORKS) ++ toBytes 2 (s.expectedOf L) ++ toBytes 1 (s.get TOP_GRID_X)
  ++ toBytes 1 (s.get TOP_GRID_Y) ++ toBytes 8 (s.get64 LNK_FEATURES_LO LNK_FEATURES_HI 0) ++ toBytes 2 heard
  ++ toBytes 2 reason ++ toBytes 4 image ++ toBytes 8 0

/-- The lanes of a link whose partner's transmit slots are aligned: the HEARD bits. -/
def Link.hears (x : Link) : Nat :=
  (x.aligned.filter fun e => !bit x.removed e.1).foldl (fun m e => m ||| 2 ^ e.2) 0

/-- The aligned lanes that are not removed, as a mask of slots. -/
def Link.receives (x : Link) : Nat :=
  (x.aligned.filter fun e => !bit x.removed e.1).foldl (fun m e => m ||| 2 ^ e.1) 0

/-- Sends a CTRL flit on one lane, in a training frame and not sequenced (R327). -/
def State.sendCtrl (s : State) (L l type reason : Nat) : State :=
  let f : Flit := ⟨0, 2, s.expectedOf L % 4096, s.self, 0, 0, true, true, 0, s.ctrlBytes L l type (s.lk L).hears reason⟩
  s.emitOut (.flit l (withCrc (f.body 0 0 0 0 0)) 0)

/-- Sends a CTRL flit on every aligned lane of a link. -/
def State.sendAll (s : State) (L type reason : Nat) : State :=
  (s.lk L).aligned.foldl (fun s e => s.sendCtrl L (16 * (L / 16) + e.1) type reason) s

/-! ### Credits (R337) -/

/-- The weight of a VC (R338). -/
def State.weight (s : State) (v : Nat) : Nat :=
  if v < 4 then bits (s.get LNK_WEIGHT0_3) (8 * v + 7) (8 * v) else bits (s.get LNK_WEIGHT4_7) (8 * (v - 4) + 7) (8 * (v - 4))

/-- The slots of a VC in the receive buffer of a direction of some width (DEDUCED, log entry 57). -/
def State.vcSlots (s : State) (L width v : Nat) : Nat :=
  let port := if s.shortPort (L / 16) then 15 else 16
  let total := ((List.range 8).map s.weight).foldl (· + ·) 0
  8 + (2048 * width / port - 64) * s.weight v / max 1 total

/-- The credits of a link at UP and at a retrain: the partner's slots, less the flits it may still hold. -/
def State.linkCredits (s : State) (L : Nat) : State :=
  let x := s.lk L
  let w := popCount 16 (s.getF LNK_L_TX_LANES L 0)
  s.putLk L { x with
    credits := (List.range 8).foldl (fun m v =>
      m.put 0 v (s.vcSlots L w v - (x.kept.filter fun e => decide (e.2.vc = v)).length)) [] }

/-! ### Sending on a link that is UP (R327, R330, R337) -/

/-- The header fields that the link adds to whatever it sends next: LACK, a due NAK, and the credits of the VC whose turn it
is; they are taken from what the link owes. -/
def State.linkFields (s : State) (L : Nat) : (Nat × Nat × Nat × Nat) × State :=
  let x := s.lk L
  let owing := ((List.range 8).map fun k => (x.turn + k) % 8).filter fun v => decide (x.owed.get 0 v ≠ 0)
  let v := owing.headD 0
  let n := min 511 (x.owed.get 0 v)
  (((x.expect + 65535) % 65536, bitOf x.nakDue, v, n),
    s.putLk L { x with nakDue := false, owed := x.owed.put 0 v (x.owed.get 0 v - n), turn := if n = 0 then x.turn else (v + 1) % 8 })

/-- Sends a flit with an LSEQ as it is. -/
def State.sendFlit (s : State) (L lseq : Nat) (f : Flit) : State :=
  let ((lack, nak, v, n), s1) := s.linkFields L
  s1.emitOut (.flit L (withCrc (f.body lseq lack nak v n)) 0)

/-- Sends WIDTH or WIDTH_ACK: after UP a CTRL flit is numbered and kept like a DATA flit (R327, R330), here on VC0.
DEDUCED, log entry 56. -/
def State.sendWidth (s : State) (L type : Nat) : State :=
  let x := s.lk L
  let n := s.getF LNK_L_NEXT_LSEQ L 0
  let f : Flit := ⟨0, 2, s.getF LNK_L_PARTNER L 0, s.self, 0, 0, true, true, 0, s.ctrlBytes L L type x.hears 0⟩
  ((s.setF LNK_L_NEXT_LSEQ L 0 ((n + 1) % 65536)).putLk L { x with
    kept := x.kept ++ [(n, f)], credits := x.credits.put 0 0 (x.credits.get 0 0 - 1) }).sendFlit L n f

/-! ### Down, retrain and up (R317, R332, R336) -/

/-- The reason a link is held for, 0 for none; PORT_HOLD follows on a port that does not face a router (R345). -/
def State.holdReason (s : State) (L reason : Nat) : State :=
  let s1 := s.setF LNK_L_HOLD_REASON L 0 reason
  if s1.facesRouter (L / 16) then s1 else s1.setF LNK_P_PORT_HOLD (L / 16) 0 reason

/-- A held link returns to ALIGN (R317). -/
def State.unheld (s : State) (L : Nat) : State := ((s.linkState L 1).holdReason L 0).setF LNK_P_EXTRA (L / 16) 0 0

/-- Ends a link's traffic: every kept and queued flit returns to the forwarding stage (R336), and the LINK_DOWN record is
written. The link is DOWN before the flits find their routes. -/
def State.linkDrop (s : State) (L reason next : Nat) : State :=
  let x := s.lk L
  let flits := x.kept.map (·.2) ++ (List.range 8).flatMap fun v => x.queues.get [] v
  let s1 := s.linkRec RT_LINK_DOWN L [reason + 2 ^ 8 * s.getF LNK_L_PARTNER L 0 + 2 ^ 20 * s.getF LNK_L_PARTNER_PORT L 0]
  let s2 := (s1.sat LNK_LINK_DOWNS 0 0 1).linkState L next
  let s3 := (s2.setF LNK_L_TX_LANES L 0 0).setF LNK_L_RX_LANES L 0 0
  let s4 := s3.putLk L { Link.init with
    aligned := if next = 0 then [] else x.aligned, hello := x.hello, judged := x.judged, missing := x.missing }
  s4.forwardAll [] (flits.filter fun f => decide (f.ftype = 1))

/-- A link that is DOWN trains on when one of its lanes is enabled in both directions. -/
def State.linkTrain (s : State) (L : Nat) : State :=
  if s.links.handed ∧ s.getF LNK_L_LINK_STATE L 0 = 0 ∧ (s.lanesOf L).any s.laneOn = true then s.linkState L 1 else s

/-- A link goes DOWN: from UP or RETRAIN its traffic ends; then it trains anew where a lane allows. -/
def State.linkDown (s : State) (L reason : Nat) : State :=
  let st := s.getF LNK_L_LINK_STATE L 0
  let s1 := if st = 4 ∨ st = 5 then s.drainOut.linkDrop L reason 0
    else (s.linkState L 0).putLk L { Link.init with hello := (s.lk L).hello, missing := (s.lk L).missing }
  (s1.holdReason L 0).linkTrain L

/-- A link is held (R317): it carries no data, keeps its lanes lit and sends REJECT. -/
def State.linkHold (s : State) (L reason : Nat) (tell : Bool) : State :=
  let st := s.getF LNK_L_LINK_STATE L 0
  let s1 := if st = 4 ∨ st = 5 then s.drainOut.linkDrop L 2 6 else s.linkState L 6
  let s2 := s1.holdReason L reason
  if tell then s2.sendAll L 3 reason else s2

/-- Starts a replay from an LSEQ on (R332): REPLAYS and LINK_REPLAYS count it. DEDUCED, log entry 91. -/
def State.replayFrom (s : State) (L first : Nat) : State :=
  let x := s.lk L
  let todo := (x.kept.map (·.1)).dropWhile fun n => n ≠ first
  ((s.sat LNK_REPLAYS 0 0 1).sat LNK_L_LINK_REPLAYS L 0 1).putLk L { x with replay := some (first, todo), inRow := x.inRow + 1 }

/-- A replay that the link's retries begin (R333): RETRY_LIMIT of them without an LACK advancing take the link DOWN. -/
def State.retry (s : State) (L first : Nat) : State :=
  let s1 := s.replayFrom L first
  if s1.get LNK_RETRY_LIMIT ≤ (s1.lk L).inRow then (s1.linkDown L 1).holdReason L 7 else s1

/-- UP enters RETRAIN: no new flit starts, and WIDTH goes out. -/
def State.retrain (s : State) (L : Nat) : State :=
  if s.getF LNK_L_LINK_STATE L 0 ≠ 4 then s
  else ((s.drainOut.linkState L 5).sat LNK_L_RETRAINS L 0 1).sendWidth L 4

/-- A retrain ends (R317): the widths are fixed, and the replay starts from the first unacknowledged flit.
DEDUCED, log entry 137. -/
def State.retrained (s : State) (L heard : Nat) : State :=
  let x := s.lk L
  let tx := (s.lanesOf L).foldl (fun m l => if s.txOn l && bit heard (l % 16) then m ||| 2 ^ (l % 16) else m) 0
  if tx = 0 ∨ x.receives = 0 then s.linkDown L 2
  else
    let s1 := ((s.setF LNK_L_TX_LANES L 0 tx).setF LNK_L_RX_LANES L 0 x.receives).linkState L 4
    let s2 := s1.linkCredits L
    match (s2.lk L).kept with
    | e :: _ => s2.replayFrom L e.1
    | [] => s2

/-- Clears the cut mark of a link's partner (R357). -/
def State.unCut (s : State) (L : Nat) : State :=
  let m := s.getF LNK_L_PARTNER L 0
  let s1 := if m / 32 = s.get MOD_FLOOR then s.setBit TOP_CUT_SLOTS 0 0 (m % 32) false else s
  s1.setBit TOP_CUT_PORTS 0 0 (L / 16) false

/-- CONFIRM with both ACCEPTs ends in UP (R317, R325): widths as the ACCEPTs told them, numbers, credits, features and the
LINK_UP record. A lane aligned since this module's ACCEPT joins at a retrain. DEDUCED, log entry 90. -/
def State.linkUp (s : State) (L : Nat) : State :=
  let x := s.lk L
  let h := x.judged
  let tx := (s.lanesOf L).foldl (fun m l => if s.txOn l && bit x.heard (l % 16) then m ||| 2 ^ (l % 16) else m) 0
  let neg := s.get64 LNK_FEATURES_LO LNK_FEATURES_HI 0 &&& leAt h 16 8
  let rx := x.receives &&& x.told
  let s1 := ((s.drainOut.setF LNK_L_TX_LANES L 0 tx).setF LNK_L_RX_LANES L 0 rx).set64 LNK_L_NEG_FEATURES_LO
    LNK_L_NEG_FEATURES_HI L neg
  let s2 := (s1.setF LNK_L_GEN L 0 (min (s.get LNK_GEN_MAX) (leAt h 2 1) % 4)).set64 LNK_L_UP_CYCLES_LO LNK_L_UP_CYCLES_HI L
    s.callerCycles
  let s3 := s2.setF LNK_L_NEXT_LSEQ L 0 0
  let s4 := (s3.putLk L { x with kept := [], replay := none, inRow := 0, expect := 0, nakDue := false, nakked := false,
                                 owed := [], turn := 0, round := [], relays := [], reorder := none, greeted := true }).linkState L 4
  let s5 := ((s4.linkCredits L).setMissing L false).unCut L
  let s6 := s5.linkRec RT_LINK_UP L [s5.getF LNK_L_PARTNER L 0, s5.getF LNK_L_PARTNER_PORT L 0, tx + 2 ^ 16 * rx, neg]
  if rx = x.receives then s6 else s6.retrain L

/-! ### What a lane's change does to its link -/

/-- A lane has been enabled, parked, lost or retired (R317). -/
def State.laneChanged (s : State) (l : Nat) : State :=
  if s.loopback l then (if s.laneOn l then s else s.setBit LNK_P_LOOPBACK_OK (l / 16) 0 (l % 16) false)
  else match s.linkOf l with
  | none => s
  | some L =>
    let x := s.lk L
    let s1 := if s.rxOn l then s else s.putLk L { x with
      aligned := x.aligned.filter fun e => decide (e.1 ≠ l % 16), hello := x.hello.erase (l % 16) }
    let st := s1.getF LNK_L_LINK_STATE L 0
    if st = 0 then s1.linkTrain L
    else if !(s1.lanesOf L).any s1.laneOn then
      s1.linkDown L (if (s1.lanesOf L).all fun k => bit (s1.getF OPT_P_LOS (k / 16) 0) (k % 16) then 0 else 4)
    else if st = 4 ∧ ((bit (s1.getF LNK_L_TX_LANES L 0) (l % 16) ∧ !s1.txOn l) ∨ (bit (s1.getF LNK_L_RX_LANES L 0) (l % 16) ∧ !s1.rxOn l))
      then s1.retrain L
    else s1

/-- Assigns a logical port to a physical one (R320); SWAPPED and the LOGICAL words follow. -/
def State.setLogical (s : State) (p q : Nat) : State :=
  let s1 := (s.setF LNK_P_LOGICAL p 0 q).setF LNK_P_SWAPPED p 0 (bitOf (decide (q ≠ p)))
  if p < 8 then s1.set LNK_LOGICAL_0_7 (setBits (s1.get LNK_LOGICAL_0_7) (4 * p + 3) (4 * p) q)
  else s1.set LNK_LOGICAL_8_11 (setBits (s1.get LNK_LOGICAL_8_11) (4 * (p - 8) + 3) (4 * (p - 8)) q)

/-- Every link of some ports goes DOWN because their ports go dark (R309, R317). -/
def State.linksDark (s : State) (ports : List Nat) : State :=
  ports.foldl (fun s p => (s.portLinks p).foldl (fun s L => if s.getF LNK_L_LINK_STATE L 0 = 0 then s else s.linkDown L 3) s) s

/-- The links of every port, and the logical port of each port that is not assigned by its partner (R320).
DEDUCED, log entry 138. -/
def State.linksStart (s : State) : State :=
  let s0 := { s with links := { s.links with handed := true } }
  let s1 := (List.range 12).foldl (fun s p =>
    if !s.portOn p then s
    else
      let s1 := s.setF LNK_P_LINKS p 0 (s.portLinks p).length
      if s1.get LNK_PORT_AGNOSTIC = 1 ∧ !s1.facesRouter p then s1 else s1.setLogical p p) s0
  (List.range 192).foldl (fun s l => if s.linkOf l = some l then s.linkTrain l else s) s1

end Sys2Proof.Machine
end

