-- ==== Sys2Proof/Machine/Optics.lean ====
section
/-! DEFINITION. The Spelith optical engines (R286 to R310): combs, lane locking, heaters and their matrices, equalisers, loss
of light, recalibration, and the dark state of the ports. -/

namespace Sys2Proof.Machine

/-! ### Lanes -/

/-- The state field of a direction. -/
def laneField (rx : Bool) : Fld := if rx then OPT_LN_RX_STATE else OPT_LN_TX_STATE

/-- The state of a lane in a direction (R297). -/
def State.laneSt (s : State) (l : Nat) (rx : Bool) : Nat := s.getF (laneField rx) (l / 16) (l % 16)

/-- The bank of a lane's ring: 3 × port + 0 for the modulators, + 1 for the drop filters. -/
def bankOf (l : Nat) (rx : Bool) : Nat := 3 * (l / 16) + bitOf rx

/-- The line a lane uses in a direction (R290). -/
def State.lineOf (s : State) (l : Nat) (rx : Bool) : Nat :=
  let t := s.getF OPT_LN_TARGET_LINE (l / 16) (l % 16)
  if rx && s.facesRouter (l / 16) then (32 - t) % 32 else t

/-- FAILS of a lane in a direction. -/
def State.fails (s : State) (l : Nat) (rx : Bool) : Nat :=
  s.getF (if rx then OPT_LN_RX_FAILS else OPT_LN_TX_FAILS) (l / 16) (l % 16)

/-- Sets FAILS. -/
def State.setFails (s : State) (l : Nat) (rx : Bool) (v : Nat) : State :=
  s.setF (if rx then OPT_LN_RX_FAILS else OPT_LN_TX_FAILS) (l / 16) (l % 16) v

/-- The slots of a port that satisfy a test, as a mask. -/
def slotMask (p : Nat → Bool) : Nat := (List.range 16).foldl (fun m k => if p k then m ||| 2 ^ k else m) 0

/-- The port's summary fields follow its lanes. -/
def State.portRefresh (s : State) (p : Nat) : State :=
  let tx := slotMask fun k => s.txOn (16 * p + k)
  let rx := slotMask fun k => s.rxOn (16 * p + k)
  let data := if s.shortPort p then 0x7FFF else 0xFFFF
  let s1 := (s.setF OPT_P_TX_ENABLED p 0 tx).setF OPT_P_RX_ENABLED p 0 rx
  let s2 := (s1.setF OPT_P_TX_LANES p 0 (popCount 16 (tx &&& data))).setF OPT_P_RX_LANES p 0 (popCount 16 (rx &&& data))
  let s3 := s2.setF OPT_P_RETIRED p 0 (slotMask fun k => decide (s.laneSt (16 * p + k) false = 7 ∨ s.laneSt (16 * p + k) true = 7))
  s3.setF OPT_P_CLOCK_OK p 0 (bitOf (s.shortPort p && bit tx 15 && bit rx 15))

/-- A lane takes a state; the port's fields follow, a lane that settles no more leaves the list, and a transmit lane that a
drawing retuned is accounted for once it is enabled or retired (R352). -/
def State.putLane (s : State) (l : Nat) (rx : Bool) (st : Nat) : State :=
  let s1 := s.setF (laneField rx) (l / 16) (l % 16) st
  let s2 := { s1 with opt := { s1.opt with settling := s1.opt.settling.filter fun k => decide (k ≠ 2 * l + bitOf rx) } }
  let s3 := if !rx && decide ((st = 5 ∨ st = 7) ∧ l ∈ s2.links.retuned) then
      let left := s2.links.retuned.filter fun k => decide (k ≠ l)
      ({ s2 with links := { s2.links with retuned := left } }).set TOP_RETUNES_LEFT (min 255 left.length)
    else s2
  s3.portRefresh (l / 16)

/-- The hold of a short-mode port (R307): its data lanes are held while a lane of slot 15 is not enabled, and locked anew
once both are. -/
def State.shortHold (s : State) (p : Nat) : State :=
  if !s.shortPort p || !s.portOn p then s
  else
    let c := 16 * p + 15
    let lanes := (List.range 15).flatMap fun k => [(16 * p + k, false), (16 * p + k, true)]
    let put (s : State) (e : Nat × Bool) (st : Nat) : State := (s.putLane e.1 e.2 st).laneChanged e.1
    if s.txOn c && s.rxOn c then
      if s.getF OPT_P_HELD p 0 = 0 then s
      else lanes.foldl (fun s e => if s.laneSt e.1 e.2 = 8 then put s e 1 else s) (s.setF OPT_P_HELD p 0 0)
    else
      let s1 := lanes.foldl (fun s e => if 1 ≤ s.laneSt e.1 e.2 ∧ s.laneSt e.1 e.2 ≤ 6 then put s e 8 else s) s
      if s1.getF OPT_P_HELD p 0 = 1 then s1
      else (s1.setF OPT_P_HELD p 0 1).emit RT_OPT_PORT_HELD .control 6 (p / 3) 0 [p, bitOf (s.txOn c) + 2 * bitOf (s.rxOn c)]

/-- A lane changes its state, with what follows for its port and its link. -/
def State.setLane (s : State) (l : Nat) (rx : Bool) (st : Nat) : State :=
  ((s.putLane l rx st).laneChanged l).shortHold (l / 16)

/-- A ring of a bank is in SWEEP or IDENTIFY (R297). -/
def State.bankBusy (s : State) (l : Nat) (rx : Bool) : Bool :=
  (List.range 16).any fun k =>
    let st := s.laneSt (16 * (l / 16) + k) rx
    decide (16 * (l / 16) + k ≠ l ∧ (st = 2 ∨ st = 3))

/-- A parked lane sweeps at once, or waits parked while another ring of its bank sweeps (DEDUCED, log entry 58). -/
def State.sweepAgain (s : State) (l : Nat) (rx : Bool) : State := s.setLane l rx (if s.bankBusy l rx then 1 else 2)

/-- The equaliser of a receive lane takes a code; the power at the photodiode follows by 0.25 dB a step, and is open where
the wavelength is, or was, blocked (R292). -/
def State.setEq (s : State) (p k code : Nat) : State :=
  let old := s.getF OPT_LN_EQ_CODE p k
  let s1 := s.setF OPT_LN_EQ_CODE p k code
  if old = code then s1
  else if old ≤ 48 ∧ code ≤ 48 then
    s1.setF OPT_LN_RX_POWER p k (unsigned 16 (signed 16 (s.getF OPT_LN_RX_POWER p k) + 25 * ((old : Int) - (code : Int))))
  else
    let (v, s2) := s1.takeFree
    s2.setF OPT_LN_RX_POWER p k (v.toNat % 65536)

/-- The power of a receive lane ahead of its equaliser, in 0.01 dBm. -/
def State.rawPower (s : State) (p k : Nat) : Int :=
  signed 16 (s.getF OPT_LN_RX_POWER p k) + 25 * (s.getF OPT_LN_EQ_CODE p k : Int)

/-- The codes that bring a lane to within 0.5 dB of the weakest and not below it, or 12 dB where none does. -/
def eqCodes (diff : Int) : List Nat :=
  match (List.range 49).filter fun (c : Nat) => decide (25 * (c : Int) ≤ diff ∧ diff ≤ 25 * (c : Int) + 50) with
  | [] => [48]
  | cs => cs

/-- Automatic equalisation of a port after a receive lock (R292): which of the codes within the bound is taken is open. -/
def State.equalise (s : State) (p : Nat) : State :=
  let ks := (List.range 16).filter fun k => s.rxOn (16 * p + k)
  match ks.map fun k => s.rawPower p k with
  | [] => s
  | x :: xs =>
    let least := xs.foldl min x
    ks.foldl (fun s k =>
      let cs := eqCodes (s.rawPower p k - least)
      let (v, s1) := s.takeFree
      s1.setEq p k (cs.getD (v.toNat % cs.length) 0)) s

/-- A lane retires (R297): the record, the count, and the equaliser of a receive lane blocks its wavelength. -/
def State.laneRetire (s : State) (l : Nat) (rx : Bool) : State :=
  let s1 := (s.setLane l rx 7).sat OPT_LANE_RETIREMENTS 0 0 1
  let s2 := s1.emit RT_OPT_LANE_RETIRE .control 6 (l / 48) 0 [l, bitOf rx]
  if rx ∧ s2.getF OPT_P_EQ_AUTO (l / 16) 0 = 1 then s2.setEq (l / 16) (l % 16) 63 else s2

/-- An attempt fails: FAILS rises, and the lane sweeps from the next start point or retires at 3. -/
def State.lockFailed (s : State) (l : Nat) (rx : Bool) : State :=
  let n := s.fails l rx + 1
  let s1 := s.setFails l rx n
  if 3 ≤ n then s1.laneRetire l rx else s1.sweepAgain l rx

/-- A pilot fails (R287, R301): MISLOCKS, and the OPT_MISLOCK record with FAILS after the failure. -/
def State.misLock (s : State) (l : Nat) (rx : Bool) (heard : Option (Fin 32)) : State :=
  let h := match heard with | some n => n.val | none => 0xFF
  ((s.sat OPT_MISLOCKS 0 0 1).emit RT_OPT_MISLOCK .control 6 (l / 48) 0
    [l, bitOf rx, s.lineOf l rx, h, s.fails l rx + 1]).lockFailed l rx

/-! ### Combs (R288) -/

/-- COMB_WARMED (R288). -/
def execCombWarmed (engine : Fin 4) (s : State) : Res :=
  ok (if s.getF OPT_E_COMB_STATE engine.val 0 = 1 then s.setF OPT_E_COMB_STATE engine.val 0 2 else s)

/-- The words of an engine's nine matrices (R294, R310). -/
def engineWords (e : Nat) : List Nat := (List.range 1152).map fun k => 0xD8000 + 0x200 * 9 * e + 4 * k

/-- COMB_SETTLED (R288, R295): the comb is READY, the measured matrices are kept, and the lanes of enabled ports leave
DISABLED. -/
def execCombSettled (engine : Fin 4) (measured : List Word) (s : State) : Res :=
  let e := engine.val
  ok (if s.getF OPT_E_COMB_STATE e 0 ≠ 2 then s
    else
      let s1 := ((engineWords e).zip measured).foldl (fun s w => s.putWord w.1 w.2.toNat) s
      let s2 := { s1 with opt := { s1.opt with hot := setBits s1.opt.hot e e 1 } }
      s2.combReady e)

/-- Every modulator of an engine is parked (R309), and its links go down; the ports in short mode are held (R307).
DEDUCED, log entry 84. -/
def State.engineDark (s : State) (e : Nat) : State :=
  let ports := (List.range 3).map (· + 3 * e)
  let lanes := (List.range 48).map (· + 48 * e)
  let s1 := lanes.foldl (fun s l =>
    let st := s.laneSt l false
    if 1 ≤ st ∧ st ≤ 6 then s.putLane l false 1 else s) s
  ports.foldl (fun t p => if (List.range 16).all fun k => decide (s.laneSt (16 * p + k) false = 0) then t else t.shortHold p)
    (s1.linksDark ports)

/-- A comb fails (R288): the ports stay dark, the record is written, and the engine is out of service from the next warm
reset on. -/
def State.combFail (s : State) (e : Nat) : State :=
  let s1 := ((s.setF OPT_E_COMB_STATE e 0 4).setBit OPT_COMB_READY 0 0 e false).setBit OPT_ENGINE_FAILED 0 0 e true
  let s2 := { s1 with
    units := { s1.units with engineBad := setBits s1.units.engineBad e e 1 }
    opt := { s1.opt with hot := setBits s1.opt.hot e e 0 } }
  (s2.emit RT_OPT_ENGINE_FAIL .control 6 e 0 [4, s2.getF OPT_E_LINE_OK e 0]).engineDark e

/-- PILOT_CHECK (R288, R297): LINE_OK; a transmit lane whose line has gone parks; without any line the comb has failed. -/
def execPilotCheck (engine : Fin 4) (lines : BitVec 32) (s : State) : Res :=
  let e := engine.val
  ok (if s.getF OPT_E_COMB_STATE e 0 ≠ 3 then s
    else
      let s1 := s.setF OPT_E_LINE_OK e 0 lines.toNat
      if lines.toNat = 0 then s1.combFail e
      else ((List.range 48).map (· + 48 * e)).foldl (fun s l =>
        let st := s.laneSt l false
        if 2 ≤ st ∧ st ≤ 6 ∧ bit lines.toNat (s.lineOf l false) = false then s.setLane l false 1 else s) s1)

/-! ### Locking (R297) -/

/-- A lane's engine may lock lanes: its comb is READY and no fence keeps its ports dark (R309). -/
def State.engineLit (s : State) (l : Nat) : Bool :=
  decide (s.getF OPT_E_COMB_STATE (l / 48) 0 = 3) && !bit s.opt.dark (l / 48)

/-- SWEEP_START (R297): the lane's line, or its light, is present, and no other ring of its bank sweeps. -/
def execSweepStart (lane : Fin 192) (rx : Bool) (s : State) : Res :=
  let l := lane.val
  let lit := if rx then !bit (s.getF OPT_P_LOS (l / 16) 0) (l % 16) else bit (s.getF OPT_E_LINE_OK (l / 48) 0) (s.lineOf l false)
  ok (if s.laneSt l rx = 1 ∧ lit = true ∧ s.engineLit l = true ∧ s.bankBusy l rx = false then s.setLane l rx 2 else s)

/-- SWEEP_DONE (R297). -/
def execSweepDone (lane : Fin 192) (rx : Bool) (position : Option (BitVec 16)) (s : State) : Res :=
  let l := lane.val
  ok (if s.laneSt l rx ≠ 2 then s
    else match position with
    | some u => ({ s with opt := { s.opt with demand := s.opt.demand.put 0 (16 * bankOf l rx + l % 16) u.toNat } }).setLane l rx 3
    | none => s.lockFailed l rx)

/-- The line last identified: set whenever exactly one tone is heard (DEDUCED, log entry 59). -/
def State.identified (s : State) (l : Nat) (rx : Bool) (heard : Option (Fin 32)) : State := match heard with
  | some n => s.setF (if rx then OPT_LN_RX_LINE else OPT_LN_TX_LINE) (l / 16) (l % 16) n.val
  | none => s

/-- The pilot passes: the one tone heard is that of the lane's line (R287). -/
def State.pilotOk (s : State) (l : Nat) (rx : Bool) (heard : Option (Fin 32)) : Bool :=
  match heard with
  | some n => decide (n.val = s.lineOf l rx)
  | none => false

/-- IDENTIFY (R287, R297). -/
def execIdentify (lane : Fin 192) (rx : Bool) (heard : Option (Fin 32)) (s : State) : Res :=
  let l := lane.val
  ok (if s.laneSt l rx ≠ 3 then s
    else if s.pilotOk l rx heard then (s.identified l rx heard).setLane l rx 4
    else (s.identified l rx heard).misLock l rx heard)

/-- FINE_LOCK (R297): the lock is within bounds, and settling begins. -/
def execFineLock (lane : Fin 192) (rx : Bool) (s : State) : Res :=
  let k := 2 * lane.val + bitOf rx
  ok (if s.laneSt lane.val rx = 4 ∧ k ∉ s.opt.settling then { s with opt := { s.opt with settling := k :: s.opt.settling } } else s)

/-- The words M[i][0..15] of a bank's active matrix, as signed values (R294). -/
def State.matrixRow (s : State) (bank i : Nat) : List Int :=
  (List.range 16).map fun j =>
    let w := s.word (0xD8000 + 0x200 * bank + 4 * (8 * i + j / 2))
    signed 16 (if j % 2 = 0 then w % 65536 else w / 65536)

/-- The demand vector of a bank. -/
def State.demands (s : State) (bank : Nat) : List Int := (List.range 16).map fun j => (s.opt.demand.get 0 (16 * bank + j) : Int)

/-- h[i] × 8,192 before rounding (R293). -/
def State.driveRaw (s : State) (bank i : Nat) : Int :=
  ((s.matrixRow bank i).zip (s.demands bank)).foldl (fun a e => a + e.1 * e.2) 0

/-- h[i] rounded to the nearest code (R293); a tie is resolved by an open bit. DESIGN CHOICE, log entry 86. -/
def State.driveCode (s : State) (bank i : Nat) : Int :=
  let r := s.driveRaw bank i
  let m := r % 8192
  if (if m = 4096 then Config.tieUp r else decide (4096 < m)) then r / 8192 + 1 else r / 8192

/-- A heater drive (R293): the nearest code, clamped. -/
def State.drive (s : State) (bank i : Nat) : Nat := (max 0 (min 65535 (s.driveCode bank i))).toNat

/-- A heater drive is clamped. -/
def State.driveClamped (s : State) (bank i : Nat) : Bool := decide (s.driveCode bank i < 0 ∨ 65535 < s.driveCode bank i)

/-- The heaters of an engine, in mW, and what the engine draws with them: 14.15 W of its own and its ports (R305, R306).
DEDUCED, log entry 87. -/
def State.enginePower (s : State) (e : Nat) : State :=
  let banks := (List.range 9).map (· + 9 * e)
  let uw := banks.foldl (fun n b => n + ((List.range 16).map fun i => s.drive b i).foldl (· + ·) 0) 0
  let ports := (List.range 3).foldl (fun n k =>
    let p := 3 * e + k
    n + (if !s.portOn p then 0 else if s.shortPort p then 3020 else 7880)) 0
  (s.setF OPT_E_HEATER_MW e 0 (min 65535 (uw / 1000))).setF OPT_E_ENGINE_MW e 0 (min 65535 (14150 + uw / 1000 + ports))

/-- SETTLE (R292, R297): the lane is ENABLED, FAILS is 0 and the heater code is stored; a receive lock sets the equalisers. -/
def execSettle (lane : Fin 192) (rx : Bool) (power : BitVec 16) (s : State) : Res :=
  let l := lane.val
  let p := l / 16
  let k := l % 16
  ok (if s.laneSt l rx ≠ 4 ∨ 2 * l + bitOf rx ∉ s.opt.settling then s
    else
      let s1 := (s.setFails l rx 0).setF (if rx then OPT_LN_RX_HEATER else OPT_LN_TX_HEATER) p k (s.drive (bankOf l rx) k)
      let s2 := if rx then s1.setF OPT_LN_RX_POWER p k power.toNat else s1
      let s3 := s2.setLane l rx 5
      if rx ∧ s3.getF OPT_P_EQ_AUTO p 0 = 1 then s3.equalise p else s3)

/-! ### Recalibration and the tracking loop (R300, R304) -/

/-- RECAL_START (R304): one lane of a bank at a time. -/
def execRecalStart (lane : Fin 192) (rx : Bool) (s : State) : Res :=
  let l := lane.val
  ok (if s.laneSt l rx = 5 ∧ (List.range 16).all (fun k => decide (s.laneSt (16 * (l / 16) + k) rx ≠ 6)) = true then s.setLane l rx 6
    else s)

/-- RECAL_DONE (R297, R301, R304). -/
def execRecalDone (lane : Fin 192) (rx : Bool) (heard : Option (Fin 32)) (s : State) : Res :=
  let l := lane.val
  ok (if s.laneSt l rx ≠ 6 then s
    else if s.pilotOk l rx heard then (s.identified l rx heard).setLane l rx 5
    else ((s.identified l rx heard).setLane l rx 1).misLock l rx heard)

/-- A commit that waits is made: the bank's shadow becomes its active matrix (R296). -/
def State.matrixApply (s : State) (bank : Nat) : State :=
  let p := bank / 3
  let b := bank % 3
  let lo := 0xD8000 + 0x200 * bank
  if !bit (s.getF OPT_P_MATRIX_COMMIT p 0) b then s
  else
    let mine := s.opt.shadow.filter fun e => decide (lo ≤ e.1 ∧ e.1 < lo + 0x200)
    let s1 := mine.foldl (fun s e => s.putWord e.1 e.2.toNat) s
    ({ s1 with opt := { s1.opt with shadow := s1.opt.shadow.keep fun a => !decide (lo ≤ a ∧ a < lo + 0x200) } }).setBit
      OPT_P_MATRIX_COMMIT p 0 b false

/-- A lane has lost its lock (R300): parked and swept anew from start point 1; no failure is counted. -/
def State.lockLost (s : State) (l : Nat) (rx : Bool) (err : Int) : State :=
  let st := s.laneSt l rx
  if st ≠ 5 ∧ st ≠ 6 then s
  else
    let s1 := (s.sat OPT_LOCK_LOST 0 0 1).emit RT_OPT_LOCK_LOST .control 6 (l / 48) 0 [l, bitOf rx, unsigned 64 err]
    (s1.setLane l rx 1).sweepAgain l rx

/-- LOOP_UPDATE (R293, R296, R300): a waiting commit first, then the new demands and drives, and the lanes that have lost
their lock. DESIGN CHOICE, log entry 89. -/
def execLoopUpdate (bank : Fin 36) (rings : List RingLoop) (s : State) : Res :=
  let b := bank.val
  let p := b / 3
  ok (if s.getF OPT_E_COMB_STATE (p / 3) 0 ≠ 3 then s
    else
      let s1 := s.matrixApply b
      let s2 := { s1 with opt := { s1.opt with
        demand := rings.foldl (fun m (r : RingLoop) => m.put 0 (16 * b + r.slot.val) r.demand.toNat) s1.opt.demand } }
      let s3 := if (List.range 16).any fun i => s2.driveClamped b i then s2.setBit OPT_P_HEATER_CLAMP p 0 (b % 3) true else s2
      let s4 := s3.enginePower (p / 3)
      if b % 3 = 2 then s4
      else rings.foldl (fun s (r : RingLoop) =>
        let err := r.err.toInt
        if r.jumped || decide (2000 < err ∨ err < -2000) then s.lockLost (16 * p + r.slot.val) (decide (b % 3 = 1)) err else s) s4)

/-! ### Register writes of the block -/

/-- A write of 1 to a MATRIX_COMMIT bit. -/
def State.matrixCommit (s : State) (port bank : Nat) : State := s.setBit OPT_P_MATRIX_COMMIT port 0 bank true

/-- MATRIX_COMMIT (R296). -/
def execMatrixCommit (p : Path) (port : Fin 12) (bank : Fin 3) (s : State) : Res :=
  ok (s.via p (OPT_P_MATRIX_COMMIT.addr port.val 0) fun s => s.matrixCommit port.val bank.val)

/-- A slot's lanes are parked for a new line (R298); retirement ends, and no failure is counted. -/
def State.reline (s : State) (l : Nat) (rx : Bool) : State :=
  let st := s.laneSt l rx
  if 1 ≤ st ∧ st ≤ 7 then (s.setFails l rx 0).setLane l rx 1 else s

/-- The effect of a write to TARGET_LINE (R298): nothing for the current value or a line another slot of the port has.
DEDUCED, log entry 88. -/
def State.targetLine (s : State) (p k line : Nat) : State :=
  let l := 16 * p + k
  if s.getF OPT_LN_TARGET_LINE p k = line ∨ ((List.range 16).any fun j => decide (j ≠ k ∧ s.getF OPT_LN_TARGET_LINE p j = line)) = true
    then s
  else
    let s1 := (s.drainOut.reline l false).reline l true
    let s2 := if s1.facesRouter p then (s1.setMissing l false).putLk l Link.init else s1
    let s3 := s2.setF OPT_LN_TARGET_LINE p k line
    (s3.setF LNK_P_LINKS p 0 (s3.portLinks p).length).setBit LNK_P_LOOPBACK_OK p 0 k false

/-- The effect of writing RETRY (R297). -/
def State.retryLane (s : State) (p k : Nat) : State :=
  let one (s : State) (rx : Bool) : State :=
    let l := 16 * p + k
    if s.laneSt l rx = 7 then (s.setFails l rx 0).setLane l rx 1 else s
  one (one s false) true

/-- The effect of a write to EQ_CODE (R292): 49 to 62 store 48. -/
def State.eqWrite (s : State) (p k code : Nat) : State := s.setEq p k (if 49 ≤ code ∧ code ≤ 62 then 48 else code)

/-- A write of a lane's word (R310): its line, its equaliser code, and RETRY. -/
def State.laneWordWrite (s : State) (p k v : Nat) : State :=
  let s1 := (s.targetLine p k (bits v 12 8)).eqWrite p k (bits v 30 25)
  if bit v 31 then s1.retryLane p k else s1

/-- TARGET_LINE_WRITE (R298). -/
def execTargetLineWrite (p : Path) (port : Fin 12) (slot : Fin 16) (line : Fin 32) (s : State) : Res :=
  ok (s.via p (OPT_LN_TARGET_LINE.addr port.val slot.val) fun s => s.targetLine port.val slot.val line.val)

/-- LANE_RETRY (R297). -/
def execLaneRetry (p : Path) (port : Fin 12) (slot : Fin 16) (s : State) : Res :=
  ok (s.via p (OPT_LN_RETRY.addr port.val slot.val) fun s => s.retryLane port.val slot.val)

/-- EQ_CODE_WRITE (R292). -/
def execEqCodeWrite (p : Path) (port : Fin 12) (slot : Fin 16) (code : Fin 64) (s : State) : Res :=
  ok (s.via p (OPT_LN_EQ_CODE.addr port.val slot.val) fun s => s.eqWrite port.val slot.val code.val)

/-- A write of a word of a matrix area goes to the shadow (R296). -/
def State.matrixWrite (s : State) (a v : Nat) : State :=
  { s with opt := { s.opt with shadow := s.opt.shadow.insert a (BitVec.ofNat 32 v) } }

/-! ### Light (R308) -/

/-- LOSS_OF_LIGHT (R308): LOS is set, the lane parks, and the link learns of it. No failure is counted.
DEDUCED, log entry 85. -/
def execLossOfLight (lane : Fin 192) (power : BitVec 16) (s : State) : Res :=
  let l := lane.val
  let p := l / 16
  let s1 := (s.setBit OPT_P_LOS p 0 (l % 16) true).setF OPT_LN_RX_POWER p (l % 16) power.toNat
  let s2 := s1.setF OPT_P_PORT_LOS p 0 (bitOf (decide (s1.getF OPT_P_LOS p 0 = 0xFFFF)))
  let st := s2.laneSt l true
  ok (if !s.dieOn (l / 48) then s else if 2 ≤ st ∧ st ≤ 6 then s2.setLane l true 1 else s2)

/-- LIGHT_RETURN (R308): the lane may sweep again. -/
def execLightReturn (lane : Fin 192) (power : BitVec 16) (s : State) : Res :=
  let l := lane.val
  let p := l / 16
  ok (if !s.dieOn (l / 48) then s
    else ((s.setBit OPT_P_LOS p 0 (l % 16) false).setF OPT_P_PORT_LOS p 0 0).setF OPT_LN_RX_POWER p (l % 16) power.toNat)

/-- A reading of an engine's temperature (R303, R519): readings come 1 ms apart. -/
def State.engineTemp (s : State) (e v : Nat) : State :=
  let d := (signed 16 v - signed 16 (s.getF OPT_E_ENGINE_TEMP e 0)).natAbs
  let s1 := s.setF OPT_E_ENGINE_TEMP e 0 v
  if !bit s.opt.sampled e then { s1 with opt := { s1.opt with sampled := setBits s1.opt.sampled e e 1 } }
  else
    let s2 := s1.setF OPT_E_TEMP_RATE_MAX e 0 (max (s1.getF OPT_E_TEMP_RATE_MAX e 0) (min 65535 d))
    if 100 < d then s2.sat OPT_TRACK_RATE_EXCEEDED 0 0 1 else s2

/-! ### Dark ports (R309) -/

/-- Every optical port dark (R309). -/
def State.portsDark (s : State) : State := (List.range 4).foldl State.engineDark s

/-- A fence of an engine's reset domain keeps its ports dark. -/
def State.engineFence (s : State) (e : Nat) : State :=
  ({ s with opt := { s.opt with dark := setBits s.opt.dark e e 1 } }).engineDark e

/-- A lane whose engine goes off; a retired one stays retired (R302). -/
def State.offLane (s : State) (l : Nat) (rx : Bool) : State := if s.laneSt l rx = 7 then s else s.putLane l rx 0

/-- Every engine is off (R309): Standby and Dormant. -/
def State.opticsOff (s : State) : State :=
  let s1 := s.portsDark
  let s2 := (List.range 4).foldl (fun s e => (s.setF OPT_E_COMB_STATE e 0 0).setF OPT_E_LINE_OK e 0 0) s1
  let s3 := (List.range 192).foldl (fun s l => (s.offLane l false).offLane l true) s2
  { s3.set OPT_COMB_READY 0 with opt := Opt.init }

/-- Start hands every enabled port to link bring-up (R60): an engine whose comb is not READY by now has failed (R288). -/
def State.opticsHandoff (s : State) : State :=
  let late := (List.range 4).filter fun e => s.dieOn e && decide (s.getF OPT_E_COMB_STATE e 0 = 1 ∨ s.getF OPT_E_COMB_STATE e 0 = 2)
  (late.foldl State.combFail s).linksStart

end Sys2Proof.Machine
end

