-- ==== Sys2Proof/Machine/Links.lean ====
section
/-! DEFINITION. The rows of link bring-up and the link protocol (R311 to R343, R447): training, negotiation, retrains, flits
with their retry and credits, and the misstep hooks of the transmitter. -/

namespace Sys2Proof.Machine

/-! ### Training and negotiation (R317 to R325) -/

/-- LANE_ALIGNED (R317). -/
def execLaneAligned (lane : Fin 192) (slot : Fin 16) (s : State) : Res :=
  let l := lane.val
  ok (match s.linkOf l with
    | none => s
    | some L =>
      let x := s.lk L
      let st := s.getF LNK_L_LINK_STATE L 0
      if !s.laneOn l || decide (st = 0) || x.aligned.any (fun e => decide (e.1 = l % 16)) then s
      else
        let s1 := s.putLk L { x with aligned := x.aligned ++ [(l % 16, slot.val)] }
        if st = 1 then s1.linkState L 2 else s1.retrain L)

/-- HELLO_SEND (R317): HELLO in HELLO and CONFIRM, REJECT while held; a loopback lane sends HELLO to itself (R345). -/
def execHelloSend (lane : Fin 192) (s : State) : Res :=
  let l := lane.val
  ok (if s.loopback l then (if s.laneOn l ∧ s.links.handed = true then s.sendCtrl l l 1 0 else s)
    else match s.linkOf l with
    | none => s
    | some L =>
      let st := s.getF LNK_L_LINK_STATE L 0
      if !(s.lk L).aligned.any fun e => decide (e.1 = l % 16) then s
      else if st = 2 ∨ st = 3 then s.sendCtrl L l 1 0
      else if st = 6 then s.sendCtrl L l 3 (s.getF LNK_L_HOLD_REASON L 0)
      else s)

/-- The logical port that a partner names on a port-agnostic module (R320): its own, or the one free port that expects the
partner; otherwise the reason the port is held for. DEDUCED, log entry 92. -/
def State.logicalFor (s : State) (p m : Nat) : Nat × Nat :=
  let free (q : Nat) : Bool := (List.range 12).all fun k => decide (k = p ∨ s.getF LNK_P_LOGICAL k 0 ≠ q)
  match (List.range 12).filter fun q => !s.facesRouter q && decide (s.getF LNK_P_EXPECTED q 0 = m) with
  | [] => (1, 0xF)
  | qs => match (if p ∈ qs then [p] else []) ++ qs |>.find? free with
    | some q => (0, q)
    | none => (6, 0xF)

/-- The identity check of a HELLO (R320, R321): the reason for holding the link, 0 for none, with its record. -/
def State.identity (s : State) (L m mp : Nat) : Nat × State :=
  let p := L / 16
  let wrong (s : State) : Nat × State := (1, s.linkRec RT_LINK_WRONG_PARTNER L [s.expectedOf L, m, mp])
  if s.facesRouter p then if m = s.expectedOf L then (0, s) else wrong s
  else if s.getF LNK_P_EXPECTED p 0 = 0xFFFF then (2, (s.setF LNK_P_EXTRA p 0 1).linkRec RT_LINK_EXTRA L [m, mp])
  else if s.get LNK_PORT_AGNOSTIC = 0 then if m = s.getF LNK_P_EXPECTED p 0 then (0, s) else wrong s
  else match s.logicalFor p m with
    | (0, q) =>
      let s1 := s.setLogical p q
      (0, if q = p then s1 else s1.linkRec RT_LINK_SWAPPED L [p, q, m])
    | (1, _) => wrong s
    | (r, _) => (r, s)

/-- The checks of R319 to R324 on a HELLO, in the order of the rules (DEDUCED, log entry 60). -/
def State.judge (s : State) (L : Nat) (h : List Byte) : Nat × State :=
  let p := L / 16
  let m := leAt h 4 2 % 4096
  let theirs := leAt h 3 1 % 2
  let own := bitOf (s.shortPort p)
  let (r, s1) := s.identity L m (leAt h 6 1 % 16)
  if r ≠ 0 then (r, s1)
  else if theirs ≠ own then (3, s1.linkRec RT_LINK_MODE_MISMATCH L [m, own + 2 * theirs])
  else if leAt h 11 1 % 8 ≠ s1.get TOP_MODE + 2 * s1.get TOP_NETWORKS ∨ leAt h 14 1 ≠ s1.get TOP_GRID_X
      ∨ leAt h 15 1 ≠ s1.get TOP_GRID_Y then (5, s1)
  else if min (s1.get LNK_GEN_MAX) (leAt h 2 1) < max (s1.get LNK_GEN_MIN) (leAt h 1 1) then
    (4, s1.linkRec RT_LINK_VERSION L [m, leAt h 1 1, leAt h 2 1])
  else (0, s1)

/-- A HELLO heard on a lane of a link (R317, R319). -/
def State.hearHello (s : State) (L l : Nat) (h : List Byte) : State :=
  let p := L / 16
  let m := leAt h 4 2 % 4096
  let x := s.lk L
  let same : Bool := decide (x.hello.find (l % 16) = some h)
  let y : Link := { x with hello := x.hello.insert (l % 16) h, greeted := x.greeted || decide (m = s.expectedOf L),
                           heard := if x.accepted then x.heard else leAt h 24 2 }
  let s0 := ((s.setF LNK_P_SEEN_MODULE p 0 m).setF LNK_P_SEEN_PORT p 0 (leAt h 6 1 % 16)).setF LNK_P_SEEN_VALID p 0 1
  let s1 : State := { s0.putLk L y with fab := { s0.fab with epochs := s0.fab.epochs.put 0 m (leAt h 10 1) } }
  let st := s1.getF LNK_L_LINK_STATE L 0
  if st = 6 ∧ h ≠ x.judged then (s1.putLk L { y with aligned := [], accepted := false }).unheld L
  else if decide (st = 2) && same && y.aligned.any (fun e => decide (e.1 = l % 16)) then
    let s2 := ((s1.putLk L { y with judged := h }).setF LNK_L_PARTNER L 0 m).setF LNK_L_PARTNER_PORT L 0 (leAt h 6 1 % 16)
    match s2.judge L h with
    | (0, s3) =>
      let s4 := ((s3.linkState L 3).putLk L { s3.lk L with told := (s3.lk L).receives }).sendAll L 2 0
      if y.accepted then s4.linkUp L else s4
    | (r, s3) => s3.linkHold L r true
  else s1

/-- HELLO (R319). On a loopback lane it is this module's own (R345). -/
def execHello (lane : Fin 192) (payload : List Byte) (s : State) : Res :=
  let l := lane.val
  let h := padTo 40 0 payload
  ok (if !s.links.handed || !s.rxOn l then s
    else if s.loopback l then
      if leAt h 4 2 % 4096 = s.self then s.setBit LNK_P_LOOPBACK_OK (l / 16) 0 (l % 16) true else s
    else match s.linkOf l with
    | some L => s.hearHello L l h
    | none => s)

/-- The link of a lane on which a CTRL flit is heard. -/
def State.hearing (s : State) (l : Nat) : Option Nat := if s.links.handed && s.rxOn l then s.linkOf l else none

/-- ACCEPT (R317): with this module's own ACCEPT sent, the link comes UP. -/
def execAccept (lane : Fin 192) (payload : List Byte) (s : State) : Res :=
  ok (match s.hearing lane.val with
    | none => s
    | some L =>
      let st := s.getF LNK_L_LINK_STATE L 0
      let s1 := s.putLk L { s.lk L with accepted := true, heard := leAt payload 24 2 }
      if st = 3 then s1.linkUp L else if st = 2 then s1 else s)

/-- REJECT (R317). -/
def execReject (lane : Fin 192) (payload : List Byte) (s : State) : Res :=
  ok (match s.hearing lane.val with
    | none => s
    | some L => if s.getF LNK_L_LINK_STATE L 0 = 3 ∧ leAt payload 0 1 = 3 then s.linkHold L 8 false else s)

/-- WIDTH (R317): the lanes that remain; a link that is UP retrains, and the message is acknowledged. -/
def execWidth (lane : Fin 192) (payload : List Byte) (s : State) : Res :=
  ok (match s.hearing lane.val with
    | none => s
    | some L =>
      let s1 := s.retrain L
      if s1.getF LNK_L_LINK_STATE L 0 = 5 then (s1.putLk L { s1.lk L with heard := leAt payload 24 2 }).sendWidth L 5 else s1)

/-- WIDTH_ACK (R317): the retrain ends. -/
def execWidthAck (lane : Fin 192) (payload : List Byte) (s : State) : Res :=
  ok (match s.hearing lane.val with
    | none => s
    | some L => if s.getF LNK_L_LINK_STATE L 0 = 5 then s.retrained L (leAt payload 24 2) else s)

/-- RETRAIN_TIMEOUT (R317). -/
def execRetrainTimeout (link : Fin 192) (s : State) : Res :=
  ok (if s.getF LNK_L_LINK_STATE link.val 0 = 5 then s.linkDown link.val 2 else s)

/-- DISCOVERY_TIMEOUT (R322, R357): the partner is missing; with CUTOUT it is marked cut. -/
def execDiscoveryTimeout (link : Fin 192) (s : State) : Res :=
  let L := link.val
  let p := L / 16
  let m := s.expectedOf L
  let x := s.lk L
  ok (if !s.links.handed ∨ s.linkOf L ≠ some L ∨ x.greeted = true ∨ x.missing = true ∨ m = 0xFFFF then s
    else
      let s1 := (s.drainOut.setMissing L true).linkRec RT_LINK_MISSING L [m]
      let s2 := s1.notify .linkMissing 0 0 0 0x3FFF m (s1.lastSeq .control)
      if s2.get LNK_CUTOUT = 0 then s2
      else if s2.facesRouter p then s2.setBit TOP_CUT_SLOTS 0 0 (m % 32) true
      else s2.setBit TOP_CUT_PORTS 0 0 p true)

/-- FORWARDED_CLOCK_TIMEOUT (R323): slot 15 of a short-mode port carries frames. -/
def execForwardedClockTimeout (port : Fin 12) (s : State) : Res :=
  let p := port.val
  let L := 16 * p
  let st := s.getF LNK_L_LINK_STATE L 0
  let m := if s.getF LNK_P_SEEN_VALID p 0 = 1 then s.getF LNK_P_SEEN_MODULE p 0 else s.expectedOf L % 4096
  let theirs := match (s.lk L).hello with
    | e :: _ => leAt e.2 3 1 % 2
    | [] => 0
  ok (if s.shortPort p ∧ s.linkOf L = some L ∧ 1 ≤ st ∧ st ≤ 5 then
      ((s.putLk L { s.lk L with judged := (s.lk L).hello.get [] 0 }).linkRec RT_LINK_MODE_MISMATCH L [m, 1 + 2 * theirs + 4]).linkHold L 3 true
    else s)

/-- The effect of a write to REFORM (R317): held links return to ALIGN. -/
def State.reform (s : State) (p mask : Nat) : State :=
  (setBitsOf 16 mask).foldl (fun s k =>
    let L := 16 * p + k
    if s.getF LNK_L_LINK_STATE L 0 ≠ 6 then s
    else (s.putLk L { s.lk L with aligned := [], judged := [], accepted := false }).unheld L) s

/-- REFORM (R317). -/
def execReform (p : Path) (port : Fin 12) (slots : BitVec 16) (s : State) : Res :=
  ok (s.via p (LNK_P_REFORM.addr port.val 0) fun s => s.reform port.val slots.toNat)

/-! ### Receiving flits (R328 to R332, R337, R341) -/

/-- An LACK releases every kept flit up to the one it names (R330). -/
def State.takeLack (s : State) (L lack : Nat) : State :=
  let x := s.lk L
  let s1 := s.setF LNK_L_LAST_LACK L 0 lack
  if !x.kept.any fun e => decide (e.1 = lack) then s1
  else
    let kept := (x.kept.dropWhile fun e => decide (e.1 ≠ lack)).drop 1
    let live (n : Nat) : Bool := kept.any fun e => decide (e.1 = n)
    let rp := match x.replay with
      | some (a, ns) => if (ns.filter live).isEmpty then none else some (a, ns.filter live)
      | none => none
    s1.putLk L { x with kept := kept, replay := rp, inRow := 0 }

/-- A NAK (R332): a replay from LACK + 1, unless the one in progress started there. -/
def State.takeNak (s : State) (L lack : Nat) : State :=
  let first := (lack + 1) % 65536
  let x := s.lk L
  if (match x.replay with
      | some (a, _) => decide (a = first)
      | none => false) then s
  else if x.kept.any fun e => decide (e.1 = first) then s.retry L first else s

/-- A flit is discarded (R331): the first after an accepted one makes a NAK due. -/
def State.discardFlit (s : State) (L : Nat) : State :=
  let x := s.lk L
  if x.nakked then s else (s.sat LNK_NAKS_SENT 0 0 1).putLk L { x with nakDue := true, nakked := true }

/-- A flit whose HOPS are used up (R341): one LINK_HOPS record per 1 ms. -/
def State.hopsLost (s : State) (L dest : Nat) : State :=
  let s1 := s.sat LNK_HOPS_DISCARDED 0 0 1
  let n := s1.links.hopsLost + 1
  let due := match s1.links.hopsAt with
    | some t => decide (t + 225000 ≤ s1.callerCycles)
    | none => true
  if due then
    ({ s1 with links := { s1.links with hopsLost := 0, hopsAt := some s1.callerCycles } }).linkRec RT_LINK_HOPS L [n, dest]
  else { s1 with links := { s1.links with hopsLost := n } }

/-- An accepted flit passes up, or on towards its destination (R331, R337, R341). What a message for this module does is the
effect of the message's own row (DEDUCED, log entry 61). -/
def State.acceptFlit (s : State) (L : Nat) (f : Flit) : State :=
  let x := s.lk L
  let s1 := s.putLk L { x with
    expect := (x.expect + 1) % 65536, nakked := false, owed := x.owed.put 0 f.vc (x.owed.get 0 f.vc + 1) }
  if f.ftype ≠ 1 ∨ f.dest = s1.self then s1
  else if f.hops = 15 then s1.hopsLost L f.dest
  else
    let (l, s2) := (s1.drainOut.wrap TOP_RELAYED 0 0 1).forward ((s1.lk L).relays.find f.vc) { f with hops := f.hops + 1 }
    let y := s2.lk L
    s2.putLk L { y with relays := match l with
      | some k => if f.eom then y.relays.erase f.vc else y.relays.insert f.vc k
      | none => y.relays.erase f.vc }

/-- FLIT_RECEIVE (R328 to R332). DEDUCED, log entry 94. -/
def execFlitReceive (link : Fin 192) (bytes : List Byte) (symbols newBad : Nat) (inBad : Bool) (s : State) : Res :=
  let L := link.val
  let h := leAt bytes 0 16
  let st := s.getF LNK_L_LINK_STATE L 0
  ok (if st ≠ 4 ∧ st ≠ 5 then s
    else
      let s1 := (s.sat LNK_L_FEC_SYMBOLS L 0 symbols).sat LNK_L_FEC_UNCORRECTABLE L 0 newBad
      if badFlit bytes inBad then ((s1.sat LNK_CRC_ERRORS 0 0 1).sat LNK_L_LINK_CRC_ERRORS L 0 1).discardFlit L
      else
        let x := s1.lk L
        let v := bits h 42 40
        let s2 := s1.putLk L { x with credits := x.credits.put 0 v (x.credits.get 0 v + bits h 51 43) }
        let s3 := s2.takeLack L (bits h 31 16)
        let s4 := if bit h 35 then s3.takeNak L (bits h 31 16) else s3
        let f := flitOf bytes
        if f.ftype = 0 ∨ (s4.getF LNK_L_LINK_STATE L 0 ≠ 4 ∧ s4.getF LNK_L_LINK_STATE L 0 ≠ 5) then s4
        else if bits h 15 0 = (s4.lk L).expect then s4.acceptFlit L f else s4.discardFlit L)

/-! ### Misstep on the transmitter (R342, R343, R446, R447) -/

/-- An injector may act on a link. -/
def State.armed (s : State) (L i : Nat) : Bool :=
  decide (s.get MIS_PERMIT = 1 ∧ s.get MIS_ARM = 1 ∧ s.getF MIS_I_ENABLE i 0 = 1 ∧ s.getF MIS_I_COUNT i 0 ≠ 0
    ∧ s.getF MIS_I_LANE i 0 = L ∧ s.getF MIS_I_HOOK i 0 ≠ 0)
  && bit (s.get64 LNK_L_NEG_FEATURES_LO LNK_L_NEG_FEATURES_HI L) 8

/-- Every armed injector whose VC_MASK takes the flit counts it; the lowest-numbered one that is due is chosen, and the
others stay due. DEDUCED, log entry 139. -/
def State.injectors (s : State) (L : Nat) (f : Flit) : Option Nat × State :=
  let counts := (List.range 8).filter fun i => s.armed L i && bit (s.getF MIS_I_VC_MASK i 0) f.vc
  let gap (i : Nat) : Nat := max 1 (s.getF MIS_I_INTERVAL i 0)
  let due := counts.filter fun i => decide (gap i ≤ s.links.eligible.get 0 i + 1)
  let e := counts.foldl (fun m i =>
    m.put 0 i (if due.head? = some i then 0 else if i ∈ due then gap i - 1 else s.links.eligible.get 0 i + 1)) s.links.eligible
  (due.head?, { s with links := { s.links with eligible := e } })

/-- An injector has acted. -/
def State.fired (s : State) (i : Nat) : State :=
  ((s.setF MIS_I_COUNT i 0 (s.getF MIS_I_COUNT i 0 - 1)).sat MIS_I_FIRED i 0 1).sat MIS_FIRED_TOTAL 0 0 1

/-- XORs a mask into one byte. -/
def xorAt (bs : List Byte) (i m : Nat) : List Byte := listSet bs i (bs.getD i 0 ^^^ BitVec.ofNat 8 m)

/-! ### Sending flits (R330, R332, R337, R338) -/

/-- Sends a new flit under an injector's hook (R342, R447): DROP omits it; CORRUPT changes a byte behind the CRC, or that many
symbols of its codeword in long mode; REORDER holds it; ABOVE_CRC changes a payload byte ahead of the CRC. -/
def State.sendHooked (s : State) (L lseq : Nat) (f : Flit) (i : Nat) : State :=
  let at_ := s.getF MIS_I_BYTE i 0
  let mask := s.getF MIS_I_MASK i 0
  let sym := s.getF MIS_I_SYMBOLS i 0
  match s.getF MIS_I_HOOK i 0 with
  | 1 => s.fired i
  | 2 =>
    let ((lack, nak, v, n), s1) := (s.fired i).linkFields L
    let b := withCrc (f.body lseq lack nak v n)
    if sym = 0 ∨ s1.shortPort (L / 16) = true then s1.emitOut (.flit L (xorAt b at_ mask) 0) else s1.emitOut (.flit L b sym)
  | 3 => s.putLk L { s.lk L with reorder := some (i, lseq, f) }
  | _ => (s.fired i).sendFlit L lseq { f with payload := xorAt (padTo 232 0 f.payload) (min 231 at_) mask }

/-- The VCs that may send in the current round (R338). -/
def State.mayVc (s : State) (L : Nat) (round : SMap Nat) : List Nat :=
  let x := s.lk L
  (List.range 8).filter fun v => !(x.queues.get [] v).isEmpty && decide (x.credits.get 0 v ≠ 0 ∧ round.get 0 v < s.weight v)

/-- The flits kept on the links of a port (R334). -/
def State.portKept (s : State) (p : Nat) : Nat := (List.range 16).foldl (fun n k => n + (s.lk (16 * p + k)).kept.length) 0

/-- Takes the next new flit of a VC: it gets the next LSEQ, is kept, and spends a credit. -/
def State.takeNew (s : State) (L v : Nat) (round : SMap Nat) (f : Flit) : Nat × State :=
  let x := s.lk L
  let n := s.getF LNK_L_NEXT_LSEQ L 0
  let y := { x with queues := x.queues.put [] v ((x.queues.get [] v).drop 1), kept := x.kept ++ [(n, f)],
                    credits := x.credits.put 0 v (x.credits.get 0 v - 1), round := round.put 0 v (round.get 0 v + 1) }
  (n, (s.setF LNK_L_NEXT_LSEQ L 0 ((n + 1) % 65536)).putLk L y)

/-- Sends a new flit: the exchange of a REORDER hook that waits for it, an injector's hook, or as it is. -/
def State.sendNew (s : State) (L v : Nat) (round : SMap Nat) (f : Flit) : State :=
  let (n, s1) := s.takeNew L v round f
  match (s1.lk L).reorder with
  | some (i, n0, f0) =>
    if f0.vc = v then
      (((s1.putLk L { s1.lk L with reorder := none }).sendFlit L n f).sendFlit L n0 f0).fired i
    else s1.sendFlit L n f
  | none => match s1.injectors L f with
    | (some i, s2) => s2.sendHooked L n f i
    | (none, s2) => s2.sendFlit L n f

/-- FLIT_TRANSMIT (R330, R332, R334, R338): a replayed flit first, then a new one by weighted round-robin, else IDLE. Which of
several VCs that may send goes first within a round is open. DEDUCED, log entry 93. -/
def execFlitTransmit (link : Fin 192) (s : State) : Res :=
  let L := link.val
  ok (if s.getF LNK_L_LINK_STATE L 0 ≠ 4 then s
    else
      let s1 := s.drainOut
      let x := s1.lk L
      match x.replay with
      | some (a, n :: rest) =>
        let s2 := s1.putLk L { x with replay := if rest.isEmpty then none else some (a, rest), reorder := none }
        match x.kept.find? fun e => decide (e.1 = n) with
        | some e => s2.sendFlit L n e.2
        | none => s2
      | _ =>
        let idle (s : State) : State := s.sendFlit L (s.getF LNK_L_NEXT_LSEQ L 0) Flit.idle
        if 4096 ≤ s1.portKept (L / 16) then idle s1
        else
          let (round, vs) := match s1.mayVc L x.round with
            | [] => (([] : SMap Nat), s1.mayVc L [])
            | vs => (x.round, vs)
          let (c, s2) := if 2 ≤ vs.length then s1.takeFree else (0, s1)
          match vs[c.toNat % max 1 vs.length]? with
          | none => idle s2
          | some v => match x.queues.get [] v with
            | f :: _ => s2.sendNew L v round f
            | [] => idle s2)

/-- REORDER_TIMEOUT (R447): the held flit goes unchanged, and FIRED does not rise. -/
def execReorderTimeout (link : Fin 192) (s : State) : Res :=
  let L := link.val
  ok (match (s.lk L).reorder with
    | some (_, n, f) => (s.putLk L { s.lk L with reorder := none }).sendFlit L n f
    | none => s)

/-- REPLAY_TIMEOUT (R332). -/
def execReplayTimeout (link : Fin 192) (s : State) : Res :=
  let L := link.val
  ok (if s.getF LNK_L_LINK_STATE L 0 ≠ 4 then s
    else match (s.lk L).kept with
    | e :: _ => s.retry L e.1
    | [] => s)

/-- LANE_NARROW (R335): the lane is removed at a retrain. -/
def execLaneNarrow (lane : Fin 192) (codewords : Nat) (s : State) : Res :=
  let l := lane.val
  ok (match s.linkOf l with
    | none => s
    | some L =>
      let st := s.getF LNK_L_LINK_STATE L 0
      if (st ≠ 4 ∧ st ≠ 5) ∨ bit (s.getF LNK_L_RX_LANES L 0) (l % 16) = false ∨ codewords < 16 then s
      else
        let x := s.lk L
        ((s.putLk L { x with removed := x.removed ||| 2 ^ (l % 16) }).linkRec RT_LINK_NARROW L [l, codewords]).retrain L)

/-- LANE_REJOIN (R335): the lane takes part in the next retrain. -/
def execLaneRejoin (lane : Fin 192) (s : State) : Res :=
  let l := lane.val
  ok (match s.linkOf l with
    | none => s
    | some L =>
      let x := s.lk L
      if bit x.removed (l % 16) then s.putLk L { x with removed := setBits x.removed (l % 16) (l % 16) 0 } else s)

end Sys2Proof.Machine
end

