-- ==== Sys2Proof/Machine/Floors.lean ====
section
/-! DEFINITION. Drawing the network (R351 to R358): the pending line set and skip entries applied to the router-facing lanes,
and the routing table. -/

namespace Sys2Proof.Machine

/-! ### Checking a drawing (R352) -/

/-- The valid skip entries, in table order. -/
def State.skips (s : State) : List Nat := (List.range 16).filter fun i => decide (s.getF TOP_CUT_VALID i 0 = 1)

/-- A module is on this floor and is not this module. -/
def State.onFloor (s : State) (m : Nat) : Bool := decide (m / 32 = s.get MOD_FLOOR ∧ m ≠ s.self)

/-- A set of lines is closed under negation. -/
def closedLines (m : Nat) : Bool := (List.range 32).all fun k => !bit m k || bit m ((32 - k) % 32)

/-- A drawing passes the checks of APPLY. -/
def State.drawOk (s : State) : Bool :=
  let m := s.get TOP_PEND_SET
  decide (popCount 32 m = 16) && closedLines m
  && (s.skips.all fun i => s.onFloor (s.getF TOP_CUT_CUT_MODULE i 0) && s.onFloor (s.getF TOP_CUT_PARTNER i 0))
  && (decide (s.get TOP_MODE = 0) || (decide (m = s.get TOP_ACTIVE_SET) && s.skips.isEmpty))

/-! ### The new lines (R352, R358) -/

/-- The lines of a port, by slot. -/
def State.portLines (s : State) (p : Nat) : List Nat := (List.range 16).map fun k => s.getF OPT_LN_TARGET_LINE p k

/-- Slots whose line is not in the pending set are freed and take, in ascending order, the lines of the set that the port
lacks. -/
def relined (pend : Nat) (ts : List Nat) : List Nat :=
  let lack := (setBitsOf 32 pend).filter fun k => decide (k ∉ ts)
  (ts.foldl (fun (a : List Nat × List Nat) t =>
    if bit pend t then (a.1 ++ [t], a.2)
    else match a.2 with
    | l :: ls => (a.1 ++ [l], ls)
    | [] => (a.1 ++ [t], [])) ([], lack)).1

/-- The three lines of a skip entry (R358). -/
def State.skipLines (s : State) (i : Nat) : Nat × Nat × Nat :=
  let a := s.get MOD_SLOT
  let b := s.getF TOP_CUT_CUT_MODULE i 0 % 32
  let q := s.getF TOP_CUT_PARTNER i 0 % 32
  ((b + 32 - a) % 32, (q + 32 - b) % 32, (q + 32 - a) % 32)

/-- A skip entry acts on the lines a port has by then (DEDUCED, log entry 62). -/
def skipActs (ts : List Nat) (k : Nat × Nat × Nat) : Bool := decide (k.1 ∈ ts ∧ k.2.1 ∈ ts ∧ k.2.2 ∉ ts)

/-- The lines of a port after the skip entries, applied in table order. -/
def State.skipped (s : State) (ts : List Nat) : List Nat :=
  s.skips.foldl (fun ts i =>
    let k := s.skipLines i
    if skipActs ts k then ts.map fun t => if t = k.1 then k.2.2 else t else ts) ts

/-- The router-facing ports that are enabled. -/
def State.routerPorts (s : State) : List Nat := (List.range 12).filter fun p => s.facesRouter p && s.portOn p

/-- Marks the skip entries that act, judged on the pending set with the earlier entries applied. -/
def State.markApplied (s : State) (ts : List Nat) : List Nat → State
  | [] => s
  | i :: is =>
    let k := s.skipLines i
    let act := skipActs ts k
    (s.setF TOP_CUT_APPLIED i 0 (bitOf act)).markApplied (if act then ts.map fun t => if t = k.1 then k.2.2 else t else ts) is

/-- Gives the slots of a port their new lines (R298, R352): each slot that changes is parked first. -/
def State.retarget (s : State) (p : Nat) (new : List Nat) : State :=
  let old := s.portLines p
  let ks := (List.range 16).filter fun k => decide (new.getD k 0 ≠ old.getD k 0)
  let s1 := ks.foldl (fun s k => ((s.reline (16 * p + k) false).reline (16 * p + k) true)) s
  let s2 := ks.foldl (fun s k => ((s.setMissing (16 * p + k) false).putLk (16 * p + k) Link.init).setF OPT_LN_TARGET_LINE p k (new.getD k 0)) s1
  let s3 := ks.foldl (fun s k => s.setBit LNK_P_LOOPBACK_OK p 0 k false) s2
  let lanes := ks.map (· + 16 * p)
  ({ s3 with links := { s3.links with retuned := (s3.links.retuned.filter fun l => decide (l ∉ lanes)) ++ lanes } }).setF LNK_P_LINKS p 0
    (s3.portLinks p).length

/-- A drawing command ends (R351). -/
def State.drawEnd (s : State) (st : Status) : State :=
  ((s.set TOP_BUSY 0).set TOP_RESULT st.num).wrap TOP_DRAWS 0 0 1

/-- APPLY (R352). DEDUCED, log entry 140. -/
def State.apply (s : State) : State :=
  if !s.drawOk then s.drawEnd .illegal
  else
    let s1 := { s.drainOut with links := { s.drainOut.links with retuned := [] } }
    let news := s1.routerPorts.map fun p => (p, s1.skipped (relined (s1.get TOP_PEND_SET) (s1.portLines p)))
    let s2 := (List.range 16).foldl (fun s i => s.setF TOP_CUT_APPLIED i 0 0) s1
    let s3 := s2.markApplied (setBitsOf 32 (s2.get TOP_PEND_SET)) s2.skips
    let s4 := news.foldl (fun s e => s.retarget e.1 e.2) s3
    ((s4.set TOP_ACTIVE_SET (s4.get TOP_PEND_SET)).set TOP_RETUNES_LEFT (min 255 s4.links.retuned.length)).set TOP_BUSY 1

/-- The routing table of the image (R351). -/
def State.imageRoutes (s : State) : State :=
  let n := (imgValue s.boot.image 0x07).length / 8
  let s1 := (List.range 256).foldl (fun s i =>
    let f (off k : Nat) : Nat := if i < n then s.img 0x07 (8 * i + off) k else 0
    let s := (s.setF TOP_RT_DEST_FIRST i 0 (f 0 2)).setF TOP_RT_COUNT i 0 (f 2 2)
    (s.setF TOP_RT_PORT i 0 (f 4 1)).setF TOP_RT_ALT_PORT i 0 (f 5 1)) s
  s1.set TOP_ROUTE_COUNT n

/-- REVERT (R351): the image's line set and routes, no skip entry, and then APPLY. -/
def State.revert (s : State) : State :=
  let s1 := (s.drainOut.imageRoutes).set TOP_PEND_SET s.imageLineSet
  ((List.range 16).foldl (fun s i =>
    ((s.setF TOP_CUT_CUT_MODULE i 0 0).setF TOP_CUT_PARTNER i 0 0).setF TOP_CUT_VALID i 0 0) s1).apply

/-- The effect of a write to DRAW_CMD (R351, R361): discarded while BUSY. -/
def State.drawCmd (s : State) (v : Nat) : State :=
  if s.get TOP_BUSY = 1 then s
  else match v with
  | 1 => s.apply
  | 2 => s.revert
  | _ => s

/-- APPLY (R352). -/
def execDrawApply (p : Path) (s : State) : Res :=
  ok (s.via p (TOP_DRAW_CMD.addr 0 0) fun s => s.drawCmd 1)

/-- REVERT (R351). -/
def execDrawRevert (p : Path) (s : State) : Res :=
  ok (s.via p (TOP_DRAW_CMD.addr 0 0) fun s => s.drawCmd 2)

/-- APPLY_DONE (R352): every retuned transmit lane is enabled or retired. -/
def execApplyDone (s : State) : Res :=
  ok (if s.get TOP_BUSY = 1 ∧ s.links.retuned = [] then s.drawEnd .done else s)

/-- APPLY_TIMEOUT (R352): the lanes keep locking. -/
def execApplyTimeout (s : State) : Res := ok (if s.get TOP_BUSY = 1 then s.drawEnd .timeout else s)

/-- A fence of an engine's reset domain ends an APPLY (R353). -/
def State.drawFenced (s : State) : State := if s.get TOP_BUSY = 1 then s.drawEnd .fenced else s

/-! ### The routing table (R355, R356) -/

/-- A code that PORT or ALT_PORT may hold. -/
def State.routeCode (s : State) (c : Nat) : Bool :=
  (decide (c < 12) && !s.facesRouter c) || (decide (0x80 ≤ c ∧ c < 0xA0 ∧ s.get TOP_MODE = 0)) || decide (c = 0xFF)

/-- The effect of a write of the high word of routing entry `i` by a path (R356): the whole entry with the low word the path
holds for it; an invalid code discards both. -/
def State.routeWrite (s : State) (p : Path) (i v : Nat) : State :=
  let lo := TOP_RT_DEST_FIRST.addr i 0
  let x := s.path p
  let held := match x.held with
    | some (a, w) => if a = lo then some w.toNat else none
    | none => none
  let s1 := if held.isSome then s.setPath p { x with held := none } else s
  if !(s1.routeCode (v % 256) && s1.routeCode (v / 256 % 256)) then s1
  else
    let s2 := s1.drainOut
    let put (s : State) (a w : Nat) : State := s.putWord a (wordWrite (blockFields (a / 0x10000)) true a (s.word a) w)
    match held with
    | some w => put (put s2 lo w) (lo + 4) v
    | none => put s2 (lo + 4) v

/-- ROUTE_ENTRY_WRITE (R356). -/
def execRouteEntryWrite (p : Path) (entry : Fin 256) (high : Word) (s : State) : Res :=
  ok (s.via p (TOP_RT_PORT.addr entry.val 0) fun s => s.routeWrite p entry.val high.toNat)

end Sys2Proof.Machine
end

