-- ==== Sys2Proof/Machine/Encore.lean ====
section
/-! DEFINITION. Encore (R436 to R445): the journal's switch, its attempts, the flush of staged records into the ring, and the
start, the steps and the end of a replay. -/

namespace Sys2Proof.Machine

/-! ### The ring -/

/-- The bytes of a record in the ring (R438). -/
def JRec.bytes (r : JRec) : List Byte :=
  padTo r.size 0 (toBytes 1 r.type ++ toBytes 1 r.attempt ++ toBytes 2 r.flags ++ toBytes 4 r.data.length ++ toBytes 4 r.step
    ++ toBytes 4 r.ordinal ++ toBytes 8 r.key ++ toBytes 8 r.addr ++ r.data)

/-- The blocks of the ring in use. -/
def Enc.used (e : Enc) : Nat := e.held.foldl (fun n h => n + h.2) 0

/-- Counts a block for a step. -/
def heldAdd (k : Nat) : List (Nat × Nat) → List (Nat × Nat)
  | [] => [(k, 1)]
  | (j, n) :: hs => if j = k then (j, n + 1) :: hs else (j, n) :: heldAdd k hs

/-- OLDEST_STEP and NEWEST_STEP follow the steps held. -/
def State.stepsHeld (s : State) : State :=
  let s1 := s.set ENC_OLDEST_STEP ((s.enc.held.head?.map (·.1)).getD 0)
  s1.set ENC_NEWEST_STEP ((s1.enc.held.getLast?.map (·.1)).getD 0)

/-- Discards whole steps from the oldest end, never the one in hand, until some blocks fit (R440). `fuel` bounds the steps. -/
def State.makeRoom (s : State) (k blocks : Nat) : Nat → State
  | 0 => s
  | fuel + 1 =>
    if s.enc.used + blocks ≤ s.get ENC_JRN_BLOCKS then s
    else match s.enc.held with
    | (j, _) :: hs => if j = k then s else ({ s with enc := { s.enc with held := hs } }).makeRoom k blocks fuel
    | [] => s

/-- Writes whole blocks of the stream to the ring in class 3 (R220), as far as they are complete; `end_` pads the last.
DEDUCED, log entry 141. -/
def State.ringOut (s : State) (slot k : Nat) : Nat → List Byte → State
  | 0, bs => { s with enc := { s.enc with tail := bs } }
  | n + 1, bs =>
    let at_ := s.getF CTX_S_EXT_FIRST slot 0 + s.get ENC_JRN_OFFSET + s.get ENC_JRN_HEAD
    let (st, s1) := s.tcWrite at_ (bs.take 4096) .journal
    if st ≠ .done then { s1 with enc := { s1.enc with stopped := true, incomplete := true, tail := [] } }
    else
      let s2 := { s1 with enc := { s1.enc with held := heldAdd k s1.enc.held } }
      (s2.set ENC_JRN_HEAD ((s2.get ENC_JRN_HEAD + 1) % max 1 (s2.get ENC_JRN_BLOCKS))).ringOut slot k n (bs.drop 4096)

/-- Writes one staged record: room is made first; a record for which the current attempt alone leaves none stops the
recording of that attempt, one block staying free for its STEP_END (R440). A STEP_END fills its block. -/
def State.flushRec (s : State) (slot : Nat) (r : JRec) : State :=
  let last := decide (r.type = 0x0B)
  let bs := s.enc.tail ++ r.bytes
  let n := if last then (bs.length + 4095) / 4096 else bs.length / 4096
  let s1 := s.makeRoom r.step (n + bitOf !last) (s.enc.held.length + 1)
  if s1.enc.stopped && !last then s1
  else if s1.get ENC_JRN_BLOCKS < s1.enc.used + n + bitOf !last then
    ({ s1 with enc := { s1.enc with stopped := true, incomplete := true } }).set ENC_OVERFLOW 1
  else (((s1.ringOut slot r.step n (if last then padTo (4096 * n) 0 bs else bs)).wrap64 ENC_RECORDS_LO ENC_RECORDS_HI 0 1)).stepsHeld

/-- A STEP_END written after the recording has stopped says so (R440). -/
def Enc.marked (e : Enc) (r : JRec) : JRec := if r.type = 0x0B ∧ e.stopped then { r with flags := 1 } else r

/-- JOURNAL_FLUSH (R438, R440): the staged records go to the ring. -/
def execJournalFlush (s : State) : Res :=
  let slot := s.get ENC_JRN_SLOT
  ok (if !s.ready ∨ s.enc.staged = [] then s
    else
      let s1 := { s with enc := { s.enc with staged := [] } }
      s.enc.staged.foldl (fun s r => s.flushRec slot (s.enc.marked r)) s1)

/-! ### Attempts (R436, R438, R440) -/

/-- Stages a record whatever the state of the recording. -/
def State.stage (s : State) (slot type flags key : Nat) (data : List Byte) : State :=
  { s with enc := { s.enc with
      ordinal := s.enc.ordinal + 1,
      staged := s.enc.staged ++ [⟨type, s.enc.attempt, flags, s.getF CTX_S_STEP_NO slot 0, s.enc.ordinal, key, 0, data⟩] } }

/-- The attempt in progress ends: STEP_END, INCOMPLETE when something of it was not recorded. -/
def State.attemptEnd (s : State) (slot : Nat) : State :=
  if !s.enc.active ∨ s.get ENC_JRN_SLOT ≠ slot then s
  else
    let bad := s.enc.incomplete || s.enc.stopped
    let s1 := (if bad then s.set ENC_INCOMPLETE 1 else s).stage slot 0x0B (bitOf bad) 0 []
    { s1 with enc := { s1.enc with active := false, stopped := false, incomplete := false } }

/-- The numbers of an attempt begin anew. -/
def Enc.fresh (e : Enc) (attempt : Nat) : Enc :=
  { e with attempt := attempt, ordinal := 0, updates := 0, reqNo := [], incomplete := false, stopped := false }

/-- An attempt begins: STEP_BEGIN with the job and its seed, when the journal records the slot and the step is journalled. -/
def State.attemptBegin (s : State) (slot attempt : Nat) : State :=
  if s.get ENC_JRN_STATE = 1 ∧ s.get ENC_JRN_SLOT = slot ∧ (s.slot slot).jbit = true then
    let s1 := { s with enc := { s.enc.fresh attempt with active := true } }
    s1.stage slot 0x01 0 (s1.getF CTX_S_JOB slot 0) (toBytes 8 (s1.recField slot 16 8))
  else s

/-! ### The switch (R437) -/

/-- The staging area lies in tier A with right W. -/
def State.stagingOk (s : State) (slot : Nat) : Bool × State :=
  let a := s.get64 ENC_JRN_STAGE_ADDR_LO ENC_JRN_STAGE_ADDR_HI 0
  let (st, ts, s1) := s.ctxRange slot .w .store (runFuel (2 ^ 26)) a (2 ^ 26)
  (decide (st = .done) && ts.all (fun t => decide (t = 0)), s1)

/-- Turns the journal off; an attempt in progress ends incomplete. -/
def State.journalOff (s : State) : State :=
  let s1 := ({ s with enc := { s.enc with incomplete := true } }).attemptEnd (s.get ENC_JRN_SLOT)
  let s2 := s1.set ENC_JRN_ENABLE 0
  { if s2.get ENC_JRN_STATE = 1 then s2.set ENC_JRN_STATE 0 else s2 with enc := { s2.enc with incomplete := false } }

/-- The effect of a write of the word of JRN_SLOT and JRN_ENABLE (R437). -/
def State.journalSwitch (s : State) (slot : Nat) (on : Bool) : State :=
  if on = true ∧ s.get ENC_JRN_ENABLE = 1 ∧ s.get ENC_JRN_SLOT = slot then s.set ENC_CFG_RESULT 0
  else
    let s1 := s.journalOff.set ENC_JRN_SLOT slot
    if !on then s1.set ENC_CFG_RESULT 0
    else
      let (okA, s2) := s1.stagingOk slot
      let blocks := s2.get ENC_JRN_BLOCKS
      if s2.getF CTX_S_STATE slot 0 = 0 ∨ s2.getF CTX_S_EXT_BLOCKS slot 0 < s2.get ENC_JRN_OFFSET + blocks ∨ 67108864 < blocks ∨ okA = false
        then s2.set ENC_CFG_RESULT Status.access.num
      else if s2.get MEM_C_STATE ≠ 1 then s2.set ENC_CFG_RESULT Status.noResource.num
      else
        let s3 := { s2 with enc := { Enc.init with replay := s2.enc.replay, reached := s2.enc.reached } }
        let s4 := ((s3.set ENC_JRN_ENABLE 1).set ENC_CFG_RESULT 0).set ENC_JRN_HEAD 0
        (if blocks = 0 ∨ s4.get ENC_JRN_STATE = 2 then s4 else s4.set ENC_JRN_STATE 1).stepsHeld

/-- JRN_ENABLE_WRITE (R437). -/
def execJrnEnableWrite (p : Path) (slot : Fin 32) (enable : Bool) (s : State) : Res :=
  ok (s.via p (ENC_JRN_ENABLE.addr 0 0) fun s => s.journalSwitch slot.val enable)

/-! ### Replay (R443 to R445) -/

/-- The 64-byte unit of the ring at a position. -/
def State.ringUnit (s : State) (slot pos : Nat) : List Byte :=
  let n := 64 * s.get ENC_JRN_BLOCKS
  let b := s.getF CTX_S_EXT_FIRST slot 0 + s.get ENC_JRN_OFFSET + pos % max 1 n / 64
  if s.tierC.bad.get false b then [] else s.tierC.bytes.read 0 (4096 * b + 64 * (pos % 64)) 64

/-- The record whose header is at a position of the ring. -/
def State.ringRec (s : State) (slot pos : Nat) : Option JRec :=
  let u := s.ringUnit slot pos
  let type := leAt u 0 1
  if u.length < 64 ∨ type = 0 ∨ 0x0B < type then none
  else
    let len := leAt u 4 4
    let data := (((List.range ((32 + len + 63) / 64)).map fun i => s.ringUnit slot (pos + i)).flatten.drop 32).take len
    some ⟨type, leAt u 1 1, leAt u 2 2, leAt u 8 4, leAt u 12 4, leAt u 16 8, leAt u 24 8, data⟩

/-- The records from a position on that belong to the steps up to `n`; behind a STEP_END the next one begins a block. -/
def State.ringRecs (s : State) (slot n : Nat) : Nat → Nat → List JRec
  | 0, _ => []
  | fuel + 1, pos =>
    match s.ringRec slot pos with
    | none => []
    | some r =>
      if n < r.step then []
      else
        let next := pos + r.size / 64
        r :: s.ringRecs slot n fuel (if r.type = 0x0B then (next + 63) / 64 * 64 else next)

/-- Every attempt of the steps from `k` to `n` is whole, in order and complete, with the job and the seed (R443): `a` is the
attempt expected next, and `open_` says that it has begun. -/
def attemptsOk (job : Nat) (seed : List Byte) (n k a : Nat) (open_ : Bool) : List JRec → Bool
  | [] => !open_ && decide (k = n ∧ 0 < a)
  | r :: rs =>
    if open_ then
      if r.type = 0x0B then decide (r.flags % 2 = 0 ∧ r.step = k) && attemptsOk job seed n k (a + 1) false rs
      else decide (r.step = k ∧ r.type ≠ 0x01) && attemptsOk job seed n k a true rs
    else if r.type = 0x01 ∧ r.key % 2 ^ 32 = job ∧ r.data = seed then
      if r.step = k ∧ r.attempt = a then attemptsOk job seed n k a true rs
      else if r.step = k + 1 ∧ r.attempt = 0 ∧ 0 < a then attemptsOk job seed n (k + 1) 0 true rs else false
    else false

/-- The effect of REPLAY_START (R443). -/
def State.replayStart (s : State) : State :=
  if s.get ENC_BUSY = 1 then s
  else
    let slot := s.get ENC_JRN_SLOT
    let f := s.get ENC_REPLAY_FIRST
    let n := s.get ENC_REPLAY_LAST
    let units := 64 * s.get ENC_JRN_BLOCKS
    let start := (List.range units).find? fun pos => match s.ringRec slot pos with
      | some r => decide (r.type = 0x01 ∧ r.step = f ∧ r.attempt = 0)
      | none => false
    let recs := match start with
      | some pos => s.ringRecs slot n units pos
      | none => []
    if s.getF CTX_S_STATE slot 0 ≠ 0 ∧ f ≤ n ∧ attemptsOk (s.getF CTX_S_JOB slot 0) (toBytes 8 (s.recField slot 16 8)) n f 0 false recs = true then
      let s1 := s.journalOff
      (({ s1 with enc := { s1.enc with replay := some recs, reached := false } }).set ENC_BUSY 1).set ENC_REPLAY_STATE 1 |>.set ENC_JRN_STATE 2
    else s.set ENC_RESULT Status.checkFail.num

/-- The effect of REPLAY_STOP (R445): it ends a replay at once. DEDUCED, log entry 63. -/
def State.replayStop (s : State) : State := if s.get ENC_BUSY = 1 then s.replayEnd 5 .aborted else s

/-- The effect of a write to ENC.CMD (R448). REPLAY_STOP acts while BUSY: nothing else could end a replay by hand (log entry
63). -/
def State.encCmd (s : State) (v : Nat) : State :=
  match v with
  | 1 => s.replayStart
  | 2 => s.replayStop
  | _ => s

/-- REPLAY_START (R443). -/
def execReplayStart (p : Path) (s : State) : Res :=
  ok (s.via p (ENC_CMD.addr 0 0) fun s => s.encCmd 1)

/-- REPLAY_STOP (R445). -/
def execReplayStop (p : Path) (s : State) : Res :=
  ok (s.via p (ENC_CMD.addr 0 0) fun s => s.encCmd 2)

/-! ### Steps (R436, R443, R444) -/

/-- A replayed attempt ends: a consumption left over diverges, write-kind records left over are applied. -/
def State.replayStepEnd (s : State) (slot : Nat) (rs : List JRec) : Option State :=
  let mine := rs.takeWhile fun r => decide (r.type ≠ 0x0B)
  match mine.find? fun r => !writeKind r.type with
  | some _ => none
  | none =>
    let s1 := mine.foldl (fun s r => s.applyRecord slot r) s
    some { s1 with enc := { s1.enc with replay := some (rs.drop (mine.length + 1)) } }

/-- The context issues STEP while it replays (R443): before the first step nothing happens; each later one ends an attempt,
and STEP n + 1 ends the replay, with every set of the context waiting. -/
def State.replayStep (s : State) (slot step : Nat) : State :=
  match s.enc.replay with
  | none => s
  | some rs =>
    let begin_ (s : State) (rs : List JRec) : State := match rs with
      | r :: rest =>
        if r.type = 0x01 ∧ r.step = step then { s with enc := { s.enc.fresh r.attempt with replay := some rest, reached := true } }
        else s.diverge slot 0x01 r.key
      | [] => s.diverge slot 0x01 (s.getF CTX_S_JOB slot 0)
    if !s.enc.reached then if step = s.get ENC_REPLAY_FIRST then begin_ s rs else s
    else match s.replayStepEnd slot rs with
    | none =>
      let r := (rs.find? fun r => !writeKind r.type).getD ⟨0, 0, 0, 0, 0, 0, 0, []⟩
      s.diverge slot r.type r.key
    | some s1 =>
      if step = (s.get ENC_REPLAY_LAST + 1) % 2 ^ 32 then
        let s2 := (s1.replayEnd 2 .done).emit RT_ENC_REPLAY_DONE .data 10 0 (s.ctxOf slot) [s.get ENC_REPLAY_FIRST, s.get ENC_REPLAY_LAST]
        (s2.setsOf slot).foldl (fun s m => if (s.setSt m).slot = slot then s.putSet m { s.setSt m with atPoint := true } else s) s2
      else begin_ s1 (s1.enc.replay.getD [])

/-- What STEP does to the journal before the step number changes. -/
def State.encStepEnd (s : State) (slot : Nat) : State := s.attemptEnd slot

/-- What STEP does to the journal and to a replay once the step number and the journalling bit are set: `again` repeats the
current step, which begins a new attempt (R436). -/
def State.encStepBegin (s : State) (slot step : Nat) (again : Bool) : State :=
  if s.enc.replay.isSome ∧ s.get ENC_JRN_SLOT = slot then s.replayStep slot step
  else s.attemptBegin slot (if again then s.enc.attempt + 1 else 0)

end Sys2Proof.Machine
end

