-- ==== Sys2Proof/Machine/Groups.lean ====
section
/-! DEFINITION. The group table (R362 to R364): the checks of an entry, and what a commit does. -/

namespace Sys2Proof.Machine

/-- A range of context addresses of a slot translates with a right to tier A of this module, or, with `top` 1, to tier A or
B. Checking it leaves no trace. -/
def State.translates (s : State) (slot top : Nat) (right : Right) : Nat → Nat → Nat → Bool
  | 0, _, _ => false
  | fuel + 1, a, n =>
    if n = 0 then true
    else
      let (st, fa, left, _) := s.resolve 0 slot a right
      decide (st = .done ∧ fa.module = s.self ∧ fa.space ≤ top)
      && s.translates slot top right fuel (a + max left 1) (n - max left 1)

/-- The control-space address of word `k` of a group entry. -/
def groupWord (g k : Nat) : Nat := RND_E_VERSION.addr g 0 + 4 * k

/-- The words of a group entry replaced; reserved bits are discarded. -/
def State.groupStore (s : State) (g : Nat) (ws : List Nat) : State :=
  ((List.range 16).foldl (fun (s : State) k =>
    s.putWord (groupWord g k) (wordWrite (blockFields (groupWord g k / 0x10000)) false (groupWord g k) 0 (ws.getD k 0))) s)

/-- Whether a list holds an entry twice. -/
def hasTwice : List Nat → Bool
  | [] => false
  | a :: l => decide (a ∈ l) || hasTwice l

/-- The sizes of all four axes as the entry holds them. -/
def State.rawSizes (s : State) (g : Nat) : List Nat :=
  [RND_E_AXIS0_SIZE, RND_E_AXIS1_SIZE, RND_E_AXIS2_SIZE, RND_E_AXIS3_SIZE].map fun f => s.getF f g 0

/-- The checks of R364 on entry `g` as it stands. An entry that will be disabled is committed without them (DEDUCED, log entry 64). -/
def State.groupCheck (s : State) (g : Nat) : Status :=
  let axes := s.getF RND_E_AXES g 0
  let rx := s.getF RND_E_RX_SLOTS g 0
  let chunk := s.getF RND_E_CHUNK_BLOCKS g 0
  let n := s.memberCount g
  if !s.groupOn g then .done
  else if axes = 0 ∨ 4 < axes ∨ ((s.rawSizes g).drop axes).any (· ≠ 0) = true ∨ 4096 < n ∨ rx < 2 ∨ 16 < rx ∨ 1024 < chunk
      ∨ 767 < s.getF RND_E_PUSH_SET g 0 ∨ s.getF RND_E_BUF_BYTES g 0 < (rx + 2) * chunk * 1280 then .illegal
  else match s.slotOf (s.getF RND_E_CONTEXT g 0) with
  | none => .access
  | some slot =>
    let list := s.get64 RND_E_MEMBERS_ADDR_LO RND_E_MEMBERS_ADDR_HI g
    let buf := s.get64 RND_E_BUF_ADDR_LO RND_E_BUF_ADDR_HI g
    let len := s.getF RND_E_BUF_BYTES g 0
    if !(s.translates slot 0 .r (runFuel (2 * n)) list (2 * n) && s.translates slot 0 .r (runFuel len) buf len
        && s.translates slot 0 .w (runFuel len) buf len) then .access
    else
      let ms := (List.range n).map (s.member g)
      if ms.any (4095 < ·) || hasTwice ms || decide (ms[s.getF RND_E_SELF g 0]? ≠ some s.self) then .illegal else .done

/-- GROUPS_VALID follows the table. -/
def State.countGroups (s : State) : State :=
  s.set RND_GROUPS_VALID ((List.range 64).filter s.groupOn).length

/-- Commits an entry (R364): the checks; the words; and, when VERSION changes or the entry is disabled, the end of its
rounds. -/
def State.groupCommit (s : State) (g : Nat) (ws : List Nat) : State :=
  let c := s.groupStore g ws
  let st := c.groupCheck g
  if st ≠ .done then s.setF RND_G_COMMIT_RESULT g 0 st.num
  else
    let off := !c.groupOn g
    let s1 := c.setF RND_G_COMMIT_RESULT g 0 Status.done.num
    let s2 := if off ∨ s.getF RND_E_VERSION g 0 ≠ c.getF RND_E_VERSION g 0 then
        let ended := if (s1.group g).run.isSome then s1.endRound g .aborted 1 else s1
        ((ended.flushQueue g .aborted).setF RND_G_RSEQ g 0 0).setF RND_G_STATE g 0 (if off then 0 else 1)
      else if s1.getF RND_G_STATE g 0 = 0 then s1.setF RND_G_STATE g 0 1 else s1
    s2.countGroups

/-- Disables an entry that leaves its context (R397): its rounds end, and its words are those given to its next owner. -/
def State.groupLeave (s : State) (g ctx : Nat) : State :=
  (s.groupCommit g []).setF RND_E_CONTEXT g 0 ctx

end Sys2Proof.Machine
end

