-- ==== Sys2Proof/Machine/Switch.lean ====
section
/-! DEFINITION. Sets and contexts (R174, R402 to R407): binding a set, forming crews, saving and restoring a set, lending
one to a guest and taking it back. -/

namespace Sys2Proof.Machine

/-! ### Whole ranges of memory -/

/-- Replaces the whole lines of a range of tier A or B by sparse bytes, given by their place in the range; whatever errors
the lines held are gone (R227, R397). -/
def State.blit (s : State) (tier o n : Nat) (bs : SMap Byte) : State :=
  let inside (l : Nat) : Bool := decide (o ≤ 64 * l ∧ 64 * l < o + n)
  let m := bs.foldl (fun (m : SMap Byte) e => if e.1 < n then m.put 0 (o + e.1) e.2 else m)
    ((s.tier tier).keep fun k => decide (k < o ∨ o + n ≤ k))
  let s1 := s.putTier tier m
  if tier = 0 then
    let bad := (s1.mem.held.filter fun e => inside e.1).map (·.1)
    let s2 := bad.foldl (fun (s : State) l =>
      let u := s.unitOf 0 (64 * l)
      s.setF MSC_HELD_BAD u 0 (s.getF MSC_HELD_BAD u 0 - 1)) s1
    { s2 with mem := { s2.mem with
        errA := s2.mem.errA.keep fun l => !inside l,
        errS := s2.mem.errS.keep fun l => !inside l,
        held := s2.mem.held.keep fun l => !inside l } }
  else { s1 with mem := { s1.mem with errB := s1.mem.errB.keep fun l => !inside l } }

/-- Writes a page of tier A or B with zero. -/
def State.zeroPage (s : State) (tier page : Nat) : State := s.blit tier (2 ^ 21 * page) (2 ^ 21) []

/-! ### Binding (R92, R174, R396) -/

/-- A set with everything zeroed but what its window counts of it (R397). -/
def SetState.blank (x : SetState) : SetState :=
  { SetState.init with
    eccFixed := x.eccFixed, arrFaults := x.arrFaults, taken := x.taken, given := x.given, nextId := x.nextId }

/-- A crew of one (R85). -/
def SetState.alone (x : SetState) (n : Nat) : SetState :=
  { x with crewId := 0x3FF, crewSize := 1, crewIndex := 0, cutin := false, crew := [n] }

/-- The entry PC of a routine set (R395). -/
def State.entryPc (s : State) (slot routine : Nat) : Status × Nat × State :=
  let (st, bs, s1) := s.ctxBytes slot 0 1 (s.recField slot 48 8 + 8 * routine) 8
  (st, ofBytes bs, s1)

/-- Marks that a routine set has run. -/
def State.markStarted (s : State) (slot routine : Nat) : State :=
  let i := s.slot slot
  if routine ∈ i.started then s else s.putSlot slot { i with started := routine :: i.started }

/-- Binds a set fresh: it starts at its entry PC, or idle where that is 0 (or cannot be read, DEDUCED, log entry 65). -/
def State.freshSet (s : State) (slot routine n : Nat) : State :=
  let (st, a, s1) := s.entryPc slot routine
  let pc := if st = .done then a else 0
  let x := ((s1.setSt n).blank).alone n
  (s1.putSet n { x with
    slot := slot, routine := routine, pc := BitVec.ofNat 64 pc, boundAt := s1.callerCycles,
    run := if pc = 0 then .idle else .running }).markStarted slot routine

/-- The members of a crew entry (R82). -/
def crewMembers (e : List Byte) : List Nat := (List.range (leAt e 3 1)).map fun j => leAt e (16 + 2 * j) 2

/-- Changes the state of the set that serves a routine set of a slot, live or saved while lent. -/
def State.updOwn (s : State) (slot n : Nat) (f : SetState → SetState) : State :=
  match s.ownSet slot n with
  | some y => s.putOwn slot n (f y)
  | none => s

/-- The physical set that serves a member of a crew: none while no set of the crew's die does. -/
def State.crewSet (s : State) (slot die r : Nat) : Nat :=
  match (s.slot slot).setMap.find r with
  | some n => if dieOf n = die then n else 0x3FF
  | none => 0x3FF

/-- Forms the crews of a slot from its crew table (R82, R85, R397): every set alone, then each crew's members that are
served by a set of its die. -/
def State.formCrews (s : State) (slot : Nat) : State :=
  let s1 := (s.slot slot).setMap.foldl (fun s e => s.updOwn slot e.2 fun y => y.alone e.2) s
  (s.slot slot).crews.foldl (fun (s : State) c =>
    let ms := (crewMembers c).map (s.crewSet slot (leAt c 2 1))
    (ms.zip (List.range ms.length)).foldl (fun (s : State) e =>
      s.updOwn slot e.1 fun y => { y with
        crewId := leAt c 0 2, crewSize := ms.length, crewIndex := e.2, cutin := bit (leAt c 4 1) 0, crew := ms }) s) s1

/-! ### Saving and restoring (R402) -/

/-- A tile with its owner's number changed from one to another. -/
def Tile.renumber (t : Tile) (a b : Nat) : Tile := if t.owner = a then { t with owner := b } else t

/-- A set's own tiles renumbered. -/
def SetState.renumber (x : SetState) (a b : Nat) : SetState :=
  { x with
    queue := x.queue.map fun t => t.renumber a b,
    tiles := x.tiles.map fun r => { r with tile := r.tile.renumber a b } }

/-- A round or freeze descriptor of a slot with the set it was pushed from renumbered. -/
def RoundDesc.renumber (d : RoundDesc) (slot a b : Nat) : RoundDesc := if d.slot = slot ∧ d.set = a then { d with set := b } else d

/-- The queued and running rounds and freeze-engine work of a set that is saved, and its tiles that crewmates run, take the
number of its routine set, so that their completions find it wherever it goes (DEDUCED, log entry 66). -/
def State.renumber (s : State) (slot a b : Nat) : State :=
  let f (d : RoundDesc) : RoundDesc := d.renumber slot a b
  let z := s.frzSlot slot
  let runs (e : Nat × SetState) : Nat × SetState :=
    if e.1 ≠ a ∧ e.2.slot = slot ∧ e.2.tiles.any (fun r => decide (r.tile.owner = a)) = true then (e.1, { e.2 with
      tiles := e.2.tiles.map fun r => { r with tile := r.tile.renumber a b } }) else e
  { s with
    sets := s.sets.map runs
    groups := s.groups.map fun (e : Nat × Group) => (e.1, { e.2 with
      queue := e.2.queue.map f, run := e.2.run.map fun r => { r with desc := f r.desc } }),
    frz := s.frz.put FrzSlot.init slot { z with
      queue := z.queue.map f, update := z.update.map fun u => { u with desc := f u.desc },
      drain := z.drain.map fun u => { u with desc := f u.desc },
      exporting := z.exporting.map fun u => { u with desc := f u.desc },
      restore := z.restore.map fun u => { u with desc := f u.desc } } }

/-- Bytes laid into sparse bytes. -/
def SMap.lay (m : SMap Byte) (a : Nat) (bs : List Byte) : SMap Byte := m.write 0 a bs

/-- Register words laid into sparse bytes at a stride. -/
def layRegs {w : Nat} (m : SMap Byte) (a n : Nat) (rs : SMap (BitVec w)) : SMap Byte :=
  rs.foldl (fun (m : SMap Byte) e => m.lay (a + n * e.1) (toBytes n e.2.toNat)) m

/-- The part of a set from 0x18_0000 to 0x18_C3FF of its save page. -/
def SetState.pageRegs (x : SetState) : SMap Byte :=
  let m1 := x.tabs.foldl (fun (m : SMap Byte) e => m.put 0 (0x180000 + e.1) e.2) x.mem
  let m2 := layRegs m1 0x188000 4 x.v
  let m3 := match x.fused with
    | some f => layRegs (layRegs m2 0x18A000 4 f.entryV) 0x18C180 16 f.entryP
    | none => m2
  layRegs (layRegs (layRegs m3 0x18C000 8 x.regs) 0x18C100 16 x.p) 0x18C200 8 x.c

/-- The tile queue, head first, and the promenade slots, over the bytes that stand for what the layout leaves open. -/
def SetState.pageWork (x : SetState) (base : SMap Byte) : SMap Byte :=
  let q := (x.queue.zip (List.range 64)).foldl (fun (m : SMap Byte) e => m.lay (64 * e.2) e.1.desc) base
  (x.proms.zip (List.range 16)).foldl (fun (m : SMap Byte) e => m.lay (0x1000 + 64 * e.2) e.1.desc) q

/-- Bytes of free values. -/
def State.freeRun (s : State) (n : Nat) : List Byte × State :=
  ((List.range n).map fun i => (Config.freeValue (s.free + i)).setWidth 8, { s with free := s.free + n })

/-- Writes a set's save page (R402); bytes that are not listed stay. What the layout lists without saying what it holds is free:
the 64 bytes at 0x18_C400, unused queue entries and slots, a running tile's progress, and the entry copies while no fused
sequence runs (DEDUCED, log entry 108). -/
def State.savePage (s : State) (slot routine : Nat) (x : SetState) : State :=
  let (st, fa, _, s1) := s.resolve 0 slot (s.recField slot 56 8 + 2 ^ 21 * routine) .w
  if s.recField slot 56 8 = 0 ∨ st ≠ .done ∨ fa.module ≠ s.self ∨ 1 < fa.space then s
  else
    let (st2, s2) := s1.guard s1.self (s1.ctxOf slot) fa.space fa.off (2 ^ 21) .store
    if st2 ≠ .done then s2
    else
      let (words, s3) := s2.freeRun 64
      let (copies, s4) := if x.fused.isSome then ([], s3) else s3.freeRun 0x2080
      let (work, s5) := s4.freeRun 0x1400
      let m1 := (x.pageRegs.lay 0x18A000 (copies.take 0x2000)).lay 0x18C180 (copies.drop 0x2000)
      (s5.blit fa.space fa.off 0x18C440 (m1.lay 0x18C400 words)).blit fa.space (fa.off + 0x18D000) 0x1400
        (x.pageWork ((List.range 0x1400).zip work))

/-- Saves a set's state for the context in a slot. -/
def State.saveSet (s : State) (slot n : Nat) : State :=
  let x := { s.setSt n with soft := false, hard := false, atPoint := false }
  let k := 1024 + x.routine
  let s1 := (s.renumber slot n k).savePage slot x.routine x
  s1.putSlot slot { s1.slot slot with saved := (s1.slot slot).saved.insert x.routine (x.renumber n k) }

/-- Gives a set the saved state of a routine set of a slot, or starts it fresh when that has never run (R400, R405). -/
def State.restoreSet (s : State) (slot routine n : Nat) : State :=
  match (s.slot slot).saved.find routine with
  | none => s.freshSet slot routine n
  | some y0 =>
    let x := s.setSt n
    let y := y0.renumber (1024 + routine) n
    let s1 := s.putSlot slot { s.slot slot with saved := (s.slot slot).saved.erase routine }
    s1.putSet n ({ y with
      slot := slot, routine := routine, eccFixed := x.eccFixed, arrFaults := x.arrFaults, err := [],
      taken := x.taken, given := x.given, nextId := max x.nextId y.nextId }.wake.alone n)

/-! ### Guests (R405 to R407) -/

/-- The set a request of a set comes from. -/
def Waiter.set? : Waiter → Option Nat
  | .reg n .. => some n
  | .posted n => some n
  | .prom n _ => some n
  | .tile n _ => some n
  | _ => none

/-- Evicts the guest of a lent set (R406): cut at once, its requests end, it is saved unless its slot is released, and the
owner goes on, or stops where its context has faulted. -/
def State.evict (s : State) (n : Nat) (save : Bool) : State :=
  match (s.setSt n).lentFrom with
  | none => s
  | some o =>
    let s1 := s.hardPreempt n
    let g := (s1.setSt n).slot
    let s2 := s1.abortSent fun q => decide (q.ctx = s1.ctxOf g ∧ q.waiter.set? = some n)
    let s3 := if save then s2.saveSet g n else s2
    let s4 := (s3.restoreOwner n).wrap CTX_EVICTIONS 0 0 1
    if (s4.slot o).faulted ∧ (s4.setSt n).run ≠ .inReset then s4.putSet n (s4.setSt n).halt else s4

/-- The sets that run a guest, or that an owner has lent. -/
def State.lentSets (s : State) (slot : Nat) : List Nat :=
  (s.sets.filter fun e => e.2.lentFrom.isSome && (decide (e.2.slot = slot) || decide (e.2.lentFrom = some slot))).map (·.1)

/-- An owner's awaited counter meets its condition, on a lent set. -/
def State.ownerWakes (s : State) (n o : Nat) : Bool :=
  match (s.slot o).saved.find (s.setSt n).routine with
  | some y => match y.wait with
    | some (k, v) => v.ule ((s.setSt n).ownerC.get 0 k)
    | none => false
  | none => false

/-- EVICTION (R406): a lent set whose owner's counter meets its condition, or that is to be evicted, goes back. -/
def execEviction (set : Fin 768) (us : BitVec 16) (s : State) : Res :=
  let x := s.setSt set.val
  ok (match x.lentFrom with
    | none => s
    | some o =>
      if s.ready && (x.evict || s.ownerWakes set.val o) then
        let s1 := s.evict set.val true
        s1.set CTX_EVICT_MAX_US (max (s1.get CTX_EVICT_MAX_US) us.toNat)
      else s)

/-- The entry of a slot's bubble map for a bubble (R404). -/
def State.bubbleEntry (s : State) (slot b : Nat) : Option (List Byte) := (s.slot slot).bubbles.find? fun e => decide (leAt e 0 2 = b)

/-- A guest slot that a LEND binds to an owner's bubble may take one of its routine sets. DEDUCED, log entry 132. -/
def State.guestFor (s : State) (o b r : Nat) : Option Nat :=
  (List.range 32).find? fun g =>
    decide (s.getF CTX_S_LEND_VALID g 0 = 1 ∧ s.getF CTX_S_LENDER_SLOT g 0 = o ∧ s.getF CTX_S_LEND_BUBBLE g 0 = b
      ∧ s.getF CTX_S_STATE g 0 = 2 ∧ (s.slot g).faulted = false ∧ s.recField g 56 8 ≠ 0)
    && bit (s.slot g).bitmap r && ((s.slot g).setMap.find r).isNone && !s.fencedSlot g
    && (((s.slot g).saved.find r).isSome || decide (r ∉ (s.slot g).started))

/-- A set stands at the CWAIT that follows its BUBBLE, with nothing under way. -/
def SetState.inBubble (x : SetState) : Option Nat :=
  match x.bubble, x.wait with
  | some (b, at_), some _ =>
    if x.run = .waiting ∧ x.pc.toNat = at_ + 8 ∧ x.queue = [] ∧ x.proms = [] ∧ x.tiles = [] ∧ x.fused = none
      ∧ x.lentFrom = none ∧ x.soft = false ∧ x.hard = false ∧ x.atPoint = false then some b else none
  | _, _ => none

/-- SET_LENT (R405): a set that stands in a lendable bubble is saved and runs the guest. -/
def execSetLent (set : Fin 768) (s : State) : Res :=
  let n := set.val
  let x := s.setSt n
  ok (match x.inBubble with
    | none => s
    | some b =>
      let o := x.slot
      if !s.ready || s.moves n || s.fencedSlot o || decide (s.recField o 56 8 = 0) || !((s.bubbleEntry o b).any fun e => bit (leAt e 2 1) 0) then s
      else match s.guestFor o b x.routine with
      | none => s
      | some g =>
        let s1 := (s.saveSet o n).restoreSet g x.routine n
        let s2 := s1.putSet n { s1.setSt n with lentFrom := some o, ownerC := x.c, evict := false }
        let s3 := s2.putSlot g { s2.slot g with setMap := (s2.slot g).setMap.insert x.routine n }
        s3.setF CTX_S_LENT_NOW g 0 (s3.getF CTX_S_LENT_NOW g 0 + 1))

end Sys2Proof.Machine
end

