-- ==== Sys2Proof/Machine/Contexts.lean ====
section
/-! DEFINITION. Contexts (R393 to R410): admission with its checks, and the commands of the CTX block. -/

namespace Sys2Proof.Machine

/-! ### Admission (R395, R396, R82 to R85) -/

/-- An admission check: it works on the state with the context bound for the attempt, and stops with a status and an
ERR_ITEM. -/
abbrev Adm := ExceptT (Status × Nat) (StateM State)

/-- A check of a step fails at an entry. -/
def admFail {α : Type} (st : Status) (step item : Nat) : Adm α := throw (st, step * 4096 + item % 4096)

/-- A check that must hold. -/
def admNeed (b : Bool) (st : Status) (step item : Nat) : Adm Unit := if b then pure () else admFail st step item

/-- A reading that a check needs: its own failure ends the admission. -/
def admGet {α : Type} (step item : Nat) (f : State → Status × α × State) : Adm α := do
  let (st, a, s) := f (← get)
  set s
  if st = .done then pure a else admFail st step item

/-- The entries of a table of some size. -/
def tableOf (size : Nat) (bs : List Byte) : List (List Byte × Nat) :=
  (List.range (bs.length / size)).map fun i => ((bs.drop (size * i)).take size, i)

/-- Reads a table by physical offset. -/
def admPhys (step off size n : Nat) : Adm (List (List Byte × Nat)) := do
  let bs ← admGet step 0 fun s => s.memRead 0 2 off (size * n)
  pure (tableOf size bs)

/-- Reads a table by context address. -/
def admCtx (slot step a size n : Nat) : Adm (List (List Byte × Nat)) := do
  let bs ← admGet step 0 fun s => s.ctxBytes slot 2 1 a (size * n)
  pure (tableOf size bs)

/-- Bytes are all zero. -/
def zeros (bs : List Byte) : Bool := bs.all (· = 0)

/-- The form of an admission record (R395). -/
def recordForm (r : List Byte) : Bool :=
  decide (leAt r 1 1 < 2 ∧ 1 ≤ leAt r 2 1 ∧ leAt r 2 1 ≤ 100 ∧ leAt r 3 1 ≤ 63 ∧ leAt r 120 8 = 0 ∧ leAt r 108 2 ≤ 4096
    ∧ leAt r 110 2 ≤ 256 ∧ leAt r 112 2 ≤ 768 ∧ leAt r 114 2 ≤ 64 ∧ leAt r 3 1 + leAt r 114 2 ≤ 64 ∧ leAt r 118 2 ≤ 1024)
  && (!bit (leAt r 1 1) 0 || decide (leAt r 112 2 = 0 ∧ leAt r 118 2 = 0))

/-- The link towards a module has every feature of a mask; where no link leads there, none is used. -/
def State.featuresTo (s : State) (features m : Nat) : Bool :=
  if m = s.self then true
  else match (s.route m).1 with
    | none => true
    | some h => (setBitsOf 64 features).all fun b => s.hopHas h 1 b

/-- A span entry's own form (R267, R268). -/
def State.spanForm (s : State) (e : List Byte) : Bool :=
  let x := spanOf e
  decide (x.first % 2 ^ 21 = 0 ∧ x.first < 2 ^ 56 ∧ x.rights < 16 ∧ leAt e 13 3 = 0 ∧ leAt e 24 8 = 0
    ∧ x.base % 2 ^ 21 = 0 ∧ x.base < 2 ^ 62)
  && (decide (x.pages = 0)
    || (decide (x.first + 2 ^ 21 * x.pages ≤ 2 ^ 56 ∧ x.base % 2 ^ 48 + 2 ^ 21 * x.pages ≤ 2 ^ 48 ∧ bits x.base 49 48 < 2)
      && (!bit x.rights 3 || decide (bits x.base 61 50 = s.self ∧ bits x.base 49 48 = 0))))

/-- The enabled spans rise and do not overlap: where the last one ended, each begins or later. The first that does not. -/
def spanOrder : Nat → List (List Byte × Nat) → Option Nat
  | _, [] => none
  | last, (e, i) :: es =>
    let x := spanOf e
    if x.pages = 0 then spanOrder last es
    else if x.first < last then some i
    else spanOrder (x.first + 2 ^ 21 * x.pages) es

/-- The pages of a page range, as pages of a tier. -/
def rangePages (e : List Byte) : List Nat := (List.range (leAt e 4 2)).map (· + leAt e 0 4)

/-- Binds the pages of a range to a context. -/
def State.ownPages (s : State) (tier ctx : Nat) (ps : List Nat) : State :=
  let put (m : SMap Nat) : SMap Nat := ps.foldl (fun (m : SMap Nat) p => m.insert p ctx) m
  if tier = 0 then { s with ctx := { s.ctx with ownerA := put s.ctx.ownerA } }
  else { s with ctx := { s.ctx with ownerB := put s.ctx.ownerB } }

/-- Step 3: every page exists and is unowned; a page named twice is owned the second time. -/
def admPages (ctx : Nat) (es : List (List Byte × Nat)) : Adm Unit :=
  es.forM fun (e, i) => do
    let s ← get
    let tier := leAt e 6 1
    admNeed (decide (tier < 2 ∧ leAt e 7 1 = 0)) .illegal 3 i
    admNeed (decide (2 ^ 21 * (leAt e 0 4 + leAt e 4 2) ≤ s.tierSize tier ∨ leAt e 4 2 = 0)) .access 3 i
    admNeed ((rangePages e).all fun p => (s.ownerOf tier p).isNone) .noResource 3 i
    set (s.ownPages tier ctx (rangePages e))

/-- A crew entry's form (R82, R83). -/
def crewForm (e : List Byte) : Bool :=
  decide (leAt e 2 1 < 4 ∧ leAt e 3 1 ≤ 16 ∧ leAt e 4 1 % 0x80 < 4) && zeros ((e.drop 5).take 11)
  && (List.range (16 - leAt e 3 1)).all fun j => decide (leAt e (16 + 2 * (leAt e 3 1 + j)) 2 = 0xFFFF)

/-- A crew entry is a SPARES entry. -/
def isSpares (e : List Byte) : Bool := bit (leAt e 4 1) 7

/-- A crew check fails: a CREW_REJECT record names the crew and the set (R83). -/
def crewReject {α : Type} (ctx : Nat) (e : List Byte) (i r : Nat) (st : Status) : Adm α := do
  set ((← get).emit RT_CREW_REJECT .control 1 (r % 4096) ctx [leAt e 0 2, r, st.num])
  admFail st 5 i

/-- The checks of the crew table's form: every crew's members are sets of the routine, on its die, in no other crew. -/
def admCrews (ctx bitmap : Nat) : List Nat → List Nat → List (List Byte × Nat) → Adm Unit
  | _, _, [] => pure ()
  | ids, seen, (e, i) :: es => do
    let ms := crewMembers e
    if !crewForm e then crewReject ctx e i (leAt e 16 2) .illegal
    else if ms = [] ∨ isSpares e = true then admCrews ctx bitmap ids seen es
    else if 767 < leAt e 0 2 ∨ leAt e 0 2 ∈ ids then crewReject ctx e i (leAt e 16 2) .illegal
    else match ms.find? fun r => decide (767 < r ∨ r / 192 ≠ leAt e 2 1 ∨ r ∈ seen) || !bit bitmap r || hasTwice ms with
    | some r => crewReject ctx e i r .illegal
    | none => admCrews ctx bitmap (leAt e 0 2 :: ids) (ms ++ seen) es

/-- A set is free to bind. -/
def State.setFree (s : State) (n : Nat) : Bool := s.setOk n && decide ((s.setSt n).run = .unbound)

/-- The set for each routine set of the bitmap (R83, R84): its own number, or a spare of its crew's die where that set is
retired and may be substituted. -/
def admSets (ctx bitmap : Nat) (table : List (List Byte × Nat)) : SMap Nat → List Nat → Adm (SMap Nat)
  | got, [] => pure got
  | got, r :: rs => do
    let s ← get
    if s.setFree r then admSets ctx bitmap table (got.insert r r) rs
    else match table.find? fun c => !isSpares c.1 && decide (r ∈ crewMembers c.1) with
    | none => admFail .noResource 5 r
    | some (c, i) =>
      let spares := table.flatMap fun x => if isSpares x.1 ∧ leAt x.1 2 1 = leAt c 2 1 then crewMembers x.1 else []
      let fit (n : Nat) : Bool := s.setFree n && !bit bitmap n && !got.any fun e => decide (e.2 = n)
      if s.setOk r ∨ bit (leAt c 4 1) 1 = false then crewReject ctx c i r .noResource
      else match spares.find? fit with
      | none => crewReject ctx c i r .noResource
      | some n => admSets ctx bitmap table (got.insert r n) rs

/-- Step 5. -/
def admStep5 (slot ctx : Nat) (r : List Byte) : Adm (Nat × SMap Nat × List (List Byte)) := do
  let bs ← admGet 5 0 fun s => s.ctxBytes slot 2 1 (leAt r 40 8) 96
  let bitmap := ofBytes bs
  if bit (leAt r 1 1) 0 then pure (bitmap, [], [])
  else do
    let table ← admCtx slot 5 (leAt r 80 8) 48 (leAt r 112 2)
    admCrews ctx bitmap [] [] table
    let on := table.filter fun e => decide (leAt e.1 3 1 ≠ 0)
    let sets ← admSets ctx bitmap on [] (setBitsOf 768 bitmap)
    sets.forM fun (e : Nat × Nat) => do
      let _ ← admGet 5 e.1 fun s => s.entryPc slot e.1
      pure ()
    pure (bitmap, sets, (on.filter fun e => !isSpares e.1).map (·.1))

/-- The form of an import entry (R272). -/
def importForm (e : List Byte) : Bool :=
  decide (leAt e 0 2 ≤ 4095 ∧ (leAt e 2 2 = 0 ∨ leAt e 0 2 + leAt e 2 2 ≤ 4096) ∧ leAt e 6 1 < 16 ∧ leAt e 7 1 < 4 ∧ leAt e 8 8 = 0)

/-- The words of a group record. -/
def groupWords (e : List Byte) : List Nat := (List.range 16).map fun k => leAt e (4 * k) 4

/-- Step 6: the import table, the exponent directory and the group records, whose members' links must have the features
too (step 2). -/
def admStep6 (slot ctx : Nat) (r : List Byte) : Adm (List (List Byte) × List (Nat × Nat) × List (List Byte × Nat)) := do
  let imports ← admCtx slot 6 (leAt r 64 8) 16 (leAt r 110 2)
  imports.forM fun (e, i) => admNeed (importForm e) .illegal 6 i
  let dir ← admCtx slot 6 (leAt r 72 8) 16 4
  dir.forM fun (e, i) => admNeed (decide (leAt e 8 4 ≤ 65536 ∧ leAt e 12 4 = 0)) .illegal 6 i
  let groups ← admCtx slot 6 (leAt r 88 8) 64 (leAt r 114 2)
  groups.forM fun (e, i) => do
    let s ← get
    let g := leAt r 3 1 + i
    let c := s.groupStore g (groupWords e)
    admNeed (!s.groupOn g) .noResource 6 i
    admNeed (decide (leAt e 4 2 = ctx)) .illegal 6 i
    admNeed (decide (c.groupCheck g = .done)) (c.groupCheck g) 6 i
    admNeed (!c.groupOn g || (List.range (c.memberCount g)).all fun m => s.featuresTo (leAt r 8 8) (c.member g m)) .version 2 i
  pure (imports.map (·.1), dir.map fun e => (leAt e.1 0 8, leAt e.1 8 4), groups)

/-- A tier C extent overlaps that of another slot. -/
def State.extentTaken (s : State) (slot first n : Nat) : Bool :=
  (List.range 32).any fun j =>
    let f := s.getF CTX_S_EXT_FIRST j 0
    let k := s.getF CTX_S_EXT_BLOCKS j 0
    decide (j ≠ slot ∧ k ≠ 0 ∧ f < first + n ∧ first < f + k)

/-- The form of a bubble map (R404): its reserved bits are zero, and no bubble is named twice. -/
def bubbleForm : List Nat → List (List Byte × Nat) → Option Nat
  | _, [] => none
  | seen, (e, i) :: es =>
    if leAt e 2 1 < 2 ∧ leAt e 3 5 = 0 ∧ leAt e 0 2 ∉ seen then bubbleForm (leAt e 0 2 :: seen) es else some i

/-- The checks of R396 in their order, and with the last the binding itself. DEDUCED, log entry 131. -/
def admission (slot ctx arg tcFirst : Nat) : Adm Unit := do
  let s0 ← get
  admNeed (decide (ctx ≠ 0 ∧ ctx ≠ 0xFFFF ∧ slot ≠ 0 ∧ s0.getF CTX_S_STATE slot 0 = 0 ∧ s0.slotOf ctx = none)) .illegal 0 0
  let r ← admGet 1 0 fun s => s.memRead 0 2 arg 128
  admNeed (decide (leAt r 0 1 ≠ 2 ∧ leAt r 0 1 ≠ 3)) .version 1 0
  admNeed (decide (leAt r 0 1 = 1) && recordForm r) .illegal 1 0
  let spans ← admPhys 2 (leAt r 24 8) 32 (leAt r 108 2)
  match spans.find? fun (e : List Byte × Nat) => decide ((spanOf e.1).pages ≠ 0) && !s0.featuresTo (leAt r 8 8) (bits (spanOf e.1).base 61 50) with
  | some e => admFail .version 2 e.2
  | none => pure ()
  let pages ← admPhys 3 (leAt r 32 8) 8 (leAt r 116 2)
  admPages ctx pages
  modify fun s => ((s.putSlot slot { Slot.init with record := r }).setF CTX_S_CONTEXT slot 0 ctx).setF CTX_S_STATE slot 0 1
  spans.forM fun (e, i) => admNeed (s0.spanForm e) .illegal 4 i
  match spanOrder 0 spans with
  | some i => admFail .illegal 4 i
  | none => pure ()
  let (bitmap, sets, crews) ← admStep5 slot ctx r
  let (imports, dir, groups) ← admStep6 slot ctx r
  let tc := leAt r 104 4
  admNeed (decide (tc = 0 ∨ tcFirst + tc ≤ s0.get MEM_C_BLOCKS)) .access 7 0
  admNeed (decide (tc = 0) || !s0.extentTaken slot tcFirst tc) .noResource 7 0
  let save := leAt r 56 8
  admNeed (decide (save % 2 ^ 21 = 0)) .illegal 8 0
  let s8 ← get
  match (if save = 0 then none else
      (setBitsOf 768 bitmap).find? fun k => !s8.translates slot 1 .w 2 (save + 2 ^ 21 * k) (2 ^ 21)) with
  | some k => admFail .access 8 k
  | none => pure ()
  let bubbles ← admCtx slot 9 (leAt r 96 8) 8 (leAt r 118 2)
  match bubbleForm [] bubbles with
  | some i => admFail .illegal 9 i
  | none => pure ()
  let s ← get
  let count (tier : Nat) : Nat := (pages.map fun e => if leAt e.1 6 1 = tier then leAt e.1 4 2 else 0).sum
  let i : Slot := { Slot.init with
    record := r, setMap := sets, imports := imports, bubbles := bubbles.map (·.1), crews := crews, bitmap := bitmap, expDir := dir }
  let s1 := (((s.putSlot slot i).setF CTX_S_STATE slot 0 2).setF CTX_S_GUEST slot 0 (leAt r 1 1)).setF CTX_S_JOB slot 0 (leAt r 4 4)
  let s2 := ((s1.setF CTX_S_SETS slot 0 sets.length).setF CTX_S_LINK_SHARE slot 0 (leAt r 2 1)).set64 CTX_S_RECORD_LO CTX_S_RECORD_HI slot arg
  let s3 := (s2.setF CTX_S_EXT_FIRST slot 0 (if tc = 0 then 0 else tcFirst)).setF CTX_S_EXT_BLOCKS slot 0 tc
  let s4 := ((s3.setF CTX_S_PAGES_A slot 0 (count 0)).setF CTX_S_PAGES_B slot 0 (count 1)).wrap CTX_SLOTS_BOUND 0 0 1
  let s5 := sets.foldl (fun (s : State) (e : Nat × Nat) => s.freshSet slot e.1 e.2) s4
  set ((groups.foldl (fun (s : State) e => s.groupCommit (leAt r 3 1 + e.2) (groupWords e.1)) s5).formCrews slot)

/-- The words of the CTX block that show a slot, as they read in another state. -/
def State.slotWords (s : State) (slot : Nat) (from_ : State) : State :=
  (List.range 16).foldl (fun (s : State) k =>
    s.putWord (CTX_S_CONTEXT.addr slot 0 + 4 * k) (from_.word (CTX_S_CONTEXT.addr slot 0 + 4 * k))) s

/-- A CTX command ends with a status (R394). -/
def State.ctxEnd (s : State) (st : Status) (item : Nat) : State :=
  ((s.set CTX_BUSY 0).set CTX_RESULT st.num).set CTX_ERR_ITEM item

/-- ADMIT (R396): every check, and the binding; a failure binds nothing. -/
def State.admitSlot (s : State) : State :=
  let slot := s.get CTX_CMD_SLOT
  let ctx := s.get CTX_CMD_CONTEXT
  match (admission slot ctx (s.get64 CTX_CMD_ARG_LO CTX_CMD_ARG_HI 0) (s.get CTX_TC_FIRST)).run.run s with
  | (.ok _, t) => t.ctxEnd .done 0
  | (.error (st, item), t) =>
    let undone := if item / 4096 = 0 then t else (({ t with ctx := s.ctx }).slotWords slot s).xlateEmpty slot
    (undone.ctxEnd st item).emit RT_CTX_REJECT .control 0 0 ctx [st.num, item]

/-! ### Lending (R394, R405, R406) -/

/-- A slot holds a context other than the Caller's, bound. -/
def State.bound (s : State) (slot : Nat) : Bool := decide (slot ≠ 0 ∧ s.getF CTX_S_STATE slot 0 = 2)

/-- LEND (DEDUCED, log entry 67): the guest and the owner are bound and of their kinds, the bubble is in the owner's map, and no LEND
of this guest is in force. -/
def State.lend (s : State) : State :=
  let g := s.get CTX_CMD_SLOT
  let arg := s.get64 CTX_CMD_ARG_LO CTX_CMD_ARG_HI 0
  let o := arg % 32
  let b := bits arg 31 16
  if !s.bound g || !s.bound o then s.ctxEnd .access 0
  else if s.getF CTX_S_GUEST g 0 = 0 ∨ s.getF CTX_S_GUEST o 0 = 1 ∨ (s.bubbleEntry o b).isNone = true then s.ctxEnd .illegal 0
  else if s.getF CTX_S_LEND_VALID g 0 = 1 then s.ctxEnd .noResource 0
  else (((s.setF CTX_S_LENDER_SLOT g 0 o).setF CTX_S_LEND_BUBBLE g 0 b).setF CTX_S_LEND_VALID g 0 1).ctxEnd .done 0

/-- The sets of a slot that are lent, either way, go back (R406). -/
def State.evictAll (s : State) (slot : Nat) (save : Bool) : State :=
  (s.lentSets slot).foldl (fun (s : State) n => s.evict n save) s

/-- UNLEND. -/
def State.unlend (s : State) : State :=
  let g := s.get CTX_CMD_SLOT
  if !s.bound g then s.ctxEnd .access 0
  else if s.getF CTX_S_GUEST g 0 = 0 then s.ctxEnd .illegal 0
  else ((s.setF CTX_S_LEND_VALID g 0 0).evictAll g true).ctxEnd .done 0

/-! ### Re-binding and release (R399 to R401) -/

/-- The entries of a re-bind list, up to the first of KIND 0. -/
def State.readList (s : State) : Nat → Nat → Status × List (List Byte) × State
  | 0, _ => (.access, [], s)
  | fuel + 1, o =>
    let (st, e, s1) := s.memRead 0 2 o 16
    if st ≠ .done then (st, [], s1)
    else if leAt e 0 1 = 0 then (.done, [], s1)
    else
      let (st2, es, s2) := s1.readList fuel (o + 16)
      (st2, e :: es, s2)

/-- The sets, pages, blocks or entries an entry names. -/
def listed (e : List Byte) : List Nat := (List.range (leAt e 8 4)).map (· + leAt e 4 4)

/-- The physical sets that a list moves. -/
def listSets (es : List (List Byte)) : List Nat := es.flatMap fun e => if leAt e 0 1 = 1 then listed e else []

/-- The codes of an entry are valid. DEDUCED, log entry 133. -/
def entryCodes (e : List Byte) : Bool :=
  let kind := leAt e 0 1
  let toSlot := leAt e 1 1
  decide (kind ≤ 5 ∧ ((1 ≤ toSlot ∧ toSlot ≤ 31) ∨ (toSlot = 0xFF ∧ kind ≠ 5)) ∧ leAt e 2 1 < 2 ∧ (kind = 2 ∨ leAt e 2 1 = 0) ∧ leAt e 3 1 = 0 ∧ leAt e 14 2 = 0)
  && (decide (kind ≠ 5) || decide (1 ≤ leAt e 4 4 ∧ leAt e 4 4 ≤ 100))
  && (decide (kind ≠ 1 ∨ toSlot = 0xFF) || decide (leAt e 12 2 + leAt e 8 4 ≤ 768))

/-- What an entry names is bound to a slot. -/
def State.entryOwned (s : State) (slot : Nat) (e : List Byte) : Bool :=
  let first := leAt e 4 4
  let n := leAt e 8 4
  match leAt e 0 1 with
  | 1 => decide (first + n ≤ 768) && (listed e).all fun m => decide (m ∈ s.setsOf slot)
  | 2 => decide (2 ^ 21 * (first + n) ≤ s.tierSize (leAt e 2 1)) && (listed e).all fun p => decide (s.ownerOf (leAt e 2 1) p = some (s.ctxOf slot))
  | 3 => decide (s.getF CTX_S_EXT_FIRST slot 0 ≤ first ∧ first + n ≤ s.getF CTX_S_EXT_FIRST slot 0 + s.getF CTX_S_EXT_BLOCKS slot 0)
  | 4 => decide (first + n ≤ 64) && (listed e).all fun g => decide (s.getF RND_E_CONTEXT g 0 = s.ctxOf slot)
  | _ => true

/-- What an entry moves can be received (R400, R403): by a bound slot that is no guest's; a set needs a save page, and a
routine set that no other set serves; a piece of an extent leaves at one of its ends and joins at one (DEDUCED, log entry 68). -/
def State.entryTaken (s : State) (slot : Nat) (moving : List Nat) (e : List Byte) : Bool :=
  let toSlot := leAt e 1 1
  let first := leAt e 4 4
  let n := leAt e 8 4
  (decide (toSlot = 0xFF) || (s.bound toSlot && decide (s.getF CTX_S_GUEST toSlot 0 = 0)))
  && (match leAt e 0 1 with
    | 1 => decide (s.recField slot 56 8 ≠ 0)
        && (decide (toSlot = 0xFF) || (List.range n).all fun k => match (s.slot toSlot).setMap.find (leAt e 12 2 + k) with
          | none => true
          | some m => decide (toSlot = slot ∧ m ∈ moving))
    | 3 =>
      let f := s.getF CTX_S_EXT_FIRST slot 0
      let k := s.getF CTX_S_EXT_BLOCKS slot 0
      let tf := s.getF CTX_S_EXT_FIRST toSlot 0
      let tk := s.getF CTX_S_EXT_BLOCKS toSlot 0
      decide (first = f ∨ first + n = f + k) && decide (toSlot = 0xFF ∨ tk = 0 ∨ first = tf + tk ∨ first + n = tf)
    | _ => true)

/-- The checks of a re-bind list (R400), in list order: the first entry that fails. -/
def State.checkList (s : State) (slot : Nat) (all : List Nat) : List (List Byte) → Status
  | [] => .done
  | e :: es =>
    if !entryCodes e then .illegal
    else if leAt e 8 4 = 0 then s.checkList slot all es
    else if !s.entryOwned slot e then .access
    else if !s.entryTaken slot all e then .noResource
    else s.checkList slot all es

/-- A command that takes time begins: the moving sets head for their pre-emption points. -/
def State.jobBegin (s : State) (cmd slot : Nat) (es : List (List Byte)) (moving : List Nat) : State :=
  let pages := es.flatMap fun e => if leAt e 0 1 = 2 then (listed e).map (· + 2 ^ 20 * leAt e 2 1) else []
  let fenced := pages.foldl (fun (m : SMap Bool) p => m.put false p true) s.ctx.fenced
  let job : CtxJob := ⟨cmd, slot, es, moving⟩
  let s1 : State := { s with ctx := { s.ctx with fenced := fenced, job := some job } }
  let s2 := (s1.set CTX_BUSY 1).setF CTX_S_STATE slot 0 (if cmd = 2 then 3 else 4)
  moving.foldl (fun (s : State) n => s.softPreempt n) s2

/-- REBIND (R400): the whole list is checked first. -/
def State.rebind (s : State) : State :=
  let slot := s.get CTX_CMD_SLOT
  let arg := s.get64 CTX_CMD_ARG_LO CTX_CMD_ARG_HI 0
  if !s.bound slot then s.ctxEnd .access 0
  else
    let (st, es, s1) := s.readList ((s.tierSize 0 - arg) / 16 + 1) arg
    let st2 := if st = .done then s1.checkList slot (listSets es) es else st
    if st2 ≠ .done then s1.ctxEnd st2 0
    else
      let moving := listSets (es.filter fun e => decide (leAt e 8 4 ≠ 0))
      let s2 := moving.foldl (fun (s : State) n => s.evict n true) s1
      s2.jobBegin 2 slot (es.filter fun e => decide (leAt e 8 4 ≠ 0)) moving

/-- RELEASE (R401): the context is fenced, lent sets go back, a guest's without being saved. -/
def State.release (s : State) : State :=
  let slot := s.get CTX_CMD_SLOT
  if !s.bound slot then s.ctxEnd .access 0
  else
    let s1 := s.setBit HNG_FENCED_SLOTS 0 0 slot true
    let s2 := s1.emit RT_FENCE .management 11 0 (s1.ctxOf slot) [3, slot]
    let s3 := (List.range 32).foldl (fun (s : State) g =>
      if g = slot ∨ s.getF CTX_S_LENDER_SLOT g 0 = slot then s.setF CTX_S_LEND_VALID g 0 0 else s) s2
    let s4 := s3.evictAll slot (decide (s3.getF CTX_S_GUEST slot 0 = 0))
    s4.jobBegin 3 slot [] (s4.setsOf slot)

/-- The effect of a write to CTX.CMD (R394): discarded while BUSY, and for other codes. -/
def State.ctxCmd (s : State) (v : Nat) : State :=
  if s.get CTX_BUSY = 1 then s
  else match v with
  | 1 => s.admitSlot
  | 2 => s.rebind
  | 3 => s.release
  | 4 => s.lend
  | 5 => s.unlend
  | _ => s

/-- ADMIT (R396). -/
def execCtxAdmit (p : Path) (s : State) : Res :=
  ok (s.via p (CTX_CMD.addr 0 0) fun s => s.ctxCmd 1)

/-- REBIND (R400). -/
def execRebind (p : Path) (s : State) : Res :=
  ok (s.via p (CTX_CMD.addr 0 0) fun s => s.ctxCmd 2)

/-- RELEASE (R401). -/
def execRelease (p : Path) (s : State) : Res :=
  ok (s.via p (CTX_CMD.addr 0 0) fun s => s.ctxCmd 3)

/-- LEND (R405). -/
def execLend (p : Path) (s : State) : Res :=
  ok (s.via p (CTX_CMD.addr 0 0) fun s => s.ctxCmd 4)

/-- UNLEND (R406). -/
def execUnlend (p : Path) (s : State) : Res :=
  ok (s.via p (CTX_CMD.addr 0 0) fun s => s.ctxCmd 5)

/-- REBIND_PREEMPT_TIMEOUT (R400): a moving set that has not reached its point is pre-empted hard. -/
def execRebindPreemptTimeout (s : State) : Res :=
  ok (match s.ctx.job with
    | none => s
    | some j => j.moving.foldl (fun (s : State) n => s.hardPreempt n) s)

end Sys2Proof.Machine
end

