-- ==== Sys2Proof/Machine/Rounds.lean ====
section
/-! DEFINITION. Rounds (R362 to R390): the shape of a round, what a member sends and does with what it receives, the checks,
and how a round ends. Messages are presented as accepted: once, and in E2E_SEQ order within their VC. What a round still
needs of the chunks it holds is kept with it, and the bytes it writes to the group's buffer (R365) are written there too. -/

namespace Sys2Proof.Machine

/-! ### The shape of a round (R366 to R373) -/

/-- The kind of round. -/
def RoundRun.op (r : RoundRun) : Nat := leAt r.desc.desc 4 1
/-- Whether it carries WA160. -/
def RoundRun.wide (r : RoundRun) : Bool := bit (leAt r.desc.desc 2 2) 1
/-- Whether chunks are released early. -/
def RoundRun.early (r : RoundRun) : Bool := bit (leAt r.desc.desc 2 2) 0
/-- A reducing kind. -/
def reducing (op : Nat) : Bool := decide (op = 1 ∨ op = 2 ∨ op = 6)
/-- A variable-size kind. -/
def variable_ (op : Nat) : Bool := decide (op = 5 ∨ op = 6)
/-- The transport format, by its code in FMT. -/
def RoundRun.fmt (r : RoundRun) : Nat := if reducing r.op then (if r.wide then 2 else 1) else 3
/-- The bytes of a block of a format, by the codes of SRC_FMT and DST_FMT. -/
def fmtBytes : Nat → Nat
  | 0 => 384
  | 2 => 1280
  | _ => 256
/-- The bytes of a block in transport. -/
def RoundRun.size (r : RoundRun) : Nat := fmtBytes r.fmt

/-- A member's own index. -/
def State.me (s : State) (g : Nat) : Nat := s.getF RND_E_SELF g 0
/-- The size of an axis. -/
def State.axisSize (s : State) (g a : Nat) : Nat := (s.axisSizes g).getD a 1
/-- How far apart the indices of neighbours on an axis lie. -/
def State.stride (s : State) (g a : Nat) : Nat := ((s.axisSizes g).drop (a + 1)).foldl (· * ·) 1
/-- A member's coordinate on an axis. -/
def State.coord (s : State) (g m a : Nat) : Nat := m / s.stride g a % max 1 (s.axisSize g a)
/-- The member at a ring position of this member's ring along an axis. -/
def State.ringMember (s : State) (g a p : Nat) : Nat :=
  s.me g - s.coord g (s.me g) a * s.stride g a + p % max 1 (s.axisSize g a) * s.stride g a
/-- The successor on an axis. -/
def State.succOn (s : State) (g a : Nat) : Nat := s.ringMember g a (s.coord g (s.me g) a + 1)
/-- The predecessor on an axis. -/
def State.predOn (s : State) (g a : Nat) : Nat := s.ringMember g a (s.coord g (s.me g) a + s.axisSize g a - 1)

/-- The first block of member m's final range (R370). -/
def State.firstOf (s : State) (g : Nat) (r : RoundRun) (m : Nat) : Nat :=
  let b := leAt r.desc.desc 32 4
  let n := max 1 (s.memberCount g)
  if variable_ r.op then ((List.range m).map (r.counts.get 0)).sum
  else if r.op = 3 then m * b
  else m * (b / n) + min m (b % n)

/-- The round's total. -/
def State.totalOf (s : State) (g : Nat) (r : RoundRun) : Nat := s.firstOf g r (s.memberCount g)

/-- The stages of a round (R371, R379). -/
def State.stagesOf (s : State) (g op : Nat) : List (Nat × Nat) :=
  let up := List.range (s.getF RND_E_AXES g 0)
  (if variable_ op then up.reverse.map fun a => (3, a) else [])
  ++ (if reducing op then up.map fun a => (0, a) else [])
  ++ (if op = 1 ∨ op = 3 ∨ op = 5 then up.reverse.map fun a => (1, a) else [])
  ++ (if op = 4 then up.map fun a => (2, a) else [])

/-- The first member of shard v of an axis, and how many members it covers. -/
def State.shardMembers (s : State) (g a v : Nat) : Nat × Nat :=
  let st := s.stride g a
  let n := max 1 (s.axisSize g a)
  (s.me g / (st * n) * (st * n) + v * st, st)

/-- The blocks a shard covers, as first and number: a broadcast moves the whole. -/
def State.shard (s : State) (g : Nat) (r : RoundRun) (kind a v : Nat) : Nat × Nat :=
  if kind = 2 then (0, s.totalOf g r)
  else
    let (m, k) := s.shardMembers g a v
    (s.firstOf g r m, s.firstOf g r (m + k) - s.firstOf g r m)

/-- The chunks of some blocks (R373). -/
def State.chunkCount (s : State) (g n : Nat) : Nat :=
  let c := max 1 (s.getF RND_E_CHUNK_BLOCKS g 0)
  max 1 ((n + c - 1) / c)

/-- The distance of this member from the holder on its ring of a broadcast stage; none on a ring without one (R372).
DEDUCED, log entry 134. -/
def State.bcastDist (s : State) (g : Nat) (r : RoundRun) (a : Nat) : Option Nat :=
  let root := leAt r.desc.desc 14 2
  let n := s.axisSize g a
  if ((List.range 4).filter (a < ·)).all fun j => decide (s.coord g (s.me g) j = s.coord g root j) then
    some ((s.coord g (s.me g) a + n - s.coord g root a) % max 1 n)
  else none

/-- The steps of a stage at which this member sends, as (step, shard). -/
def State.sendSteps (s : State) (g : Nat) (r : RoundRun) (kind a : Nat) : List (Nat × Nat) :=
  let n := s.axisSize g a
  let p := s.coord g (s.me g) a
  match kind with
  | 0 => (List.range (n - 1)).map fun t => (t, (p + 2 * n - 1 - t) % n)
  | 2 => match s.bcastDist g r a with
    | some d => if d + 1 < n then [(d, 0)] else []
    | none => []
  | _ => (List.range (n - 1)).map fun t => (t, (p + n - t) % n)

/-- The steps at which it receives. -/
def State.recvSteps (s : State) (g : Nat) (r : RoundRun) (kind a : Nat) : List (Nat × Nat) :=
  let n := s.axisSize g a
  let p := s.coord g (s.me g) a
  match kind with
  | 0 => (List.range (n - 1)).map fun t => (t, (p + 2 * n - 2 - t) % n)
  | 2 => match s.bcastDist g r a with
    | some d => if d = 0 then [] else [(d - 1, 0)]
    | none => []
  | _ => (List.range (n - 1)).map fun t => (t, (p + 2 * n - 1 - t) % n)

/-- The chunks of some steps in order, each with its first block and number of blocks. -/
def State.chunks (s : State) (g : Nat) (r : RoundRun) (kind a : Nat) (steps : List (Nat × Nat)) : List (ChunkId × Nat × Nat) :=
  steps.flatMap fun (t, v) =>
    if kind = 3 then [(ChunkId.mk kind a t 0, 0, 0)]
    else
      let (first, n) := s.shard g r kind a v
      let c := max 1 (s.getF RND_E_CHUNK_BLOCKS g 0)
      (List.range (s.chunkCount g n)).map fun k => (ChunkId.mk kind a t k, first + k * c, min c (n - k * c))

/-- The chunks this member sends in a stage. -/
def State.sends (s : State) (g : Nat) (r : RoundRun) (st : Nat × Nat) : List (ChunkId × Nat × Nat) :=
  s.chunks g r st.1 st.2 (s.sendSteps g r st.1 st.2)

/-- The chunks it receives. -/
def State.recvs (s : State) (g : Nat) (r : RoundRun) (st : Nat × Nat) : List (ChunkId × Nat × Nat) :=
  s.chunks g r st.1 st.2 (s.recvSteps g r st.1 st.2)

/-- The PHASE of a kind of stage, and the key of its slots. -/
def phaseOf (kind : Nat) : Nat := if kind = 0 then 0 else 1
/-- The key of a stage's slots. -/
def slotKey (st : Nat × Nat) : Nat := 4 * phaseOf st.1 + st.2

/-- The slots that a successor grants before the chunks of a stage: those of a count exchange on the same axis come first. -/
def State.slotBase (s : State) (g : Nat) (r : RoundRun) (st : Nat × Nat) : Nat :=
  if st.1 = 1 ∧ variable_ r.op then s.getF RND_E_RX_SLOTS g 0 + (s.sends g r (3, st.2)).length else 0

/-! ### Memory of a round -/

/-- Reads bytes at a set address of the pushing set. -/
def State.roundRead (s : State) (r : RoundRun) (a n : Nat) : Status × List Byte × State :=
  let slot := r.desc.slot
  match s.ownSet slot r.desc.set with
  | none => (.access, [], s)
  | some y =>
    let m := s.homeOf slot r.desc.set
    match y.place m a with
    | .bad => (.access, [], s)
    | .ctx c => s.ctxBytes slot 2 1 c n
    | .sm k o =>
      if k = m then
        let (st, bs, y1) := y.read o n
        (st, bs, s.putOwn slot r.desc.set y1)
      else s.smRead k o n

/-- Writes bytes at a set address of the pushing set. -/
def State.roundWrite (s : State) (r : RoundRun) (a : Nat) (bs : List Byte) : Status × State :=
  let slot := r.desc.slot
  match s.ownSet slot r.desc.set with
  | none => (.access, s)
  | some y =>
    let m := s.homeOf slot r.desc.set
    match y.place m a with
    | .bad => (.access, s)
    | .ctx c => s.ctxPut slot 2 c bs
    | .sm k o =>
      if k = m then
        let (st, y1) := y.write o bs
        (st, s.putOwn slot r.desc.set y1)
      else s.smWrite k o bs

/-- A range at a set address lies on this module with a right. -/
def State.roundPlace (s : State) (r : RoundRun) (right : Right) (a n : Nat) : Bool :=
  match s.ownSet r.desc.slot r.desc.set with
  | none => false
  | some y => decide (n = 0) || (match y.place (s.homeOf r.desc.slot r.desc.set) a with
    | .bad => false
    | .ctx c => s.translates r.desc.slot 1 right (runFuel n) c n
    | .sm _ o => decide (o + n ≤ setMemBytes))

/-- The block exponent of a round block (R366): zero for RAW. -/
def State.roundBeta (s : State) (r : RoundRun) (b : Nat) : Status × Nat × State :=
  if r.fmt = 3 then (.done, 0, s)
  else
    let (st, e, s1) := s.expEntry r.desc.slot (leAt r.desc.desc 12 2)
    match e with
    | none => (st, 0, s1)
    | some e => s1.blockExp r.desc.slot e (leAt r.desc.desc 36 4 + b)

/-! ### Arithmetic (R253, R259, R374, R380) -/

/-- The window of a transport or source format. -/
def fmtWindow : Nat → Window
  | 0 => .bw48
  | 2 => .wa160
  | _ => .bw32

/-- The integers of transport data: signed elements, or for RAW unsigned 4-byte words. -/
def transInts (fmt : Nat) (bs : List Byte) : List Int :=
  if fmt = 3 then (elemsOf 4 bs).map fun (w : Nat) => (w : Int)
  else (elemsOf (fmtWindow fmt).size bs).map (windowInt (fmtWindow fmt))

/-- The check sum of integers (R259). -/
def checkSum (is : List Int) : Nat := unsigned 160 (is.foldl (· + ·) 0)

/-- An integer nearest to a / 2^16, ties to even. -/
def rne16 (a : Int) : Int := if a < 0 then -(rneNat a.natAbs (-16) : Int) else (rneNat a.natAbs (-16) : Int)

/-- An integer fits BW32. -/
def fits32 (a : Int) : Bool := decide (-(2 ^ 31 : Int) ≤ a ∧ a < 2 ^ 31)

/-- The elements of a source block in transport units, not yet held to the range of BW32. -/
def sourceInts (src : Nat) (bs : List Byte) : List Int :=
  if src = 0 then (elemsOf 6 bs).map fun w => rne16 (windowInt .bw48 w) else transInts (if src = 2 then 2 else 1) bs

/-- Transport bytes of integers: outside the range of BW32 an element is sent as zero (R374). -/
def transBytes (fmt : Nat) (is : List Int) : List Byte :=
  is.flatMap fun i => if fmt = 2 then toBytes 20 (unsigned 160 i) else toBytes 4 (unsigned 32 (if fits32 i then i else 0))

/-- Transport integers are all in range. -/
def inRange (fmt : Nat) (is : List Int) : Bool := decide (fmt ≠ 1) || is.all fits32

/-- The first element outside the range of BW32. -/
def firstOver (fmt : Nat) (is : List Int) : Option Nat := if fmt = 1 then is.findIdx? fun i => !fits32 i else none

/-- A block in a source or destination format, from its transport bytes under a block exponent (R374). -/
def placed (fmt dst beta : Nat) (bs : List Byte) : List Byte :=
  let is := transInts fmt bs
  match dst with
  | 0 => is.flatMap fun i => toBytes 6 (unsigned 48 (i * 2 ^ 16))
  | 4 => is.flatMap fun i => toBytes 4 (fmtFP32.round (FP.ofInt i ((fmtWindow fmt).unit beta) false))
  | _ => bs

/-! ### Endings (R383 to R388) -/

/-- The STATE a group takes with the status that ends its round (DEDUCED, log entry 69). -/
def stateAfter (st : Status) : Nat :=
  match st with
  | .order | .aborted | .fenced | .access | .uncorrectable => 3
  | .peerLost => 4
  | _ => 1

/-- The round in progress of a group ends with a status of its own that does not stop its set, and what counts it. -/
def State.finishRound (s : State) (g : Nat) (st : Status) : State :=
  let s1 := match st with
    | .order => s.sat RND_ORDER_ABORTS 0 0 1
    | .peerLost => s.sat RND_PEER_LOSTS 0 0 1
    | _ => s
  s1.endRound g st (stateAfter st)

/-- The round ends with ACCESS or UNCORRECTABLE: ABORT carrying ABORTED goes out, and the pushing set stops (R387). -/
def State.stopRound (s : State) (g : Nat) (st : Status) : State :=
  let x := s.group g
  match x.run with
  | none => s
  | some r =>
    let s1 := (s.sendAbort g r.desc.slot (s.me g) .aborted).putGroup g { x with run := none }
    let s2 := ((s1.setF RND_G_LAST_STATUS g 0 st.num).setF RND_G_STATE g 0 3).setF RND_G_RSEQ g 0 ((s1.getF RND_G_RSEQ g 0 + 1) % 2 ^ 32)
    (s2.ownerWrite r.desc.slot r.desc.set (r.desc.addr + 5) (toBytes 1 st.num)).stopOwner r.desc.slot r.desc.set st 0 (localAddr r.desc.addr)

/-- The round ends on every member with a status (R376, R386). -/
def State.abortAll (s : State) (g : Nat) (slot : Nat) (st : Status) : State := (s.sendAbort g slot (s.me g) st).finishRound g st

/-- A reading or writing of the round fails: only ACCESS and UNCORRECTABLE stop its set; any other status ends the round on
every member. -/
def State.failRound (s : State) (g : Nat) (slot : Nat) (st : Status) : State :=
  if st = .access ∨ st = .uncorrectable then s.stopRound g st else s.abortAll g slot st

/-- A comparison has failed for good (R383). -/
def State.checkFail (s : State) (g slot : Nat) (id : ChunkId) : State :=
  let s1 := s.setF CTX_S_STEP_ABORT slot 0 1
  let s2 := s1.emit RT_ROUND_CHECK_FAIL .data 8 g (s.ctxOf slot) [id.axis, id.stepT, id.chunk, s.predOn g id.axis, s.getF RND_G_RSEQ g 0]
  s2.abortAll g slot .checkFail

/-- A wait has ended with a member lost (R388). -/
def State.peerLost (s : State) (g slot member : Nat) : State :=
  let s1 := (s.setF RND_G_LOST_MEMBER g 0 member).emit RT_ROUND_PEER_LOST .data 8 g (s.ctxOf slot) [member, member]
  (s1.abortAll g slot .peerLost).notify .roundMemberLost Status.peerLost.num 0 slot 0x3FFF member (s1.lastSeq .data)

/-- A message does not fit the round (R386). -/
def State.orderFail (s : State) (g slot tag src : Nat) : State :=
  let i := ((List.range (s.memberCount g)).find? fun m => decide (s.member g m = src)).getD 0xFFFF
  (s.emit RT_ROUND_ORDER .data 8 g (s.ctxOf slot) [s.getF RND_G_RSEQ g 0, s.getF RND_G_TAG g 0, tag, i]).abortAll g slot .order

/-! ### Sending (R372 to R378) -/

/-- The round in progress of a group, changed. -/
def State.putRun (s : State) (g : Nat) (r : RoundRun) : State := s.putGroup g { s.group g with run := some r }

/-- The bytes of SRC and of DST that a round uses at this member (R367). -/
def State.spans (s : State) (g : Nat) (r : RoundRun) : Nat × Nat :=
  let d := r.desc.desc
  let b := leAt d 32 4
  let total := s.totalOf g r
  let own := s.firstOf g r (s.me g + 1) - s.firstOf g r (s.me g)
  let srcN := if r.op = 3 ∨ r.op = 5 then b else if r.op = 4 ∧ s.me g ≠ leAt d 14 2 then 0 else total
  let dstN := if r.op = 2 ∨ r.op = 6 then own else total
  (srcN * fmtBytes (leAt d 9 1), dstN * fmtBytes (leAt d 10 1))

/-- SRC and DST overlap otherwise than as one range of one format (R369). -/
def State.overlaps (s : State) (g : Nat) (r : RoundRun) : Bool :=
  let d := r.desc.desc
  let (m, n) := s.spans g r
  let src := leAt d 16 8
  let dst := leAt d 24 8
  decide (¬(src = dst ∧ leAt d 9 1 = leAt d 10 1) ∧ 0 < m ∧ 0 < n ∧ src < dst + n ∧ dst < src + m)

/-- Writes a slot of the group's buffer (R365): one of `count` slots from `first` on, which the rules leave open (log
entry 71). DESIGN CHOICE, log entry 71. -/
def State.bufferPut (s : State) (g slot first count : Nat) (bs : List Byte) : State :=
  let size := s.getF RND_E_CHUNK_BLOCKS g 0 * 1280
  let (v, s1) := s.takeFree
  let j := first + v.toNat % max 1 count
  if bs.isEmpty then s else (s1.ctxPut slot 2 (s.get64 RND_E_BUF_ADDR_LO RND_E_BUF_ADDR_HI g + j * size) (bs.take size)).2

/-- Adds a chunk written at DST to CHUNK_COUNTER (R387). -/
def State.chunkCounted (s : State) (r : RoundRun) : State := s.counterAdd r.desc.slot r.desc.set (leAt r.desc.desc 7 1 % 64) 1

/-- Writes blocks at DST or over the source, from transport bytes. -/
def State.placeBlocks (s : State) (r : RoundRun) (base fmt : Nat) : List (Nat × Nat × List Byte) → Status × State
  | [] => (.done, s)
  | (at_, b, bs) :: rest =>
    let (st, beta, s1) := s.roundBeta r b
    if st ≠ .done then (st, s1)
    else
      let (st2, s2) := s1.roundWrite r (base + at_ * fmtBytes fmt) (placed r.fmt fmt beta bs)
      if st2 ≠ .done then (st2, s2) else s2.placeBlocks r base fmt rest

/-- The blocks of some transport data. -/
def blocksOf (size first : Nat) (bs : List Byte) : List (Nat × List Byte) :=
  (List.range (bs.length / size)).map fun i => (first + i, (bs.drop (size * i)).take size)

/-- The block of DST that a round block goes to: a reduce-scatter writes only its own range (R370). -/
def State.dstBlock (s : State) (g : Nat) (r : RoundRun) (b : Nat) : Nat :=
  if r.op = 2 ∨ r.op = 6 then b - s.firstOf g r (s.me g) else b

/-- Writes a chunk at DST, keeps its blocks, and counts it. Where SRC and DST overlap, what is written is open (R369). -/
def State.deliver (s : State) (g : Nat) (r : RoundRun) (first : Nat) (bs : List Byte) (nocheck : Bool) : Status × RoundRun × State :=
  let blocks := blocksOf r.size first bs
  let dst := leAt r.desc.desc 10 1
  let (st, s1) :=
    if s.overlaps g r && !blocks.isEmpty then
      let (fs, s0) := s.freeRun (blocks.length * fmtBytes dst)
      s0.roundWrite r (leAt r.desc.desc 24 8 + s.dstBlock g r first * fmtBytes dst) fs
    else s.placeBlocks r (leAt r.desc.desc 24 8) dst (blocks.map fun e => (s.dstBlock g r e.1, e.1, e.2))
  let r1 := { r with vals := blocks.foldl (fun (m : SMap (List Byte × Bool)) e => m.insert e.1 (e.2, nocheck)) r.vals }
  (st, r1, if st = .done then s1.chunkCounted r else s1)

/-- The integers this member holds of a round block: those it keeps, or those of its source (R374), with NOCHECK, and the
address where an element left the range of BW32. -/
def State.ownInts (s : State) (g : Nat) (r : RoundRun) (b : Nat) : Status × List Int × Bool × Option Nat × State :=
  match r.vals.find b with
  | some (bs, nc) => (.done, transInts r.fmt bs, nc, none, s)
  | none =>
    let src := leAt r.desc.desc 9 1
    let k := if reducing r.op ∨ r.op = 4 then b else b - s.firstOf g r (s.me g)
    let a := leAt r.desc.desc 16 8 + k * fmtBytes src
    let (st, bs, s1) := s.roundRead r a (fmtBytes src)
    let is := if src = 3 then transInts 3 bs else sourceInts src bs
    (st, is, !inRange r.fmt is, (firstOver r.fmt is).map fun i => a + i * (fmtBytes src / 64), s1)

/-- An element left the range of BW32 (R374): the flag, the record of R199, and the round's status. -/
def State.roundOver (s : State) (r : RoundRun) (b : Nat) (at_ : Option Nat) : RoundRun × State :=
  match at_ with
  | none => (r, s)
  | some a =>
    let (_, beta, s1) := s.roundBeta r b
    ({ r with status := Status.overrange.num }, s1.overrange r.desc.slot (s1.unitOf 0 a) (a % 2 ^ 56) (leAt r.desc.desc 12 2) beta)

/-- The integers this member holds of consecutive blocks, held to the range of BW32. -/
def State.ownRange (s : State) (g : Nat) (r : RoundRun) : List Nat → Status × List Int × Bool × RoundRun × State
  | [] => (.done, [], false, r, s)
  | b :: bs =>
    let (st, is, nc, ovr, s1) := s.ownInts g r b
    if st ≠ .done then (st, [], false, r, s1)
    else
      let (r1, s2) := s1.roundOver r b ovr
      let (st2, js, nc2, r2, s3) := s2.ownRange g r1 bs
      (st2, (if r.fmt = 1 then is.map fun i => if fits32 i then i else 0 else is) ++ js, nc || nc2, r2, s3)

/-- Transport data of integers. -/
def RoundRun.bytes (r : RoundRun) (is : List Int) : List Byte :=
  if r.fmt = 3 then is.flatMap fun i => toBytes 4 i.toNat else transBytes r.fmt is

/-- What a chunk this member sends holds: counts; its own contribution; or what it has received and added. None while that
has not been placed. -/
def State.outChunk (s : State) (g : Nat) (r : RoundRun) (id : ChunkId) (first n : Nat) : Option (Status × ChunkData × RoundRun × State) :=
  let before := r.ready.find? fun e => decide (e.1 = { id with stepT := id.stepT - 1 })
  if id.kind = 3 then
    let n := s.axisSize g id.axis
    let v := (s.coord g (s.me g) id.axis + n - id.stepT) % max 1 n
    let (m, k) := s.shardMembers g id.axis v
    if id.stepT ≠ 0 ∧ before.isNone = true then none
    else
      let bs := (List.range k).flatMap fun i => toBytes 4 (r.counts.get 0 (m + i))
      some (.done, ⟨bs, checkSum (transInts 3 bs), false⟩, r, s)
  else if id.stepT = 0 then
    let (st, is, nc, r1, s1) := s.ownRange g r ((List.range n).map (· + first))
    some (st, ⟨r.bytes is, checkSum is, nc⟩, r1, s1)
  else match before with
    | some e => some (.done, e.2, r, s)
    | none => none

/-- The header of a message of a round. -/
def State.roundHeader (s : State) (g : Nat) (r : RoundRun) (op flags : Nat) (id : ChunkId) (part chunk total blocks first beta : Nat) : List Byte :=
  partHeader op (flags + s.stepFlags r.desc.slot + 8 * phaseOf id.kind) (s.getF RND_E_GROUP_ID g 0) (s.getF RND_E_JOB g 0)
    (s.getF RND_E_VERSION g 0) (leAt r.desc.desc 50 2) (s.getF RND_G_RSEQ g 0) id.axis part id.stepT chunk total blocks first beta
    (if id.kind = 3 then 0 else r.fmt) 0 (s.getF CTX_S_STEP_NO r.desc.slot 0)

/-- Sends a chunk as parts (R376), unless its context replays (R443). -/
def State.sendChunk (s : State) (g : Nat) (r : RoundRun) (id : ChunkId) (c : ChunkData) (first n beta : Nat) (again : Bool) : State :=
  if s.replaying r.desc.slot then s
  else
    let dest := s.member g (s.succOn g id.axis)
    let vc := if id.kind = 1 ∨ id.kind = 2 then 5 else 4
    let parts := max 1 ((c.data.length + 8191) / 8192)
    let total := if id.kind = 3 then 0 else s.totalOf g r
    let s1 := (List.range parts).foldl (fun (s : State) i =>
      let last := decide (i + 1 = parts)
      let h := s.roundHeader g r (if id.kind = 3 then 0x21 else 0x20)
        (4 * bitOf c.nocheck + 16 * bitOf last + 32 * bitOf again) id i id.chunk total n first beta
      s.postMsg dest vc (.round dest vc h ((c.data.drop (8192 * i)).take 8192 ++ (if last then toBytes 20 c.trailer else [])))) s
    if id.kind = 3 then s1 else s1.wrap64 RND_PARTS_SENT_LO RND_PARTS_SENT_HI 0 parts

/-- Sends a GRANT to the predecessor on an axis (R378, R381): slots, or the resend of a chunk. -/
def State.sendGrant (s : State) (g : Nat) (r : RoundRun) (id : ChunkId) (n : Nat) (resend : Bool) : State :=
  if s.replaying r.desc.slot then s
  else
    let dest := s.member g (s.predOn g id.axis)
    s.postMsg dest 4 (.round dest 4 (s.roundHeader g r 0x22 (32 * bitOf resend) id 0 (if resend then id.chunk else n) 0 0 0 0) [])

/-! ### Stages -/

/-- Entering a stage: its registers, and the slots granted to the predecessor on its ring (R378). -/
def State.enterStage (s : State) (g : Nat) (r : RoundRun) : State :=
  match r.stages[r.stage]? with
  | none => s
  | some st =>
    let s1 := ((s.setF RND_G_AXIS g 0 st.2).setF RND_G_PHASE g 0 (phaseOf st.1)).setF RND_G_RING_STEP g 0 0
    if (s1.recvSteps g r st.1 st.2).isEmpty then s1 else s1.sendGrant g r ⟨st.1, st.2, 0, 0⟩ (s.getF RND_E_RX_SLOTS g 0) false

/-- Delivers a range of this member's own blocks at DST, chunk by chunk (R372, R387). -/
def State.deliverOwn (s : State) (g first : Nat) (r : RoundRun) (n : Nat) : List Nat → Status × RoundRun × State
  | [] => (.done, r, s)
  | k :: ks =>
    let c := max 1 (s.getF RND_E_CHUNK_BLOCKS g 0)
    let (st, is, nc, r1, s1) := s.ownRange g r ((List.range (min c (n - k * c))).map (· + (first + k * c)))
    if st ≠ .done then (st, r1, s1)
    else
      let (st2, r2, s2) := s1.deliver g r1 (first + k * c) (r.bytes is) nc
      if st2 ≠ .done then (st2, r2, s2) else s2.deliverOwn g first r2 n ks

/-- Whether SRC and DST of a round lie where its kind needs them (R368): the ranges depend on the counts of a variable
form. -/
def State.rangesOk (s : State) (g : Nat) (r : RoundRun) : Bool :=
  let d := r.desc.desc
  let (m, n) := s.spans g r
  s.roundPlace r .r (leAt d 16 8) m && (!reducing r.op || s.roundPlace r .w (leAt d 16 8) m) && s.roundPlace r .w (leAt d 24 8) n

/-- What a member does when the counts are known and its data stages begin: a gather delivers its own blocks, the root of a
broadcast its source, unless that is where DST is. -/
def State.beginData (s : State) (g : Nat) (r : RoundRun) : Status × RoundRun × State :=
  let d := r.desc.desc
  let n := s.memberCount g
  let (st, s1) := if variable_ r.op then s.roundWrite r (leAt d 40 8) ((List.range n).flatMap fun m => toBytes 4 (r.counts.get 0 m))
    else (.done, s)
  if st ≠ .done then (st, r, s1)
  else if !s1.rangesOk g r then (.access, r, s1)
  else if r.op = 3 ∨ r.op = 5 then
    s1.deliverOwn g (s1.firstOf g r (s1.me g)) r (leAt d 32 4) (List.range (s1.chunkCount g (leAt d 32 4)))
  else if r.op = 4 ∧ s1.me g = leAt d 14 2 ∧ leAt d 16 8 ≠ leAt d 24 8 then
    s1.deliverOwn g 0 r (leAt d 32 4) (List.range (s1.chunkCount g (leAt d 32 4)))
  else (.done, r, s1)

/-- Leaving a stage: the last reduce stage, where its axis has one member, delivers the member's own range. -/
def State.leaveStage (s : State) (g : Nat) (r : RoundRun) (st : Nat × Nat) : Status × RoundRun × State :=
  if st.1 = 0 ∧ st.2 + 1 = s.getF RND_E_AXES g 0 ∧ s.axisSize g st.2 ≤ 1 then
    let first := s.firstOf g r (s.me g)
    let n := s.firstOf g r (s.me g + 1) - first
    s.deliverOwn g first r n (List.range (s.chunkCount g n))
  else (.done, r, s)

/-- What running a round on comes to: it goes on, it can do nothing now, or it has ended. -/
inductive Going where
  | on (r : RoundRun) (s : State)
  | still (r : RoundRun) (s : State)
  | failed (st : Status) (s : State)
  | lost (member : Nat) (s : State)

/-- One thing a round can do now: send its next chunk, or pass to the next stage. -/
def State.roundDo (s : State) (g : Nat) (r : RoundRun) : Going :=
  match r.stages[r.stage]? with
  | none => .still r s
  | some st =>
    let out := s.sends g r st
    match out[r.sent]? with
    | some (id, first, n) =>
      if !s.replaying r.desc.slot && decide (r.slots.get 0 (slotKey st) ≤ s.slotBase g r st + r.sent) then .still r s
      else match s.outChunk g r id first n with
      | none => .still r s
      | some (st2, c, r1, s1) =>
        let (st3, beta, s2) := if id.kind = 3 ∨ n = 0 then (.done, 0, s1) else s1.roundBeta r first
        if st2 ≠ .done then .failed st2 s1
        else if st3 ≠ .done then .failed st3 s2
        else if ((s2.route (s2.member g (s2.succOn g id.axis))).1.isNone || s2.isCut (s2.member g (s2.succOn g id.axis)))
            && !s2.replaying r.desc.slot then .lost (s2.succOn g id.axis) s2
        else
          let s3 := (s2.setF RND_G_RING_STEP g 0 id.stepT).sendChunk g r1 id c first n beta false
          let s4 := if id.stepT ≠ 0 ∧ ¬(id.kind = 2 ∧ s3.bcastDist g r id.axis = some 0) then s3.sendGrant g r1 { id with stepT := id.stepT - 1 } 1 false else s3
          .on { r1 with
            sent := r.sent + 1, kept := r1.kept ++ [(id, c)],
            ready := r1.ready.filter fun e => decide (e.1 ≠ { id with stepT := id.stepT - 1 }) } s4
    | none =>
      if r.got < (s.recvs g r st).length then .still r s
      else
        let (st2, r1, s1) := s.leaveStage g r st
        if st2 ≠ .done then .failed st2 s1
        else
          let r2 := { r1 with stage := r.stage + 1, sent := 0, got := 0, arriving := [], ready := [], resent := [] }
          let (st3, r3, s2) := if st.1 = 3 ∧ (r2.stages.drop r2.stage).all (fun x => decide (x.1 ≠ 3)) then s1.beginData g r2 else (.done, r2, s1)
          if st3 ≠ .done then .failed st3 s2 else .on r3 (s2.enterStage g r3)

/-- Runs a round on as far as it goes. -/
def State.roundGo (s : State) (g : Nat) (r : RoundRun) : Nat → State
  | 0 => s.putRun g r
  | fuel + 1 =>
    match s.roundDo g r with
    | .on r1 s1 => s1.roundGo g r1 fuel
    | .still r1 s1 => s1.putRun g r1
    | .failed st s1 => (s1.putRun g r).failRound g r.desc.slot st
    | .lost m s1 => (s1.putRun g r).peerLost g r.desc.slot m

/-- More steps than a round takes. -/
def roundFuel : Nat := 2 ^ 24

/-! ### Receiving (R376, R380 to R382) -/

/-- A chunk that passes, or is released early, is placed: the sum of a reduce chunk goes over the source at its last step and
at DST in the last reduce stage; gathered blocks go to DST; counts are noted. What a later step sends on is kept. -/
def State.place (s : State) (g : Nat) (r : RoundRun) (id : ChunkId) (first : Nat) (c : ChunkData) : Status × RoundRun × State :=
  let n := s.axisSize g id.axis
  let r0 := { r with got := r.got + 1 }
  if id.kind = 3 then
    let v := (s.coord g (s.me g) id.axis + 2 * n - 1 - id.stepT) % max 1 n
    let (m, _) := s.shardMembers g id.axis v
    let ks := elemsOf 4 c.data
    (.done, { r0 with
      counts := (ks.zip (List.range ks.length)).foldl (fun (x : SMap Nat) e => x.put 0 (m + e.2) e.1) r.counts,
      ready := r.ready ++ [(id, c)] }, s)
  else if id.kind = 0 then
    if id.stepT + 2 < n then (.done, { r0 with ready := r.ready ++ [(id, c)] }, s)
    else
      let blocks := blocksOf r.size first c.data
      let (st, s1) := s.placeBlocks r (leAt r.desc.desc 16 8) (leAt r.desc.desc 9 1) (blocks.map fun e => (e.1, e.1, e.2))
      let r1 := { r0 with vals := blocks.foldl (fun (m : SMap (List Byte × Bool)) e => m.insert e.1 (e.2, c.nocheck)) r.vals }
      if st ≠ .done ∨ id.axis + 1 ≠ s.getF RND_E_AXES g 0 then (st, r1, s1) else s1.deliver g r1 first c.data c.nocheck
  else
    let (st, r1, s1) := s.deliver g r0 first c.data c.nocheck
    (st, { r1 with ready := r1.ready ++ [(id, c)] }, s1)

/-- Whether a chunk is sent on, so that its slot returns when that is done (R381). -/
def State.sentOnward (s : State) (g : Nat) (r : RoundRun) (id : ChunkId) : Bool :=
  (s.sendSteps g r id.kind id.axis).any fun e => decide (e.1 = id.stepT + 1)

/-- The key of a round record (R439). -/
def roundKey (m : List Byte) : Nat := leAt m 2 2 + 2 ^ 16 * leAt m 12 4 + 2 ^ 48 * (leAt m 16 1 % 4) + 2 ^ 50 * (leAt m 18 2 % 4096)

/-- Records the messages of a chunk as accepted (R439); a link without JOURNAL leaves the attempt incomplete (R325). -/
def State.journalRound (s : State) (slot type src : Nat) (ms : List (List Byte)) : State :=
  if !s.journals slot then s
  else
    let has := match (s.route src).1 with
      | some h => s.hopHas h 4 5
      | none => true
    if has then ms.foldl (fun (s : State) m => s.journal slot type (roundKey m) 0 m) s
    else { s with enc := { s.enc with incomplete := true } }

/-- A comparison of a chunk fails (R262, R380, R382): counted in the round engine, and for a reduced chunk, whose comparison
is with the sum of the accumulators of all slices in service, in each of these (DEDUCED, log entry 75). -/
def State.checkCount (s : State) (id : ChunkId) : State :=
  let s1 := s.sat RND_CHECK_FAILS 0 0 1
  if id.kind = 0 then (s1.unitsIn 0).foldl (fun (s : State) u => s.sat MSC_CHECK_FAILS u 0 1) s1 else s1

/-- A whole chunk is in (R380 to R382): it is added or taken, compared, and placed; or asked for again. -/
def State.chunkIn (s : State) (g src : Nat) (r : RoundRun) (id : ChunkId) (first n : Nat) (ms : List (List Byte)) : State :=
  let slot := r.desc.slot
  let body := ms.flatMap fun m => m.drop 48
  let data := body.take (body.length - 20)
  let tin := ofBytes (body.drop (body.length - 20))
  let ncIn := ms.any fun m => bit (leAt m 1 1) 2
  let fmt := if id.kind = 3 then 3 else r.fmt
  let ins := transInts fmt data
  let rx := s.getF RND_E_RX_SLOTS g 0
  let s0 := s.bufferPut g slot 0 rx data
  let (st, own, ncOwn, r1, s1) := if id.kind = 0 then s0.ownRange g r ((List.range n).map (· + first)) else (.done, [], false, r, s0)
  if st ≠ .done then (s1.putRun g r).failRound g slot st
  else
    let sums := if id.kind = 0 then (ins.zip own).map fun e => e.1 + e.2 else ins
    let ovr := id.kind = 0 ∧ inRange fmt sums = false
    let at_ := (firstOver fmt sums).getD 0
    let elem := fmtBytes (leAt r.desc.desc 9 1) / 64
    let (r2, s2) := if ovr then s1.roundOver r1 (first + at_ / 64) (some (leAt r.desc.desc 16 8 + (64 * first + at_) * elem)) else (r1, s1)
    let s2 := if id.kind = 0 then s2.bufferPut g slot rx 2 (placed r.fmt (leAt r.desc.desc 9 1) 0 (transBytes fmt sums)) else s2
    let nocheck := ncIn || ncOwn || decide ovr
    let pass := nocheck || decide (checkSum ins = tin)
    let r3 := { r2 with arriving := r2.arriving.filter fun e => decide (e.1 ≠ id) }
    if !pass && !r.early then
      let s3 := s2.checkCount id
      if id ∈ r.resent then (s3.putRun g r3).checkFail g slot id
      else (s3.sendGrant g r3 id 0 true).putRun g { r3 with resent := id :: r3.resent }
    else
      let s3 := if id ∈ r.resent then s2.sat RND_RESENDS 0 0 1 else s2
      let trailer := if id.kind = 0 then (tin + checkSum own) % 2 ^ 160 else tin
      let c : ChunkData := ⟨if id.kind = 0 then transBytes fmt sums else data, trailer, nocheck⟩
      let r4 := if r.early ∧ id.kind ≠ 3 then { r3 with late := r3.late ++ [(id, pass)] } else r3
      let (st2, r5, s4) := (s3.journalRound slot (if id.kind = 3 then 0x08 else 0x07) src ms).place g r4 id first c
      if st2 ≠ .done then (s4.putRun g r).failRound g slot st2
      else
        let s5 := if s4.sentOnward g r5 id then s4 else s4.sendGrant g r5 id 1 false
        s5.roundGo g r5 roundFuel

/-- The kind of stage that a message belongs to, of those the round has. -/
def RoundRun.kindOf (r : RoundRun) (op flags : Nat) : Nat :=
  if op = 0x21 then 3 else if bit flags 3 then (if r.op = 4 then 2 else 1) else 0

/-- A PART or COUNTS message of the round in progress. -/
def State.takePart (s : State) (g src : Nat) (r : RoundRun) (m : List Byte) : State :=
  let slot := r.desc.slot
  let kind := r.kindOf (leAt m 0 1) (leAt m 1 1)
  let axis := leAt m 16 1
  let id : ChunkId := ⟨kind, axis, leAt m 18 2, leAt m 20 4⟩
  if (kind, axis) ∉ r.stages then s.orderFail g slot (leAt m 10 2) src
  else if r.stages[r.stage]? ≠ some (kind, axis) then
    s.putGroup g { s.group g with heldP := (s.group g).heldP ++ [(src, m)] }
  else match (s.recvs g r (kind, axis)).find? fun e => decide (e.1 = id) with
  | none => s.orderFail g slot (leAt m 10 2) src
  | some (_, first, n) =>
    let (st, beta, s1) := if kind = 3 ∨ n = 0 then (.done, leAt m 36 1, s) else s.roundBeta r first
    if st ≠ .done then s1.failRound g slot st
    else if kind ≠ 3 ∧ (leAt m 24 4 ≠ s.totalOf g r ∨ leAt m 36 1 ≠ beta) then s1.abortAll g slot .illegal
    else
      let ms := ((r.arriving.find? fun e => decide (e.1 = id)).map (·.2)).getD [] ++ [m]
      let sorted := (List.range 256).filterMap fun k => ms.find? fun x => decide (leAt x 17 1 = k)
      let whole := match sorted.getLast? with
        | some x => bit (leAt x 1 1) 4 && decide (sorted.length = leAt x 17 1 + 1)
        | none => false
      if whole then s1.chunkIn g src r id first n sorted
      else s1.putRun g { r with arriving := (id, ms) :: r.arriving.filter fun e => decide (e.1 ≠ id) }

/-- A GRANT of the round in progress (R378, R381): slots, of which those beyond the first let go the oldest chunks kept; or
the resend of a chunk. -/
def State.takeGrant (s : State) (g src : Nat) (r : RoundRun) (m : List Byte) : State :=
  let phase := bitOf (bit (leAt m 1 1) 3)
  let axis := leAt m 16 1
  let mine := r.stages.filter fun st => decide (phaseOf st.1 = phase ∧ st.2 = axis)
  if mine = [] then s.orderFail g r.desc.slot (leAt m 10 2) src
  else if bit (leAt m 1 1) 5 then
    match r.kept.find? fun e => decide (phaseOf e.1.kind = phase ∧ e.1.axis = axis ∧ e.1.stepT = leAt m 18 2 ∧ e.1.chunk = leAt m 20 4) with
    | none => s
    | some (id, c) =>
      match (s.sends g r (id.kind, id.axis)).find? fun e => decide (e.1 = id) with
      | none => s
      | some (_, first, n) =>
        let (_, beta, s1) := if id.kind = 3 ∨ n = 0 then (.done, 0, s) else s.roundBeta r first
        s1.sendChunk g r id c first n beta true
  else
    let key := 4 * phase + axis
    let old := r.slots.get 0 key
    let rx := s.getF RND_E_RX_SLOTS g 0
    let free := if rx ≤ old then leAt m 20 4 else 0
    let drop := ((r.kept.filter fun e => decide (phaseOf e.1.kind = phase ∧ e.1.axis = axis)).take free).map (·.1)
    s.roundGo g { r with
      slots := r.slots.put 0 key (old + leAt m 20 4),
      kept := r.kept.filter fun e => decide (e.1 ∉ drop) } roundFuel

/-- An ABORT of the round in progress (R383, R388). -/
def State.takeAbort (s : State) (g : Nat) (r : RoundRun) (m : List Byte) : State :=
  let st := Status.ofNum (leAt m 38 2 % 64)
  let slot := r.desc.slot
  let origin := leAt m 20 4
  if st = .peerLost then
    ((s.setF RND_G_LOST_MEMBER g 0 (origin % 4096)).emit RT_ROUND_PEER_LOST .data 8 g (s.ctxOf slot) [origin, origin]).finishRound g .peerLost
  else if st = .checkFail then s.endRound g .aborted 1
  else if st.stops then s.finishRound g .aborted
  else s.finishRound g st

/-- The enabled group a message belongs to, by JOB and GROUP_ID (R376). -/
def State.groupFor (s : State) (m : List Byte) : Option Nat :=
  (List.range 64).find? fun g => s.groupOn g && decide (s.getF RND_E_GROUP_ID g 0 = leAt m 2 2 ∧ s.getF RND_E_JOB g 0 = leAt m 4 4)

/-- A message of a round that belongs to a group and is not fenced: discarded when stale, held when early, else taken (R375,
R386). DEDUCED, log entry 95. DEDUCED, log entry 96. -/
def State.roundMsg (s : State) (g src slot : Nat) (m : List Byte) : State :=
  let x := s.group g
  let op := leAt m 0 1
  let hold := s.putGroup g { x with heldP := x.heldP ++ [(src, m)] }
  let ver := s.getF RND_E_VERSION g 0
  let rseq := s.getF RND_G_RSEQ g 0
  let late := op = 0x23 ∧ Status.ofNum (leAt m 38 2 % 64) = .checkFail
  if leAt m 8 2 < ver then s.sat RND_STALE_PARTS 0 0 1
  else if ver < leAt m 8 2 then hold
  else if leAt m 12 4 < rseq then
    if op = 0x23 then (if late then s.setF CTX_S_STEP_ABORT slot 0 1 else s).sat RND_STALE_PARTS 0 0 1 else s.sat RND_STALE_PARTS 0 0 1
  else if rseq < leAt m 12 4 then hold
  else match x.run with
  | none => hold
  | some r =>
    let fl := leAt m 1 1
    let part := op = 0x20 ∨ op = 0x21
    let s1 := if bit fl 0 ∧ part then s.setF CTX_S_STEP_OVERRANGE slot 0 1 else s
    let s2 := if (bit fl 1 ∧ part) ∨ late then s1.setF CTX_S_STEP_ABORT slot 0 1 else s1
    if op = 0x23 then (s2.journalRound slot 0x08 src [m]).takeAbort g r m
    else if leAt m 10 2 ≠ leAt r.desc.desc 50 2 then s2.orderFail g slot (leAt m 10 2) src
    else if op = 0x22 then s2.takeGrant g src r m
    else s2.takePart g src r m

/-- Takes what a group holds, until nothing more of it can be taken. -/
def State.roundWake (s : State) (g : Nat) : Nat → State
  | 0 => s
  | fuel + 1 =>
    let x := s.group g
    match s.slotOf (s.getF RND_E_CONTEXT g 0) with
    | none => s
    | some slot =>
      let s1 := x.heldP.foldl (fun (s : State) e => s.roundMsg g e.1 slot e.2) (s.putGroup g { x with heldP := [] })
      if (s1.group g).heldP = x.heldP then s else s1.roundWake g fuel

/-- Feeds a replaying round from the journal (R443): the next record of its group and RSEQ, while the round needs one. -/
def State.roundReplay (s : State) (g slot : Nat) : Nat → State
  | 0 => s
  | fuel + 1 =>
    match s.replaying slot, (s.group g).run with
    | true, some r =>
      if r.stages.length ≤ r.stage then s
      else
        let key := s.getF RND_E_GROUP_ID g 0 + 2 ^ 16 * s.getF RND_G_RSEQ g 0
        match ((s.enc.replay.getD []).takeWhile fun x => decide (x.type ≠ 0x0B)).find? fun x =>
            decide ((x.type = 0x07 ∨ x.type = 0x08) ∧ x.key % 2 ^ 48 = key) with
        | none => s.diverge slot 0x07 key
        | some x =>
          match s.takeInput slot x.type x.key with
          | (some y, s1) => ((s1.roundMsg g 0 slot y.data).roundWake g 8).roundReplay g slot fuel
          | (none, s1) => s1
    | _, _ => s

/-- After anything that may let a group go on. -/
def State.roundNext (s : State) (g : Nat) : State :=
  let s1 := s.roundWake g ((s.group g).heldP.length + 1)
  match s1.slotOf (s1.getF RND_E_CONTEXT g 0) with
  | some slot => if s1.replaying slot then s1.roundReplay g slot ((s1.enc.replay.getD []).length + 1) else s1
  | none => s1

/-- A message of rounds arrives from another module: one that matches no enabled entry is discarded; one for a fenced
context ends its round with FENCED (R390); none is taken while a context replays (R443) or the journal is full (R440). -/
def State.roundIn (s : State) (op src : Nat) (m : List Byte) : State :=
  if !s.ready || decide (leAt m 0 1 ≠ op ∨ m.length < 48) then s
  else match s.groupFor m with
  | none => s.sat RND_STALE_PARTS 0 0 1
  | some g =>
    match s.slotOf (s.getF RND_E_CONTEXT g 0) with
    | none => s.sat RND_STALE_PARTS 0 0 1
    | some slot =>
      let s1 := if op = 0x20 then s.wrap64 RND_PARTS_RECEIVED_LO RND_PARTS_RECEIVED_HI 0 1 else s
      if s.replaying slot || s.journalFull slot then s
      else if s.fencedSlot slot then
        if (s.group g).run.isSome then (s1.sendAbort g slot (s.me g) .aborted).finishRound g .fenced else s1
      else (s1.roundMsg g src slot m).roundNext g

/-- PART (R376). -/
def execPart (src : BitVec 12) (msg : List Byte) (s : State) : Res := ok (s.roundIn 0x20 src.toNat msg)

/-- COUNTS (R379). -/
def execCounts (src : BitVec 12) (msg : List Byte) (s : State) : Res := ok (s.roundIn 0x21 src.toNat msg)

/-- GRANT (R378). -/
def execGrant (src : BitVec 12) (msg : List Byte) (s : State) : Res := ok (s.roundIn 0x22 src.toNat msg)

/-- ABORT (R383). -/
def execAbort (src : BitVec 12) (msg : List Byte) (s : State) : Res := ok (s.roundIn 0x23 src.toNat msg)

/-! ### Starting and completing (R368, R385, R387) -/

/-- The features a round needs are on every link it sends over (R368). -/
def State.roundFeatures (s : State) (g : Nat) (r : RoundRun) : Bool :=
  let need := (if r.early then [3] else []) ++ (if r.wide then [4] else [])
  r.stages.all fun st => (s.sendSteps g r st.1 st.2).isEmpty || (match (s.route (s.member g (s.succOn g st.2))).1 with
    | some h => need.all fun b => s.hopHas h 4 b
    | none => true)

/-- What the start of a round checks of its group and descriptor (R368). -/
def State.startOk (s : State) (g : Nat) (r : RoundRun) : Bool :=
  let d := r.desc
  decide (s.getF RND_E_CONTEXT g 0 = s.ctxOf d.slot ∧ s.getF RND_E_PUSH_SET g 0 = s.routineOf d.set
    ∧ leAt d.desc 14 2 < s.memberCount g)
  && (if variable_ r.op then s.roundPlace r .w (leAt d.desc 40 8) (4 * s.memberCount g) else s.rangesOk g r)

/-- ROUND_START (R385): the head of a group's queue starts, or ends at once. -/
def execRoundStart (group : Fin 64) (s : State) : Res :=
  let g := group.val
  let x := s.group g
  ok (match x.queue, x.run with
    | d :: rest, none =>
      if !s.ready || s.fencedSlot d.slot || s.journalFull d.slot then s
      else
        let s0 := s.putGroup g { x with queue := rest }
        match s.getF RND_G_STATE g 0 with
        | 3 => s0.completeRound d Status.order.num
        | 4 => s0.completeRound d Status.peerLost.num
        | _ =>
          let op := leAt d.desc 4 1
          let r : RoundRun := ⟨d, s.stagesOf g op, 0, 0, 0, [(s.me g, leAt d.desc 32 4)], [], [], [], [], [], [], [], 0⟩
          if !s.groupOn g then
            (s0.ownerWrite d.slot d.set (d.addr + 5) (toBytes 1 Status.access.num)).stopOwner d.slot d.set .access 0 (localAddr d.addr)
          else
            let s1 := ((s0.putRun g r).setF RND_G_STATE g 0 2).setF RND_G_TAG g 0 (leAt d.desc 50 2)
            if !s1.startOk g r then s1.stopRound g .access
            else if !s1.roundFeatures g r then s1.finishRound g .version
            else
              let (st, r1, s2) := if variable_ op then (.done, r, s1) else s1.beginData g r
              if st ≠ .done then s2.failRound g d.slot st
              else ((s2.enterStage g r1).roundGo g r1 roundFuel).roundNext g
    | _, _ => s)

/-- LATE_CHECK (R382): the comparison of a chunk that was released early finishes. -/
def execLateCheck (group : Fin 64) (s : State) : Res :=
  let g := group.val
  ok (match (s.group g).run with
    | none => s
    | some r => match r.late with
      | [] => s
      | (id, pass) :: rest =>
        let s1 := s.putRun g { r with late := rest }
        if pass then s1
        else ((s1.checkCount id).sat RND_LATE_CHECK_FAILS 0 0 1).checkFail g r.desc.slot id)

/-- A round waits for its predecessor's part, or for its successor's GRANT. -/
def State.roundWaits (s : State) (g : Nat) (r : RoundRun) (successor : Bool) : Option Nat :=
  match r.stages[r.stage]? with
  | some st =>
    if successor then if r.sent < (s.sends g r st).length then some (s.succOn g st.2) else none
    else if r.got < (s.recvs g r st).length then some (s.predOn g st.2) else none
  | none => if successor && !r.kept.isEmpty then some (s.succOn g ((r.stages.getLast?.map (·.2)).getD 0)) else none

/-- ROUND_TIMEOUT (R388). -/
def execRoundTimeout (group : Fin 64) (successor : Bool) (s : State) : Res :=
  let g := group.val
  ok (match (s.group g).run with
    | none => s
    | some r => match s.roundWaits g r successor with
      | some m => if s.ready then s.peerLost g r.desc.slot m else s
      | none => s)

/-- ROUND_COMPLETE (R387): every stage is over, every comparison finished and every slot returned. -/
def execRoundComplete (group : Fin 64) (s : State) : Res :=
  let g := group.val
  ok (match (s.group g).run with
    | none => s
    | some r =>
      if s.ready && decide (r.stages.length ≤ r.stage) && r.late.isEmpty && (r.kept.isEmpty || s.replaying r.desc.slot) then
        (s.finishRound g (Status.ofNum r.status)).roundNext g
      else s)

/-! ### The table -/

/-- The effect of a write of word 0 of an entry (R364): the words not written since the last commit stay (DEDUCED, log entry 70). -/
def State.groupWrite (s : State) (g v : Nat) : State :=
  let x := s.group g
  let ws := v :: (List.range 15).map fun k => match x.shadow.find (k + 1) with
    | some w => w.toNat
    | none => s.word (groupWord g (k + 1))
  let s1 := s.groupCommit g ws
  if s1.getF RND_G_COMMIT_RESULT g 0 = 0 then (s1.putGroup g { s1.group g with shadow := [] }).roundNext g else s1

/-- The effect of a write of another word of an entry: it goes to the shadow. -/
def State.groupShadow (s : State) (g k v : Nat) : State :=
  let x := s.group g
  s.putGroup g { x with shadow := x.shadow.insert k (BitVec.ofNat 32 v) }

/-- GROUP_COMMIT (R364). -/
def execGroupCommit (p : Path) (group : Fin 64) (word : Word) (s : State) : Res :=
  ok (s.via p (groupWord group.val 0) fun s => s.groupWrite group.val word.toNat)

end Sys2Proof.Machine
end

