-- ==== Sys2Proof/Machine/Sync.lean ====
section
/-! DEFINITION. The sync class (R92 to R95, R125, R126). -/

namespace Sys2Proof.Machine

/-- The operand value V: RA + IMM32, zero-extended, modulo 2^64 (R125). -/
def SetState.opV (x : SetState) (ra : Nat) (imm : BitVec 32) : BitVec 64 := x.reg ra + imm.setWidth 64

/-- Every earlier store and promenade write of a set is visible (R95): no posted request of its core, no promenade write
and no tier C write of it is under way (DEDUCED, log entry 48). -/
def State.released (s : State) (n : Nat) : Bool :=
  (!s.fab.sent.any fun x => match x.waiter with
    | .posted m => decide (m = n)
    | .prom m _ => decide (m = n)
    | _ => false)
  && !s.tierC.flying.any fun w => match w.who with
    | .prom m _ => decide (m = n)
    | _ => false

/-- CSET (R125): cCTR ← V. -/
def execCset (set : Fin 768) (ctr : Fin 64) (ra : Fin 32) (imm : BitVec 32) (s : State) : Res :=
  ok (s.issue set.val [ra.val] fun x => s.putSet set.val (x.setCounter ctr.val (x.opV ra.val imm)).next)

/-- CADD (R125): cCTR ← cCTR + V; with RELEASE once every earlier write is visible. -/
def execCadd (set : Fin 768) (ctr : Fin 64) (ra : Fin 32) (imm : BitVec 32) (release : Bool) (s : State) : Res :=
  ok (s.issue set.val [ra.val] fun x =>
    if release && !s.released set.val then s
    else s.putSet set.val (x.setCounter ctr.val (x.counter ctr.val + x.opV ra.val imm)).next)

/-- The physical set that serves a routine set of a slot. -/
def State.serves (s : State) (slot routine : Nat) : Option Nat := (s.slot slot).setMap.find routine

/-- CADDR (R125, R126): on the set that serves routine set RA, cCTR ← cCTR + IMM32. -/
def execCaddr (set : Fin 768) (ctr : Fin 64) (ra : Fin 32) (imm : BitVec 32) (release : Bool) (s : State) : Res :=
  ok (s.issue set.val [ra.val] fun x =>
    let r := (x.reg ra.val).toNat
    if release && !s.released set.val then s
    else if 0x3FF < r then s.fault set.val .access 1
    else match s.serves x.slot r with
    | none => s.fault set.val .access 1
    | some m =>
      let s1 := s.counterAdd x.slot m ctr.val (imm.setWidth 64)
      s1.putSet set.val (s1.setSt set.val).next)

/-- The next DOORBELL record of a replay that a doorbell adds to a counter of a routine set (R439, R443). -/
def State.bellRecord (s : State) (slot routine k : Nat) : Option JRec :=
  ((s.enc.replay.getD []).takeWhile fun r => decide (r.type ≠ 0x0B)).find? fun r =>
    decide (r.type = 0x06 ∧ r.key < 256 ∧ s.getF MBX_D_VALID r.key 0 = 1 ∧ s.getF MBX_D_CONTEXT r.key 0 = s.ctxOf slot
      ∧ s.getF MBX_D_DIR r.key 0 = 0 ∧ s.getF MBX_D_ROUTINE_SET r.key 0 = routine ∧ s.getF MBX_D_COUNTER r.key 0 = k)

/-- A CWAIT of a replaying context takes the journal's additions to its counter, as far as its condition needs them (R443;
DEDUCED, log entry 72). -/
def State.bellFeed (s : State) (n k : Nat) (v : BitVec 64) : Nat → State
  | 0 => s
  | fuel + 1 =>
    let x := s.setSt n
    if v.ule (x.counter k) then s
    else match s.bellRecord x.slot x.routine k with
    | none => s
    | some r => match s.takeInput x.slot 0x06 r.key with
      | (none, s1) => s1
      | (some q, s1) => (s1.counterAdd x.slot n k (BitVec.ofNat 64 (ofBytes q.data))).bellFeed n k v fuel

/-- CWAIT (R92, R125): the core waits until cCTR ≥ V; a wait whose condition holds does not stall. The PC has passed the
instruction while the core waits. -/
def execCwait (set : Fin 768) (ctr : Fin 64) (ra : Fin 32) (imm : BitVec 32) (s : State) : Res :=
  ok (s.issue set.val [ra.val] fun x =>
    let v := x.opV ra.val imm
    let s1 := if s.replaying x.slot then s.bellFeed set.val ctr.val v ((s.enc.replay.getD []).length + 1) else s
    let y := s1.setSt set.val
    s1.putSet set.val (if v.ule (y.counter ctr.val) then y.next
      else { y.next with run := .waiting, wait := some (ctr.val, v) }))

/-- CREAD (R125): sRA ← cCTR. -/
def execCread (set : Fin 768) (ctr : Fin 64) (ra : Fin 32) (s : State) : Res :=
  ok (s.alu set.val [] ra.val fun x => x.counter ctr.val)

end Sys2Proof.Machine
end

