-- ==== Sys2Proof/Machine/HostPorts.lean ====
section
/-! DEFINITION. The PCIe ports and host windows, the mailbox channels and doorbells, the service Ethernet ports and the queue
pairs of the export channels (R128, R487 to R508, R547). -/

namespace Sys2Proof.Machine

/-- The effect of a write of a word on its fields (R7, R9). -/
def State.writeWord (s : State) (a v : Nat) : State :=
  s.putWord a (wordWrite (blockFields (a / 0x10000)) (!s.starting) a (s.word a) v)

/-- Sends the message of a channel or doorbell to the port its HOST field names (R494). -/
def State.vectorTo (s : State) (host vector : Nat) : State := if host < 2 then s.msix host vector else s

/-- Commands of a context complete with FENCED: its partition or the module is fenced (R469, R470), or it replays (R443). -/
def State.partFenced (s : State) (slot : Nat) : Bool :=
  decide (s.get HNG_MODULE_FENCED = 1) || s.replaying slot
    || (s.fencedSlot slot && (decide (s.get HNG_BUSY = 1 ∧ s.get HNG_LEVEL = 3 ∧ s.get HNG_SLOT = slot)
      || (match s.ctx.job with
          | some j => decide (j.cmd = 3 ∧ j.slot = slot)
          | none => false)))

/-! ### PCIe ports (R487 to R494, R547) -/

/-- The die that carries a PCIe port (R21). -/
def portDie (k : Nat) : Nat := if k = 0 then 0 else 3

/-- PCIe data links down, by a mask of ports (R493): each that was up is recorded (R537). DEDUCED, log entry 16. -/
def State.pcieDown (s : State) (m : Nat) : State :=
  (List.range 2).foldl (fun s k =>
    if bit m k && bit (s.get MBX_PCIE_UP) k then (s.setBit MBX_PCIE_UP 0 0 k false).emitCaller RT_HOST_LINK [k, 0] else s) s

/-- PERST_FALL (R547): the port stays in Detect. -/
def execPerstFall (port : Fin 2) (s : State) : Res :=
  ok (({ s with pins := if port = 0 then { s.pins with perst0 := false } else { s.pins with perst1 := false } }).pcieDown (2 ^ port.val))

/-- PERST_RISE (R547): the port may train. -/
def execPerstRise (port : Fin 2) (s : State) : Res :=
  ok { s with pins := if port = 0 then { s.pins with perst0 := true } else { s.pins with perst1 := true } }

/-- Whether a port may leave Detect (R52, R487, R493, R547): PERSTk_N is high, its die has power, the image enables
it, and no fence of Standby or of a power cycle keeps it down; in recovery hold the ports of dies 0 and 3 are up whatever the image says.
DEDUCED, log entry 17. -/
def State.mayTrain (s : State) (k : Nat) : Bool :=
  (if k = 0 then s.pins.perst0 else s.pins.perst1) && decide (s.pwr.mode = .on) && s.dieOn (portDie k)
    && decide (s.get HNG_PWRCYC_REQ = 0 ∧ (s.get HNG_MODULE_FENCED = 0 ∨ s.starting = true)) && (s.inHold || bit (s.img 0x0C 0 1) k)

/-- PCIE_LINK_UP (R52, R493). -/
def execPcieLinkUp (port : Fin 2) (s : State) : Res :=
  ok (if s.mayTrain port.val && !bit (s.get MBX_PCIE_UP) port.val then
    (s.setBit MBX_PCIE_UP 0 0 port.val true).emitCaller RT_HOST_LINK [port.val, 1] else s)

/-- Where a BAR2 access leads (R490): the slot of its window's context and the context address; none where the window or its
context is not valid. -/
def State.windowAt (s : State) (port offset : Nat) (write : Bool) : Option (Nat × Nat) :=
  let w := offset / 2 ^ 31
  let a := s.getF MBX_W_BASE_LO port w + 2 ^ 32 * s.getF MBX_W_BASE_HI port w + offset % 2 ^ 31
  if s.getF MBX_W_VALID port w = 0 || (write && decide (s.getF MBX_W_WRITABLE port w = 0)) then none
  else (s.slotOf (s.getF MBX_W_CONTEXT port w)).map fun slot => (slot, a)

/-- A BAR2 write that fails (R491). -/
def State.hostDrop (s : State) (port offset : Nat) (st : Status) : State :=
  let s1 := s.sat MBX_HOST_DROPS 0 0 1
  if s1.get MBX_CAP_VALID = 1 then s1
  else (((s1.set MBX_CAP_VALID 1).set MBX_CAP_PORT port).set MBX_CAP_STATUS st.num).set MBX_CAP_OFFSET (offset / 4)

/-- WINDOW_WRITE (R490, R491, R493). -/
def execWindowWrite (port : Fin 2) (offset : BitVec 34) (bytes : List Byte) (s : State) : Res :=
  let k := port.val
  let o := offset.toNat
  ok (if !bit (s.get MBX_PCIE_UP) k || !s.ready then s
    else match s.windowAt k o true with
    | none => s.hostDrop k o .access
    | some (slot, a) =>
      if s.replaying slot then s.hostDrop k o .fenced
      else if s.journalFull slot then s
      else
        let (st, s1) := s.ctxWrite (portDie k) slot 2 (runFuel bytes.length) a bytes
        if st = .done then s1.journal slot 0x02 k a bytes
        else s1.hostDrop k o (if st = .peerLost then .access else st))

/-- WINDOW_READ (R490, R491, R493). DEDUCED, log entry 109. -/
def execWindowRead (port : Fin 2) (offset : BitVec 34) (length : Fin 4097) (s : State) : Res :=
  let k := port.val
  let o := offset.toNat
  ok (if !bit (s.get MBX_PCIE_UP) k then s
    else if !s.ready then s.emitOut (.hostReply k .unsupportedRequest)
    else match s.windowAt k o false with
    | none => s.emitOut (.hostReply k .completerAbort)
    | some (slot, a) =>
      let (st, bs, s1) := s.ctxRead (portDie k) slot 2 1 (runFuel length.val) a length.val
      s1.emitOut (.hostReply k (if st = .done then .data bs else .completerAbort)))

/-! ### Mailbox channels (R495 to R500) -/

/-- A mailbox channel. -/
def State.chan (s : State) (c : Nat) : Channel := s.mbx.channels.get Channel.init c

/-- The state with a channel's queues replaced; its registers follow them. -/
def State.putChan (s : State) (c : Nat) (x : Channel) : State :=
  let s1 := { s with mbx := { s.mbx with channels := s.mbx.channels.put Channel.init c x } }
  let s2 := (s1.setF MBX_C_TO_SET_COUNT c 0 x.toSet.length).setF MBX_C_FROM_SET_COUNT c 0 x.fromSet.length
  (s2.setF MBX_C_PENDING c 0 (bitOf x.held.isSome)).setF MBX_C_OUT_HEAD c 0 ((x.fromSet.head?.map (·.toNat)).getD 0)

/-- The words a queue holds. -/
def channelDepth : Nat := 16

/-- Sends a channel's vector. -/
def State.chanVector (s : State) (c : Nat) : State := s.vectorTo (s.getF MBX_C_HOST c 0) (s.getF MBX_C_VECTOR c 0)

/-- A set is the set end of a channel (R495): it serves the routine set the channel is bound to, in its context.
DEDUCED, log entry 110. -/
def State.chanMine (s : State) (n c : Nat) : Bool :=
  let x := s.setSt n
  decide (c < 64 ∧ s.getF MBX_C_VALID c 0 = 1 ∧ s.getF MBX_C_CONTEXT c 0 = s.ctxOf x.slot ∧ s.getF MBX_C_ROUTINE_SET c 0 = x.routine)

/-- A word enters the to-set queue, which has room (R497). -/
def State.chanPush (s : State) (c : Nat) (w : Word) : State :=
  (s.putChan c { s.chan c with toSet := (s.chan c).toSet ++ [w] }).wrap MBX_C_WORDS_IN c 0 1

/-- The head of the to-set queue is taken, and a held word enters (R497). -/
def State.chanTake (s : State) (c : Nat) : State :=
  let x := s.chan c
  let s1 := s.putChan c { x with toSet := x.toSet.drop 1, held := none }
  match x.held with
  | some w => s1.chanPush c w
  | none => s1

/-- MSEND by the set end (R128, R498): the word is appended, or the core stalls. -/
def State.sendWord (s : State) (n c : Nat) (w : Nat) : State :=
  let x := s.setSt n
  let ch := s.chan c
  if ch.fromSet.length < channelDepth then
    let s1 := (s.putChan c { ch with fromSet := ch.fromSet ++ [BitVec.ofNat 32 w] }).putSet n { x with stall := none }.next
    if ch.fromSet.isEmpty then s1.chanVector c else s1
  else s.putSet n { x with stall := some (.msend c w) }

/-- MRECV by the set end (R128, R439, R443): the oldest word, or the journal's while the context replays; the core stalls
while there is none, and while the journal has no room for it. -/
def State.recvWord (s : State) (n c rd : Nat) : State :=
  let x := s.setSt n
  let got (s : State) (w : Nat) : State :=
    s.putSet n ({ s.setSt n with stall := none }.setReg rd (BitVec.ofNat 64 w)).next
  if s.replaying x.slot then
    match s.takeInput x.slot 0x05 c with
    | (none, s1) => s1
    | (some r, s1) => got s1 (ofBytes r.data)
  else
    match (s.chan c).toSet with
    | w :: _ =>
      if s.journalFull x.slot then s.putSet n { x with stall := some (.mrecv c rd) }
      else got ((s.journal x.slot 0x05 c 0 (toBytes 4 w.toNat)).chanTake c) w.toNat
    | [] => s.putSet n { x with stall := some (.mrecv c rd) }

/-- The channel a stalled core waits at. -/
def Stall.channel : Stall → Nat
  | .msend c _ => c
  | .mrecv c _ => c

/-- A stalled core issues its instruction again. -/
def State.stallGo (s : State) (n : Nat) : State :=
  let x := s.setSt n
  if !s.unitRuns n || decide (x.run ≠ .running) then s
  else match x.stall with
  | none => s
  | some q =>
    if !s.chanMine n q.channel then s.fault n .access 1
    else match q with
    | .msend c w => s.sendWord n c w
    | .mrecv c rd => s.recvWord n c rd

/-- The cores that stall at a channel go on, after something happened to it. -/
def State.chanWake (s : State) (c : Nat) : State :=
  (s.sets.filter fun e => decide (e.2.stall.map Stall.channel = some c)).foldl (fun s e => s.stallGo e.1) s

/-- MSEND (R128, R496). A stalled one is issued again. -/
def execIMsend (set : Fin 768) (ra : Fin 32) (channel : BitVec 8) (s : State) : Res :=
  ok (if (s.setSt set.val).stall.isSome then s.stallGo set.val
    else s.issue set.val [ra.val] fun x =>
      if s.chanMine set.val channel.toNat then s.sendWord set.val channel.toNat ((x.reg ra.val).toNat % 2 ^ 32)
      else s.fault set.val .access 1)

/-- MRECV (R128, R496). A stalled one is issued again. -/
def execIMrecv (set : Fin 768) (rd : Fin 32) (channel : BitVec 8) (s : State) : Res :=
  ok (if (s.setSt set.val).stall.isSome then s.stallGo set.val
    else s.issue set.val [rd.val] fun _ =>
      if s.chanMine set.val channel.toNat then s.recvWord set.val channel.toNat rd.val else s.fault set.val .access 1)

/-- MSEND_TIMEOUT (R496). -/
def execMsendTimeout (set : Fin 768) (s : State) : Res :=
  ok (match (s.setSt set.val).stall with
    | some (.msend c _) =>
      if s.unitRuns set.val then ((s.setF MBX_C_FROM_SET_TIMEOUT c 0 1).chanVector c).fault set.val .timeout 1 else s
    | _ => s)

/-- A word arrives at IN_WORD (R497, R500). -/
def State.inWord (s : State) (c : Nat) (w : Word) : State :=
  if s.getF MBX_C_VALID c 0 = 0 then s.sat MBX_UNBOUND_WORDS 0 0 1
  else if (match s.slotOf (s.getF MBX_C_CONTEXT c 0) with | some i => s.partFenced i | none => false) then s
  else
    let x := s.chan c
    if x.toSet.length < channelDepth then (s.chanPush c w).chanWake c
    else if x.held.isNone then s.putChan c { x with held := some w }
    else s.setF MBX_C_TO_SET_TIMEOUT c 0 1

/-- HELD_WORD_TIMEOUT (R497). -/
def execHeldWordTimeout (channel : Fin 64) (s : State) : Res :=
  let c := channel.val
  ok (if s.ready && (s.chan c).held.isSome then
    ((s.putChan c { s.chan c with held := none }).setF MBX_C_TO_SET_TIMEOUT c 0 1).chanVector c else s)

/-- The effect of a write of 1 to OUT_POP (R498). -/
def State.outPop (s : State) (c : Nat) : State :=
  let x := s.chan c
  if x.fromSet.isEmpty then s.setF MBX_C_UNDERRUN c 0 1
  else ((s.putChan c { x with fromSet := x.fromSet.drop 1 }).wrap MBX_C_WORDS_OUT c 0 1).chanWake c

/-- OUT_POP (R498). -/
def execOutPop (p : Path) (channel : Fin 64) (s : State) : Res :=
  ok (s.via p (MBX_C_OUT_POP.addr channel.val 0) fun s => s.outPop channel.val)

/-- Empties a channel (R500). -/
def State.chanEmpty (s : State) (c : Nat) : State :=
  (((s.putChan c Channel.init).setF MBX_C_TO_SET_TIMEOUT c 0 0).setF MBX_C_FROM_SET_TIMEOUT c 0 0).setF MBX_C_UNDERRUN c 0 0

/-- The effect of a write of a channel's first word (R500). -/
def State.chanBind (s : State) (c v : Nat) : State :=
  ((s.writeWord (MBX_C_CONTEXT.addr c 0) v).chanEmpty c).chanWake c

/-- CHANNEL_BINDING_WRITE (R500). -/
def execChannelBindingWrite (p : Path) (channel : Fin 64) (word : Word) (s : State) : Res :=
  ok (s.via p (MBX_C_CONTEXT.addr channel.val 0) fun s => s.chanBind channel.val word.toNat)

/-! ### Doorbells (R501 to R503) -/

/-- A doorbell adds a value to the counter it is bound to, and the addition is recorded (R439, R501). Where no set serves its
routine set there is nothing to add to. DEDUCED, log entry 112. -/
def State.bellAdd (s : State) (d v : Nat) : State :=
  match s.slotOf (s.getF MBX_D_CONTEXT d 0) with
  | none => s
  | some slot => match s.serves slot (s.getF MBX_D_ROUTINE_SET d 0) with
    | none => s
    | some n => (s.journal slot 0x06 d 0 (toBytes 8 v)).counterAdd slot n (s.getF MBX_D_COUNTER d 0) (BitVec.ofNat 64 v)

/-- A far-end ring (R501, R503): it waits while the journal has no room for it. -/
def State.farRing (s : State) (d v : Nat) : State :=
  if s.getF MBX_D_VALID d 0 = 0 then s.sat MBX_UNBOUND_RINGS 0 0 1
  else if s.getF MBX_D_DIR d 0 = 1 then s
  else match s.slotOf (s.getF MBX_D_CONTEXT d 0) with
  | none => s
  | some slot => if s.partFenced slot || s.journalFull slot then s else s.bellAdd d v

/-- RING (R128, R501 to R503). -/
def execIRing (set : Fin 768) (doorbell : BitVec 8) (s : State) : Res :=
  let d := doorbell.toNat
  ok (s.issue set.val [] fun x =>
    if s.getF MBX_D_VALID d 0 = 0 ∨ s.getF MBX_D_CONTEXT d 0 ≠ s.ctxOf x.slot then s.fault set.val .access 1
    else if !s.released set.val then s
    else
      let on (s : State) : State := s.putSet set.val (s.setSt set.val).next
      if s.getF MBX_D_DIR d 0 = 0 then
        if s.replaying x.slot then
          match s.takeInput x.slot 0x06 d, s.serves x.slot (s.getF MBX_D_ROUTINE_SET d 0) with
          | (some r, s1), some n => on (s1.counterAdd x.slot n (s.getF MBX_D_COUNTER d 0) (BitVec.ofNat 64 (ofBytes r.data)))
          | (_, s1), _ => s1
        else if s.journalFull x.slot then s
        else on (s.bellAdd d 1)
      else
        let s1 := on (s.wrap MBX_D_COUNT d 0 1)
        if s1.getF MBX_D_PENDING d 0 = 1 then s1
        else (s1.setF MBX_D_PENDING d 0 1).vectorTo (s1.getF MBX_D_HOST d 0) (s1.getF MBX_D_VECTOR d 0))

/-- A mailbox command or doorbell that was held during start acts (R53). -/
def State.actHeld (s : State) : HeldCmd → State
  | .inWord _ c w => s.inWord c w
  | .ring _ d v => s.farRing d v.toNat

/-- Whether a mailbox command or doorbell of a path is held (R53). -/
def State.holdsCmd (s : State) (p : Path) : Bool := s.starting && s.pathUp p && s.pathOk p

/-- Holds a command until ready. -/
def State.holdCmdFor (s : State) (c : HeldCmd) : State := { s with boot := { s.boot with held := s.boot.held ++ [c] } }

/-- IN_WORD (R497, R500, R53). -/
def execInWord (p : Path) (channel : Fin 64) (word : Word) (s : State) : Res :=
  ok (if s.holdsCmd p then s.holdCmdFor (.inWord p channel.val word)
    else s.via p (MBX_C_IN_WORD.addr channel.val 0) fun s => s.inWord channel.val word)

/-- RING_WRITE (R501, R503, R53). -/
def execRingWrite (p : Path) (doorbell : Fin 256) (value : Word) (s : State) : Res :=
  ok (if s.holdsCmd p then s.holdCmdFor (.ring p doorbell.val value)
    else s.via p (MBX_D_RING.addr doorbell.val 0) fun s => s.farRing doorbell.val value.toNat)

/-! ### Service ports (R504 to R507) -/

/-- The die that carries a service port (R21). -/
def serviceDie (k : Nat) : Nat := k + 1

/-- An outstanding operation ends (R507): a write of an EXPORT, or the read a RESTORE waits for. -/
def State.rdmaEnd (s : State) (p : RdmaPending) (st : Status) (bs : List Byte) : State :=
  let s1 := { s with mbx := { s.mbx with rdma := s.mbx.rdma.filter fun q => decide (q ≠ p) } }
  match p.op with
  | .read _ _ n => s1.restoreGot p.slot st (padTo n 0 bs)
  | _ =>
    if st = .done then s1
    else
      let z := s1.frzSlot p.slot
      let note (x : Exporting) : Exporting := if x.status = 0 then { x with status := st.num } else x
      s1.putFrz p.slot { z with exporting := z.exporting.map note }

/-- Every outstanding operation of some channels ends with a status, and their pairs take a state. -/
def State.pairsEnd (s : State) (which : Nat → Bool) (qp : Nat) (st : Status) : State :=
  let s1 := (List.range 64).foldl (fun s t => if which t then s.setF MBX_T_QP_STATE t 0 qp else s) s
  (s1.mbx.rdma.filter fun p => which p.channel).foldl (fun s p => if p ∈ s.mbx.rdma then s.rdmaEnd p st [] else s) s1

/-- A service port changes its state. -/
def State.ethState (s : State) (k v : Nat) : State :=
  (s.setF MBX_K_ETH_STATE k 0 v).setBit MBX_ETH_UP 0 0 k (decide (2 ≤ v))

/-- The service ports down, and every queue pair in the reset state (R485, R508). -/
def State.ethDown (s : State) : State :=
  ((s.ethState 0 0).ethState 1 0).pairsEnd (fun _ => true) 0 .aborted

/-- A service port is up. -/
def State.ethUp (s : State) (k : Nat) : Bool := decide (2 ≤ s.getF MBX_K_ETH_STATE k 0)

/-- ETH_LINK_CHANGE (R504, R557): a port trains once the module is ready and its die has power. -/
def execEthLinkChange (port : Fin 2) (up : Fin 4) (s : State) : Res :=
  ok (if up = 0 ∨ (s.ready ∧ s.pwr.mode = .on ∧ s.get HNG_MODULE_FENCED = 0 ∧ s.dieOn (serviceDie port.val)) then s.ethState port.val up.val else s)

/-- The effect of a write of an export channel's first word (R506, R507): VALID 1 moves the pair to ready-to-send with
START_PSN, and 0 to reset; what the pair had outstanding completes with PEER_LOST (DEDUCED, log entry 73). -/
def State.exportBind (s : State) (t v : Nat) : State :=
  let s1 := (s.writeWord (MBX_T_VALID.addr t 0) v).pairsEnd (fun c => decide (c = t)) (v % 2) .peerLost
  { s1 with mbx := { s1.mbx with
      psn := s1.mbx.psn.put 0 t (if v % 2 = 1 then s1.getF MBX_T_START_PSN t 0 else 0)
      slowed := s1.mbx.slowed.put 0 t 0 } }

/-- EXPORT_CHANNEL_VALID (R506). -/
def execExportChannelValid (p : Path) (channel : Fin 64) (word : Word) (s : State) : Res :=
  ok (s.via p (MBX_T_VALID.addr channel.val 0) fun s => s.exportBind channel.val word.toNat)

/-- Places the bytes of an inbound RDMA WRITE (R506): inside the channel's window, with right W, in tier A or B of this module;
none where that fails. -/
def State.storagePlace (s : State) (port t a : Nat) (bs : List Byte) : Option State :=
  let base := s.getF MBX_T_LOCAL_BASE_LO t 0 + 2 ^ 32 * s.getF MBX_T_LOCAL_BASE_HI t 0
  if s.getF MBX_T_INBOUND t 0 = 0 ∨ a < base ∨ base + 2 ^ 21 * s.getF MBX_T_LOCAL_PAGES t 0 < a + bs.length then none
  else match s.slotOf (s.getF MBX_T_CONTEXT t 0) with
  | none => none
  | some slot =>
    if s.partFenced slot then none
    else
      let (st, s1) := s.ctxWrite (serviceDie port) slot 2 (runFuel bs.length) a bs
      if st = .done then some (s1.journal slot 0x03 t a bs) else none

/-- The context of an export channel cannot take an input now, because the journal has no room (R440). -/
def State.storageWaits (s : State) (t : Nat) : Bool :=
  match s.slotOf (s.getF MBX_T_CONTEXT t 0) with
  | some slot => s.journalFull slot
  | none => false

/-- INBOUND_RDMA_WRITE (R506, R507): placed, with its immediate rung; anything else is answered with a NAK, and the pair enters
the error state. DEDUCED, log entry 113. -/
def execInboundRdmaWrite (port : Fin 2) (channel : Fin 64) (psn : BitVec 24) (key : Word) (isWrite : Bool) (addr : BitVec 64)
    (bytes : List Byte) (imm : Option Word) (s : State) : Res :=
  let t := channel.val
  ok (if !s.ethUp port.val then s
    else if s.getF MBX_T_VALID t 0 = 0 then s.sat MBX_K_RX_DROPS port.val 0 1
    else if s.getF MBX_T_QP_STATE t 0 ≠ 1 ∨ s.storageWaits t = true then s
    else
      let placed := if isWrite && decide (key.toNat = 0x480000 + t) then s.storagePlace port.val t addr.toNat bytes else none
      match placed with
      | none => (s.setF MBX_T_QP_STATE t 0 2).emitOut (.rdma t (.nak psn.toNat))
      | some s1 => match imm with
        | some w => if s1.getF MBX_T_DB_VALID t 0 = 1 then s1.farRing (s1.getF MBX_T_DOORBELL t 0) w.toNat else s1
        | none => s1)

/-- The outstanding operation of a channel with a PSN. -/
def State.rdmaOf (s : State) (t psn : Nat) : Option RdmaPending := s.mbx.rdma.find? fun p => decide (p.channel = t ∧ p.psn = psn)

/-- RDMA_ACK (R506, R507). -/
def execRdmaAck (channel : Fin 64) (psn : BitVec 24) (nak : Bool) (bytes : List Byte) (s : State) : Res :=
  let t := channel.val
  ok (match s.rdmaOf t psn.toNat with
    | some p =>
      if s.getF MBX_T_QP_STATE t 0 ≠ 1 then s
      else if nak then (s.setF MBX_T_QP_STATE t 0 2).rdmaEnd p .access []
      else s.rdmaEnd p .done bytes
    | none => s)

/-- RDMA_TIMEOUT (R507): seven retransmissions have had no answer. -/
def execRdmaTimeout (channel : Fin 64) (psn : BitVec 24) (s : State) : Res :=
  let t := channel.val
  ok (match s.rdmaOf t psn.toNat with
    | some p => ((s.sat MBX_K_RETRANSMITS (s.getF MBX_T_PORT t 0 % 2) 0 7).setF MBX_T_QP_STATE t 0 2).rdmaEnd p .timeout []
    | none => s)

/-- CONGESTION_NOTIFICATION_PACKET (R505): the rate of the queue pair is reduced once more. -/
def execCongestionNotificationPacket (channel : Fin 64) (s : State) : Res :=
  let t := channel.val
  ok (if s.getF MBX_T_QP_STATE t 0 = 1 then { s with mbx := { s.mbx with slowed := s.mbx.slowed.put 0 t (s.mbx.slowed.get 0 t + 1) } } else s)

end Sys2Proof.Machine
end

