-- ==== Sys2Proof/Machine/Down.lean ====
section
/-! DEFINITION. Taking units down: the ports kept dark (R309), the sets held in reset, the tiers cleared (R56), tier C's writes
in flight, and what a warm reset and Standby clear of every block (R485). -/

namespace Sys2Proof.Machine

/-- Every optical port dark, and kept dark (R309, R475); an APPLY ends with FENCED (R353). -/
def State.keptDark (s : State) : State := ((List.range 4).foldl State.engineFence s).drawFenced

/-- Every set held in reset with its state cleared. -/
def State.setsHeld (s : State) : State := { s with sets := [] }

/-- Tiers A and B and the slices cleared to zero with valid ECC (R56). -/
def State.tiersZero (s : State) : State :=
  { s with mem := { s.mem with a := [], b := [], errA := [], errB := [], errS := [], held := [], writebacks := [] } }

/-- The tier C controller completes every write it has accepted (R230, R235); nobody waits for them any more.
DEDUCED, log entry 114. -/
def State.tcSettle (s : State) : State :=
  s.tierC.flying.foldl (fun s _ => match s.tcProgram 0 with
    | some (_, s1) => s1
    | none => s) s

/-- Power is lost during tier C writes (R230): each block in flight holds its old or its new content; which, the spec leaves
open. -/
def State.tcCut (s : State) : State :=
  let cut (s : State) (w : TcWrite) : State :=
    (List.range (w.bytes.length / 4096)).foldl (fun s k =>
      let (f, s1) := s.takeFree
      if bit f.toNat 0 then s1.tcStore (w.block + k) ((w.bytes.drop (4096 * k)).take 4096) else s1) s
  let s1 := s.tierC.flying.foldl cut s
  { s1 with tierC := { s1.tierC with flying := [] } }

/-- What Warm and Standby both clear beyond the register fields (R485): contexts, groups, the freeze engine, the journal, fabric
pairs, links, mailboxes and sets. -/
def State.structClear (s : State) : State :=
  let s1 := s.tcSettle.setsHeld
  { s1 with
    ctx := ⟨[], [], [], [], none⟩
    groups := []
    frz := []
    enc := Enc.init
    fab := Fab.init
    links := Links.init
    mbx := ⟨[], [], [], []⟩
    mem := { s1.mem with chans := [], ceRecorded := [], checks := [] } }

/-- What a warm reset clears (R485): the tiers too; the combs stay at temperature (R63), and each set's count of corrections
stays (R102). -/
def State.warmClear (s : State) : State :=
  let ecc := (s.sets.filter fun e => decide (e.2.eccFixed ≠ 0)).map fun e => (e.1, { SetState.init with eccFixed := e.2.eccFixed })
  let s1 := s.structClear
  { s1 with mem := Mem.init, opt := { Opt.init with hot := s1.opt.hot }, sets := ecc }

/-- What entry to Standby clears (R235, R485): tiers A and B are kept, corrected lines are written back, the engines are off. -/
def State.standbyClear (s : State) : State :=
  let wrote (s : State) (w : Nat × Nat) : State := s.putErr w.1 w.2 0
  let s1 := s.mem.writebacks.foldl wrote s
  ({ s1 with mem := { s1.mem with writebacks := [] } }).opticsOff.structClear

/-- Requests a power cycle of the tray (R475): PWRCYC_REQ_N low, every port dark and down, the module fenced, and a notice. -/
def State.powerCycleRequest (s : State) : State :=
  let s1 := ((s.set HNG_PWRCYC_REQ 1).set HNG_MODULE_FENCED 1).set HNG_LEVEL 5
  (((s1.keptDark).ethDown).pcieDown 3).notify .powerCycle 0 5 0 0x3FFF 0 0

end Sys2Proof.Machine
end

