-- ==== Sys2Proof/Machine/Start.lean ====
section
/-! DEFINITION. Cold start, start stages, recovery hold and the staging buffer (R38 to R70, R551). -/

namespace Sys2Proof.Machine

/-! ### Entering a start, recovery hold and ready -/

/-- A cold start from time zero (R49): everything but what survives power loss (R485) is as State.reset has it, and EPOCH
rises (R281). -/
def State.coldStart (s0 : State) : State :=
  let s := s0.tcSettle
  let z := State.reset
  let s1 := { z with
    pending := s.pending
    out := s.out
    free := s.free
    regs := resetRegs .cold s.regs
    epoch := (s.epoch + 1) % 256
    keys := s.keys
    revoked := s.revoked
    testPriv := s.testPriv
    boot := { z.boot with flash := s.boot.flash }
    archives := s.archives
    saveNo := s.saveNo
    tierC := s.tierC
    pins := { s.pins with pgood := true } }
  ((s1.set CFG_STAGE 1).setF CTX_S_STATE 0 0 2)

/-- Enters recovery hold (R50, R64): dies 0 and 3 powered with their sets in reset, the ports dark, Ethernet down. The
counts take their values at a failed start only (R37). -/
def State.enterHold (s : State) (counts : Bool) : State :=
  let s1 := s.when counts State.usableCounts
  let s2 := (s1.keptDark.ethDown.setsHeld).set HNG_MODULE_FENCED (s.get HNG_PWRCYC_REQ)
  ({ s2 with pwr := { s2.pwr with diesOn := 0x9 &&& s2.diesOk }
             boot := { s2.boot with held := [] } }).setPhase 2

/-- A start stage fails (R50): the code, stage and item in CFG, one START_FAIL record, recovery hold. DEDUCED, log entry 146. -/
def State.startFail (s : State) (c : StartCode) (stage item : Nat) : State :=
  let s1 := ((s.set CFG_START_CODE c.num).set CFG_FAIL_STAGE stage).set CFG_FAIL_ITEM item
  (s1.emitMod RT_START_FAIL [c.num, stage, item]).enterHold true

/-- A unit that start retires or repairs (R54, R57): outcome 0 repaired, 1 retired. -/
def State.startRetire (s : State) (kind unit outcome row : Nat) : State :=
  s.emit RT_START_RETIRE .management kind unit 0 [outcome, row]

/-- The lowest set bit of a mask, 0 for none. -/
def lowBit (n m : Nat) : Nat := (setBitsOf n m).headD 0

/-! ### Stages 1 to 4 -/

/-- PGOOD_RISE (R551): power-up ends and a cold start begins. -/
def execPgoodRise (s : State) : Res := ok (if s.pwr.mode = .powering then s.coldStart else s)

/-- CALLER_BOOT (R49): stage 1 completes; the reference is present (DEDUCED, log entry 24). -/
def execCallerBoot (s : State) : Res := ok (if s.stageRuns 1 then (s.set PWR_REF_OK 1).stageComplete 1 else s)

/-- The bytes the flash holds from byte 0 for an image of a length. DESIGN CHOICE, log entry 6. -/
def State.flashBytes (s : State) (n : Nat) : List Byte := s.boot.flash.read 0xFF 0 n

/-- IMAGE_READ (R44, R45): the image is read from the flash and its header and section walk are checked.
DEDUCED, log entry 29. -/
def execImageRead (flashOk : Bool) (s : State) : Res :=
  ok (if !s.stageRuns 2 then s
    else if !flashOk then s.startFail .flashRead 2 0
    else
      let head := s.flashBytes 0x40
      let img := if imgLength head ≤ 0x8000000 then s.flashBytes (max 0x40 (imgLength head)) else head
      match headerCheck img with
      | some c => s.startFail c 2 0
      | none => ({ s with boot := { s.boot with image := img, digest := [] } }).stageComplete 2)

/-- VERIFY (R45): digest, key and signature. The digest verified is kept beside the retained copy (R62). -/
def execVerify (s : State) : Res :=
  ok (if !s.stageRuns 3 then s
    else match verifyCheck s.boot.image s.fuses with
    | (some c, item) => s.startFail c 3 item
    | (none, _) => ({ s with boot := { s.boot with digest := sha512 (s.boot.image.take (imgLength s.boot.image - 196)) } }).stageComplete 3)

/-- PARSE (R562): the sections in order, the skip records of R41, the revocation fuses of R48, and the image applied; or
the first failure. -/
def execParse (s : State) : Res :=
  ok (if !s.stageRuns 4 then s
    else
      let r := parseCheck s.boot.image s.pins.slotId s.fuses
      let s1 := r.skips.foldl (fun s k => s.emitMod RT_START_SKIP [k.1, k.2]) s
      match r.err with
      | some (c, item) => s1.startFail c 4 item
      | none =>
        let s2 := { s1 with revoked := s1.revoked ||| (imgField s1.boot.image 0x0F 0 1 % 16) }
        s2.applyParse.stageComplete 4)

/-! ### Stages 5 to 11 -/

/-- CLOCKS (R49, R63): the root PLL and the dividers lock. -/
def execClocks (locked : Bool) (s : State) : Res :=
  ok (if !s.stageRuns 5 then s
    else if locked then (s.set PWR_ROOT_LOCKED 1).stageComplete 5 else s.startFail .clockLock 5 0)

/-- Takes the repair map that a die's fuses hold for an array (R154). -/
def State.fuseMap (s : State) (m : Fin 3072 × Fin 32) : State :=
  let n := m.1.val / 4
  let u := s.setUnit n
  s.putSetUnit n { u with spare := listSet u.spare (m.1.val % 4) (some m.2.val) }

/-- DIE_POWER (R52): the dies whose rails reach regulation are up and have read their fuses and repair maps; the others
are retired. More than one retired die, or dies 0 and 3 both, fail the start. -/
def execDiePower (regulated : BitVec 4) (fusedMap : List (Fin 3072 × Fin 32)) (s : State) : Res :=
  ok (if !s.stageRuns 6 then s
    else
      let newBad := setBitsOf 4 (0xF - regulated.toNat) |>.filter fun d => !bit s.units.dieBad d
      let s1 := newBad.foldl (fun s d => s.startRetire 0 d 1 0) s
      let s2 := { s1 with units := { s1.units with dieBad := newBad.foldl (fun m d => m + 2 ^ d) s1.units.dieBad } }
      let s3 := fusedMap.foldl State.fuseMap s2
      if popCount 4 s3.units.dieBad > 1 then s3.startFail .diePower 6 (lowBit 4 s3.units.dieBad)
      else ({ s3 with pwr := { s3.pwr with diesOn := s3.diesOk } }).stageComplete 6)

/-- The MEM and MSC registers that state what is in service (R237, R262). -/
def State.memCounts (s : State) : State :=
  let n := popCount 12 s.stacksOk
  let m := popCount 16 s.ctrlsOk
  let s := ((s.set MEM_A_STACKS n).set MEM_B_CTRLS m).set MEM_B_OK s.ctrlsOk
  let s := (s.set MEM_A_GIB (n * 64)).set MEM_B_GIB (m * 80)
  (List.range 12).foldl (fun s k => s.setF MSC_IN_SERVICE k 0 (bitOf (bit s.stacksOk k))) s

/-- The checks of R55 on what remains; the first that fails ends the start. -/
def State.memChecks (s : State) (stage : Nat) : Option State :=
  if popCount 12 s.stacksOk < s.img 0x0D 1 1 then
    some (s.startFail .tooFewStacks stage (lowBit 12 (0xFFF - s.stacksOk)))
  else if s.img 0x0D 2 1 = 1 ∧ s.ctrlsOk ≠ 0xFFFF then some (s.startFail .tierB stage (lowBit 16 (0xFFFF - s.ctrlsOk)))
  else if s.img 0x0D 3 1 = 1 ∧ s.get MEM_C_STATE = 0 then some (s.startFail .tierC stage 0)
  else none

/-- MEMORY_TRAIN (R54, R55, R63, R236): the stacks and packages that failed twice are retired, tier C mounts (read-only
once its spares have fallen to 2 %, R234), and the checks of R55 are made. -/
def execMemoryTrain (stackMask : BitVec 12) (pkgs : BitVec 16) (tierC : Bool) (s : State) : Res :=
  ok (if !s.stageRuns 7 then s
    else
      let newS := setBitsOf 12 stackMask.toNat |>.filter fun k => !bit s.units.stackBad k
      let newP := setBitsOf 16 pkgs.toNat |>.filter fun k => !bit s.units.pkgBad k
      let s1 := newS.foldl (fun s k => s.startRetire 3 k 1 0) s
      let s2 := newP.foldl (fun s k => s.startRetire 4 k 1 0) s1
      let s3 := { s2 with units := { s2.units with
        stackBad := newS.foldl (fun m k => m + 2 ^ k) s2.units.stackBad,
        pkgBad := newP.foldl (fun m k => m + 2 ^ k) s2.units.pkgBad, trained := true } }
      let s4 := (s3.set MEM_C_STATE (if !tierC then 0 else if s3.get MEM_SPARE_LEFT ≤ 2 then 2 else 1)).set MEM_C_BLOCKS
        (if tierC then 536870912 else 0)
      let s5 := s4.memCounts
      match s5.memChecks 7 with
      | some f => f
      | none => s5.stageComplete 7)

/-- SCRUB (R56): tiers A and B are written with zero; a slice or update unit that fails its patterns is retired with its
stack. -/
def execScrub (slices : BitVec 12) (s : State) : Res :=
  ok (if !s.stageRuns 8 then s
    else
      let newS := setBitsOf 12 slices.toNat |>.filter fun k => bit s.stacksOk k
      let s1 := newS.foldl (fun s k => s.startRetire 3 k 1 0) s
      let s2 := { s1 with units := { s1.units with stackBad := newS.foldl (fun m k => m + 2 ^ k) s1.units.stackBad } }
      let s3 := s2.tiersZero.memCounts
      match s3.memChecks 8 with
      | some f => f
      | none => s3.stageComplete 8)

/-- The test of one array (R57, R154): one failed row takes the spare row, when it is free and the retest passes; more
rows, or a failed retest, retire the array. -/
def State.testArray (s : State) (n k : Nat) (rows : List (Fin 32)) (retestOk : Bool) : State :=
  let u := s.setUnit n
  match rows with
  | [] => s
  | r :: more =>
    if !bit u.arrOk k then s
    else if more.isEmpty && retestOk && (u.spare.getD k none).isNone then
      (s.putSetUnit n { u with spare := listSet u.spare k (some r.val) }).startRetire 2 (4 * n + k) 0 r.val
    else (s.putSetUnit n { u with arrOk := u.arrOk - 2 ^ k }).startRetire 2 (4 * n + k) 1 r.val

/-- The test of one set (R57, R58). -/
def State.testSet (s : State) (t : SetTest) : State :=
  let n := t.set.val
  if !s.setOk n then s else
  let s1 := (List.range 4).foldl (fun s k => s.testArray n k (t.rows.getD k []) (t.retestOk.getD k false)) s
  let u := s1.setUnit n
  if t.coreFail || decide (u.arrOk = 0) then (s1.putSetUnit n { u with retired := true }).startRetire 1 n 1 0 else s1

/-- SET_TEST (R57 to R59): repairs and retirements, then the count of R58 on every die in service. -/
def execSetTest (results : List SetTest) (s : State) : Res :=
  ok (if !s.stageRuns 9 then s
    else
      let s1 := results.foldl State.testSet s
      match (List.range 4).find? fun d => bit s1.diesOk d && decide (s1.setsOkOn d < s1.img 0x0D 0 1) with
      | some d => s1.startFail .tooFewSets 9 d
      | none => s1.stageComplete 9)

/-- OPTICS_LOCK (R60): the stage ends and every enabled port goes to link bring-up. -/
def execOpticsLock (s : State) : Res := ok (if s.stageRuns 10 then s.opticsHandoff.stageComplete 10 else s)

/-- The module becomes ready (R37, R61): the counts, READY_CYCLES and PHASE in one cycle; commands held while starting
act (R53). -/
def State.becomeReady (s : State) : State :=
  let s1 := s.stageComplete 11
  let s2 := (s1.setBit CFG_STAGE_DONE 0 0 11 true).set CFG_STAGE 12
  let s3 := s2.set64 CFG_READY_CYCLES_LO CFG_READY_CYCLES_HI 0 s2.callerCycles
  let s4 := (s3.usableCounts.set HNG_MODULE_FENCED (s3.get HNG_PWRCYC_REQ)).setPhase 1
  let held := s4.boot.held
  held.foldl State.actHeld { s4 with boot := { s4.boot with held := [], skipped := 0 } }

/-- TABLES (R61): every Image field is loaded and PHASE changes to ready. -/
def execTables (s : State) : Res := ok (if s.stageRuns 11 then s.applyTables.becomeReady else s)

/-- STAGE_TIMEOUT (R49): the action of the stage's row of the table. Stages 7 to 9 name the units that failed by their
limit in their own events, and stages 3 and 4 end by computation (DEDUCED, log entry 25). -/
def execStageTimeout (stage : Fin 13) (s : State) : Res :=
  ok (if !s.stageRuns stage.val then s
    else match stage.val with
    | 1 => s.startFail .stageTimeout 1 0
    | 2 => s.startFail .flashRead 2 0
    | 5 => s.startFail .clockLock 5 0
    | 6 => s.startFail .diePower 6 (lowBit 4 s.diesOk)
    | 10 => s.opticsHandoff.stageComplete 10
    | 11 => s.startFail .stageTimeout 11 0
    | _ => s)

/-! ### Recovery hold commands (R64 to R67) -/

/-- Ends a HOLD_CMD command with a status. -/
def State.holdResult (s : State) (st : Status) : State := s.set CFG_RESULT st.num

/-- Whether HOLD_CMD of a path is heard at all: the word is reached, the buffer is free or the path's own, and no command
is in progress (R64). -/
def State.holdHeard (s : State) (p : Path) : Bool := s.reaches p 0x20040 && s.mayStage p && decide (s.get CFG_BUSY = 0)

/-- Whether HOLD_CMD acts: in recovery hold, from the path that owns the buffer (DEDUCED, log entry 26). -/
def State.holdActs (s : State) (p : Path) : Bool := s.inHold && decide (s.boot.owner = some p)

/-- HOLD_CMD OPEN (R64): the path claims the staging buffer. -/
def State.holdOpen (s : State) (p : Path) : State :=
  if !s.holdHeard p then s
  else if s.inHold then ({ s with boot := { s.boot with owner := some p } }).holdResult .done
  else s.holdResult .illegal

/-- HOLD_CMD VERIFY (R65): the checks of stages 2 to 4 on the staged copy, with the straps as they are sampled now. -/
def State.holdVerify (s : State) (p : Path) : State :=
  if !s.holdHeard p then s
  else if s.holdActs p then
    let found := (fullCheck s.staged s.pins.slotId s.fuses).map fun e => e.1.num
    ({ s with boot := { s.boot with verifying := some ⟨found, false⟩ } }).set CFG_BUSY 1
  else s.holdResult .illegal

/-- HOLD_CMD PROGRAM (R65, R66): accepted only while STAGED_OK is 1; the flash is erased first. DEDUCED, log entry 30. -/
def State.holdProgram (s : State) (p : Path) : State :=
  if !s.holdHeard p then s
  else if s.holdActs p && decide (s.get CFG_STAGED_OK = 1) then
    (({ s with boot := { s.boot with programming := true, flash := [] } }).set CFG_BUSY 1).set CFG_PROGRESS 0
  else s.holdResult .illegal

/-- HOLD_CMD CLOSE (R64): the buffer is released. -/
def State.holdClose (s : State) (p : Path) : State :=
  if !s.holdHeard p then s
  else if s.holdActs p then ({ s with boot := { s.boot with owner := none } }).holdResult .done
  else s.holdResult .illegal

/-- HOLD_CMD RESTART (R64): a cold start from flash. -/
def State.holdRestart (s : State) (p : Path) : State :=
  if !s.holdHeard p then s else if s.holdActs p then s.coldStart else s.holdResult .illegal

/-- Whether no context other than 0 is bound (R67, R516). -/
def State.onlyContext0 (s : State) : Bool := (List.range 31).all fun i => decide (s.getF CTX_S_STATE (i + 1) 0 = 0)

/-- HOLD_CMD ENTER_HOLD (R67): a ready module with only context 0 bound enters recovery hold. -/
def State.holdEnter (s : State) (p : Path) : State :=
  if !s.holdHeard p then s
  else if !s.ready then s.holdResult .illegal
  else if s.onlyContext0 then (s.holdResult .done).enterHold false
  else s.holdResult .noResource

/-- The command a write to HOLD_CMD names (R69); others are discarded. -/
def State.holdCmd (s : State) (p : Path) (v : Nat) : State :=
  match v with
  | 1 => s.holdOpen p
  | 2 => s.holdVerify p
  | 3 => s.holdProgram p
  | 4 => s.holdClose p
  | 5 => s.holdRestart p
  | 6 => s.holdEnter p
  | _ => s

/-- OPEN (R64). -/
def execHoldOpen (p : Path) (s : State) : Res := ok (s.via p 0x20040 fun s => s.holdOpen p)
/-- HOLD_VERIFY (R65). -/
def execHoldVerify (p : Path) (s : State) : Res := ok (s.via p 0x20040 fun s => s.holdVerify p)
/-- PROGRAM (R65). -/
def execHoldProgram (p : Path) (s : State) : Res := ok (s.via p 0x20040 fun s => s.holdProgram p)
/-- CLOSE (R64). -/
def execHoldClose (p : Path) (s : State) : Res := ok (s.via p 0x20040 fun s => s.holdClose p)
/-- RESTART (R64). -/
def execHoldRestart (p : Path) (s : State) : Res := ok (s.via p 0x20040 fun s => s.holdRestart p)
/-- ENTER_HOLD (R67). -/
def execEnterHold (p : Path) (s : State) : Res := ok (s.via p 0x20040 fun s => s.holdEnter p)

/-- HOLD_VERIFY_DONE (R65): RESULT DONE with STAGED_OK when the copy is unchanged since, or ILLEGAL with the start code. -/
def execHoldVerifyDone (s : State) : Res :=
  ok (match s.boot.verifying with
    | none => s
    | some v =>
      let s1 := ({ s with boot := { s.boot with verifying := none } }).set CFG_BUSY 0
      match v.found with
      | none => (s1.set CFG_STAGED_OK (bitOf !v.changed)).holdResult .done
      | some c => (s1.set CFG_START_CODE c).holdResult .illegal)

/-- PROGRAM_DONE (R65): the flash holds the staged copy and has been read back against it. -/
def execProgramDone (mismatch : Bool) (s : State) : Res :=
  ok (if !s.boot.programming then s
    else
      let s1 := { s with boot := { s.boot with programming := false, flash := SMap.write [] 0xFF 0 s.staged } }
      ((s1.set CFG_BUSY 0).set CFG_PROGRESS 100).holdResult (if mismatch then .uncorrectable else .done))

/-- STAGE_WINDOW_WRITE (R69, R70). -/
def execStageWindowWrite (p : Path) (word : Fin 1024) (value : Word) (s : State) : Res :=
  ok (s.via p 0x21000 fun s => s.stageWindowWrite p (4 * word.val) value.toNat)

/-- STAGE_PAGE_WRITE (R64, R70). -/
def execStagePageWrite (p : Path) (value : Word) (s : State) : Res :=
  ok (s.via p 0x20048 fun s => s.stagePageWrite p value.toNat)

/-- STAGE_LENGTH_WRITE (R64, R70). -/
def execStageLengthWrite (p : Path) (value : Word) (s : State) : Res :=
  ok (s.via p 0x2004C fun s => s.stageLengthWrite p value.toNat)

end Sys2Proof.Machine
end

