-- ==== Sys2Proof/Machine/Reset.lean ====
section
/-! DEFINITION. Watchdogs, captures, fences, the reset ladder, the guilty context, notices and Caller restarts (R465 to
R485, R62, R510). -/

namespace Sys2Proof.Machine

/-! ### Engines (R465) -/

/-- An engine ID names an engine of the module. -/
def engineOk (e : Nat) : Bool :=
  let u := e % 1024
  match e / 1024 with
  | 0 => decide (u < 768)
  | 1 => decide (u = 0)
  | 2 => decide (u = 0)
  | 3 => decide (u < 28)
  | 4 => decide (u < 64)
  | 5 => decide (u < 12)
  | 6 => decide (u < 2)
  | _ => false

/-- The freeze engine has work of a slot. -/
def FrzSlot.busy (z : FrzSlot) : Bool :=
  !z.queue.isEmpty || z.update.isSome || z.drain.isSome || z.parity.isSome || z.exporting.isSome || z.restore.isSome || z.rebuild.isSome

/-- An outstanding operation goes through a service NIC: the port its channel names, port 0 where it names either. -/
def State.nicOf (s : State) (p : RdmaPending) : Nat := if s.getF MBX_T_PORT p.channel 0 = 1 then 1 else 0

/-- A mask of slots. -/
def slotsWith (p : Nat → Bool) : Nat := (List.range 32).foldl (fun m i => if p i then m + 2 ^ i else m) 0

/-- The slots bitmap of the contexts with work on an engine (R465). -/
def State.engineUsers (s : State) (e : Nat) : Nat :=
  let u := e % 1024
  match e / 1024 with
  | 0 =>
    let x := s.setSt u
    if x.bound then slotsWith fun i => decide (i = x.slot ∨ x.lentFrom = some i) else 0
  | 1 => slotsWith fun i => (s.frzSlot i).busy
  | 2 => if s.enc.staged.isEmpty then 0 else 2 ^ s.get ENC_JRN_SLOT
  | 3 => slotsWith fun i => (s.frzSlot i).update.isSome
  | 4 => match (s.group u).run with
    | some r => 2 ^ r.desc.slot
    | none => 0
  | 6 => slotsWith fun i => s.mbx.rdma.any fun p => decide (p.slot = i ∧ s.nicOf p = u)
  | _ => 0

/-- An engine has work that its watchdog times (R465): a set that waits, stalls at a mailbox or at a full queue, a pass, a
promenade block; the shared engines; not while the set holds at a pre-emption point. -/
def State.watches (s : State) (e : Nat) (kind : WatchKind) : Bool :=
  let u := e % 1024
  let x := s.setSt u
  match kind with
  | .setWait => decide (e / 1024 = 0) && s.unitRuns u && x.bound &&
      (decide (x.run = .waiting) || x.stall.isSome || (decide (x.run = .running) && (decide (64 ≤ x.queue.length ∨ 16 ≤ x.proms.length ∨ 8 ≤ (s.frzSlot x.slot).queue.length)
        || (s.groupsOf x.slot).any fun g => decide (8 ≤ (s.group g).queue.length))))
  | .arrayPass => decide (e / 1024 = 0) && s.unitRuns u && x.pass.isSome
  | .promBlock => decide (e / 1024 = 0) && s.unitRuns u && !x.proms.isEmpty
  | .shared => match e / 1024 with
    | 0 => false
    | 5 => (s.portLinks u).any fun L => decide (s.getF LNK_L_LINK_STATE L 0 = 4)
    | _ => decide (s.engineUsers e ≠ 0)

/-- The threshold of a watchdog, in µs (R465). -/
def State.watchUs (s : State) (e : Nat) : WatchKind → Nat
  | .setWait => s.get HNG_ENGINE_WD_US
  | .arrayPass => 100
  | .promBlock => 10000
  | .shared => match e / 1024 with
    | 3 => 10000
    | 5 => 1000
    | _ => 100000

/-- An engine lies in a domain that a reset is clearing (R484). -/
def State.clearing (s : State) (e : Nat) : Bool :=
  s.hng.jobs.any fun j => decide (j.phase = .running) &&
    (decide (j.level = 4 ∨ (j.level = 2 ∧ j.engine = e)) || ((j.level = 1 || j.level = 3) && bit (s.engineUsers e) j.slot))

/-! ### Capture (R467, R468) -/

/-- The code of a set's state (R102). -/
def SetState.code (x : SetState) : Nat :=
  if x.atPoint then 5 else match x.run with
    | .unbound => 0
    | .idle => 1
    | .running => 2
    | .waiting => 3
    | .stopped => 4
    | .inReset => 6

/-- Sparse bytes moved up. -/
def SMap.up (m : SMap Byte) (k : Nat) : SMap Byte := m.map fun e => (e.1 + k, e.2)

/-- What a capture holds of a set: from offset 0x18_C200 to 0x18_E3FF of the save page layout. -/
def SetState.captured (x : SetState) : SMap Byte := layRegs [] 0 8 x.c ++ (x.pageWork []).up 0xE00

/-- The queue of an engine that is no set, 64 bytes for each descriptor. DEDUCED, log entry 118. -/
def State.engineQueue (s : State) (e : Nat) : List Byte :=
  match e / 1024 with
  | 1 => (List.range 32).flatMap fun i => (s.frzSlot i).queue.flatMap RoundDesc.desc
  | 3 => (List.range 32).flatMap fun i => match (s.frzSlot i).update with
    | some u => u.desc.desc
    | none => []
  | 4 => ((s.group (e % 1024)).run.toList.map (·.desc) ++ (s.group (e % 1024)).queue).flatMap RoundDesc.desc
  | _ => []

/-- The bulk of a capture and its length: the set engine, or the engine's queue; then every set of every suspect. -/
def State.bulk (s : State) (engine suspects : Nat) : SMap Byte × Nat :=
  let own : SMap Byte × Nat :=
    if engine < 768 then
      ((s.setSt engine).pageRegs ++ ((s.setSt engine).pageWork []).up 0x18D000, 0x18E400)
    else
      let q := s.engineQueue engine
      ((SMap.write [] 0 0 q), q.length)
  let sets := (setBitsOf 32 suspects).flatMap fun i => (s.setsOf i)
  sets.foldl (fun (m : SMap Byte × Nat) n => (m.1 ++ ((s.setSt n).captured).up m.2, m.2 + 0x2200)) own

/-- Writes the bulk capture (R468): its first byte, its bytes, and the flags. A capture that ends early holds a part whose
length the spec leaves open. -/
def State.bulkWrite (s : State) (engine suspects : Nat) (truncated : Bool) : Nat × Nat × Nat × State :=
  let pages := s.get HNG_BULK_PAGES
  let at_ := 2 ^ 21 * s.get HNG_BULK_PAGE_FIRST
  if pages = 0 then (0, 0, 2, s)
  else
    let (m, n) := s.bulk engine suspects
    let room := min n (2 ^ 21 * pages)
    let (f, s1) := if truncated then s.takeFree else (0, s)
    let k := if truncated then f.toNat % (room / 64 + 1) * 64 else room
    (at_, k, bitOf (truncated || decide (room < n)), s1.blit 1 at_ k (m.filter fun e => decide (e.1 < k)))

/-- The first descriptor of an engine: the address it was pushed from (DEDUCED, log entry 74). -/
def State.headAddr (s : State) (e : Nat) : Nat :=
  match e / 1024 with
  | 0 => let x := s.setSt e; ((x.tiles.map fun r => r.tile.addr) ++ x.queue.map Tile.addr).headD 0
  | 1 => (((List.range 32).flatMap fun i => (s.frzSlot i).queue).map RoundDesc.addr).headD 0
  | 4 => (((s.group (e % 1024)).run.toList.map (·.desc) ++ (s.group (e % 1024)).queue).map RoundDesc.addr).headD 0
  | _ => 0

/-- Captures a domain before its reset (R467): the HANG record of 11 items, the bulk capture, and the notice. The state word
of an engine other than a set or a round sequencer, and its progress count, are open. DEDUCED, log entry 117. -/
def State.capture (s : State) (level slot engine suspects : Nat) (truncated : Bool) : State :=
  let (at_, n, flags, s1) := s.bulkWrite engine suspects truncated
  let (f, s2) := s1.takeFree
  let (g, s3) := s2.takeFree
  let x := s.setSt engine
  let isSet := decide (engine < 768)
  let word := if isSet then x.code else if engine / 1024 = 4 then s.getF RND_G_STATE (engine % 1024) 0 else f.toNat
  let (want, cur) := match isSet, x.wait with
    | true, some (k, v) => (v.toNat, (x.counter k).toNat)
    | _, _ => (0, 0)
  let s4 := s3.emit RT_HANG .management 11 0 0
    [engine, suspects, word, s.headAddr engine, g.toNat, if isSet then x.pc.toNat else 0, want, cur, at_, n, flags]
  let seq := s4.lastSeq .management
  let s5 := if flags / 2 = 1 then s4 else s4.set HNG_BULK_SEQ seq
  s5.notify .hang 0 level slot engine 0 seq

/-! ### Fences (R469, R470) -/

/-- What FENCE and FENCE_LIFT name: the level, and the slot or the engine ID. -/
def domainItems (level slot engine : Nat) : List Nat := [level, if level = 2 then engine else if level = 4 then 0 else slot]

/-- A request of the domain of a reset still awaits its response. -/
def State.undrained (s : State) (j : ResetJob) : Bool :=
  s.fab.sent.any fun q => match j.level with
    | 2 => if j.engine < 768 then decide (q.waiter.set? = some j.engine) else decide (j.engine / 1024 = 1) && !q.waiter.ofSet
    | 4 => false
    | _ => decide (q.ctx = s.ctxOf j.slot)

/-- DRAIN_TIMEOUT (R470): what the fenced domains still await completes with ABORTED. -/
def execDrainTimeout (s : State) : Res :=
  let js := s.hng.jobs.filter fun j => decide (j.phase = .running)
  ok (s.abortSent fun q => js.any fun j => match j.level with
    | 2 => if j.engine < 768 then decide (q.waiter.set? = some j.engine) else decide (j.engine / 1024 = 1) && !q.waiter.ofSet
    | 4 => false
    | _ => decide (q.ctx = s.ctxOf j.slot))

/-! ### Context and partition resets (R471, R472, R474) -/

/-- A set holds at once, its blocks to be redone. -/
def State.holdSet (s : State) (n : Nat) : State :=
  let s1 := s.hardPreempt n
  if (s1.setSt n).bound then s1.putSet n { s1.setSt n with atPoint := true, stall := none } else s1

/-- Steps 1 to 5 of a context reset, and what a partition reset adds there. DEDUCED, log entry 123. -/
def State.contextBegin (s : State) (i level : Nat) : State :=
  let s1 := if bit (s.get HNG_FENCED_SLOTS) i then s
    else (s.setBit HNG_FENCED_SLOTS 0 0 i true).emit RT_FENCE .management 11 0 (s.ctxOf i) (domainItems level i 0)
  let s2 := (s1.evictAll i true)
  let s3 := (s2.setsOf i).foldl (fun s n => if (s.setSt n).slot = i then s.holdSet n else s) s2
  let s4 := (s3.abortRounds i)
  let s5 := (s4.groupsOf i).foldl (fun s g => (s.flushQueue g .aborted).setF RND_G_STATE g 0 3) s4
  let s6 := s5.frzAbort i (decide (level = 3))
  if s6.get ENC_JRN_SLOT = i ∧ s6.enc.active = true then
    ({ s6 with enc := { s6.enc with incomplete := true } }).attemptEnd i else s6

/-- The state of a routine set at binding (R92, R174), with its set memory kept or zeroed. -/
def State.atBinding (s : State) (slot routine n : Nat) (y : SetState) (keep : Bool) : SetState × State :=
  let (st, a, s1) := s.entryPc slot routine
  let pc := if st = .done then a else 0
  ({ y.blank.alone n with
      slot := slot, routine := routine, pc := BitVec.ofNat 64 pc, boundAt := s1.callerCycles,
      run := if pc = 0 then .idle else .running,
      mem := if keep then y.mem else [], err := if keep then y.err else [] }, s1)

/-- Steps 6 and 8: every set of the context starts again, those that none serves in their saved state.
DEDUCED, log entry 122. -/
def State.restartSets (s : State) (i : Nat) (keep : Bool) : State :=
  let live := (s.slot i).setMap.foldl (fun (s : State) e =>
    let (y, s1) := s.atBinding i e.1 e.2 (s.setSt e.2) keep
    s1.putSet e.2 y) s
  let s2 := (live.slot i).saved.foldl (fun (s : State) e =>
    let (y, s1) := s.atBinding i e.1 (1024 + e.1) e.2 keep
    s1.putSlot i { s1.slot i with saved := (s1.slot i).saved.insert e.1 y }) live
  s2.formCrews i

/-- Writes a resume record (R472). -/
def State.resumeRecord (s : State) (i level seq : Nat) (abort : Bool) : State :=
  if s.recField i 56 8 = 0 then s
  else
    let flags := bitOf (bit s.hng.updDone i) + 2 * bitOf (bit s.hng.updTorn i) + 4 * bitOf (bit s.hng.frzLost i) + 8 * bitOf abort + 16 * level
    let r := toBytes 4 (s.getF CTX_S_STEP_NO i 0) ++ toBytes 4 flags ++ toBytes 4 seq ++ toBytes 4 (s.hng.resets.get 0 i) ++ List.replicate 48 0
    ((s.slot i).setMap.map (·.1) ++ (s.slot i).saved.map (·.1)).foldl (fun s k =>
      (s.ctxPut i 0 (s.recField i 56 8 + k * 2 ^ 21 + 0x1FF000) r).2) s

/-- A reset ends (R476): its RESET_DONE record and notice; RESULT is DONE. -/
def State.resetDone (s : State) (level slot engine began : Nat) : State :=
  let us := (s.callerCycles - began) / 225
  let s1 := (s.set HNG_RESULT Status.done.num).emit RT_RESET_DONE .management 11 0 0 (domainItems level slot engine ++ [us])
  s1.notify .resetDone 0 level slot engine 0 (s1.lastSeq .management)

/-- Steps 6 to 8 of a context reset, and what a partition reset adds (R474). DEDUCED, log entry 155. -/
def State.contextFinish (s : State) (j : ResetJob) : State :=
  let i := j.slot
  let level := j.level
  let s1 := s.resetDone level i j.engine j.began
  let seq := s1.lastSeq .management
  let s2 := { s1 with hng := { s1.hng with resets := s1.hng.resets.put 0 i (s1.hng.resets.get 0 i + 1) } }
  let s3 := s2.sat (if level = 3 then HNG_PARTITION_RESETS else HNG_CONTEXT_RESETS) 0 0 1
  let abort := !bit s3.hng.updDone i
  let s4 := (s3.setF CTX_S_STEP_ABORT i 0 (if abort then 1 else s3.getF CTX_S_STEP_ABORT i 0)).setF CTX_S_FAULT_VALID i 0 0
  let s4 := s4.putSlot i { s4.slot i with faulted := false }
  let s5 := if level = 3 then (s4.xlateEmpty i).openPairs (s4.ctxOf i) else s4
  let s6 := (s5.setBit HNG_FENCED_SLOTS 0 0 i false).resumeRecord i level seq (decide (s5.getF CTX_S_STEP_ABORT i 0 = 1))
  let s7 := s6.emit RT_FENCE_LIFT .management 11 0 (s6.ctxOf i) (domainItems level i 0)
  s7.restartSets i (decide (level = 1))

/-! ### Engine resets (R473) -/

/-- The tiles and descriptors of a set complete with ABORTED, which stops no set (R139). -/
def State.abortSet (s : State) (n : Nat) : State :=
  let x := s.setSt n
  let s1 := s.putSet n { x with
    tiles := [], queue := [], proms := [], fused := none, pass := none, active := none, shadow := none,
    arrs := x.arrs.map fun _ => Arr.init }
  let s2 := ((x.tiles.map fun r => r.tile) ++ x.queue).foldl (fun s t =>
    s.complete x.slot t.owner t.addr 13 (leAt t.desc 12 1 % 64) (leAt t.desc 14 2) Status.aborted.num) s1
  x.proms.foldl (fun s p => s.complete x.slot n p.addr 5 (leAt p.desc 6 1 % 64) (leAt p.desc 40 2) Status.aborted.num) s2

/-- An UPDATE of a slot ends with ABORTED after its current block. -/
def State.abortUpdate (s : State) (i : Nat) : State :=
  match (s.frzSlot i).update with
  | none => s
  | some u =>
    let s1 := { s with hng := { s.hng with updTorn := if u.wrote then s.hng.updTorn ||| 2 ^ i else s.hng.updTorn } }
    (s1.putFrz i { s1.frzSlot i with update := none }).frzDone i u.desc .aborted false

/-- An engine reset begins: its fence, and every item on it ends with ABORTED. DEDUCED, log entry 119. -/
def State.engineBegin (s : State) (e : Nat) : State :=
  let u := e % 1024
  let s1 := s.emit RT_FENCE .management 11 0 0 (domainItems 2 0 e)
  match e / 1024 with
  | 0 =>
    let s2 := (s1.abortSet u).evict u true
    if (s2.setSt u).bound then (s2.abortSet u).holdSet u else s2
  | 1 => (List.range 32).foldl (fun s i => if (s.frzSlot i).busy then s.frzAbort i false else s) s1
  | 2 => if s1.enc.active then ({ s1 with enc := { s1.enc with incomplete := true } }).attemptEnd (s1.get ENC_JRN_SLOT) else s1
  | 3 => (List.range 32).foldl State.abortUpdate s1
  | 4 =>
    let s2 := match (s1.group u).run with
      | some r => (s1.sendAbort u r.desc.slot (s1.getF RND_E_SELF u 0) .aborted).endRound u .aborted 3
      | none => s1
    let s3 := s2.flushQueue u .aborted
    s3.putGroup u { s3.group u with heldP := [] }
  | 5 => s1.linksDark [u]
  | _ => (s1.ethState u 0).pairsEnd (fun t => decide (s1.nicOf ⟨t, 0, 0, .nak 0⟩ = u)) 0 .aborted

/-- A context reset of a slot that follows an engine reset, unless one of it is under way. -/
def State.suspectReset (s : State) (engine suspects i : Nat) : State :=
  if s.hng.jobs.any fun j => decide (j.slot = i ∧ (j.level = 1 ∨ j.level = 3)) then s
  else if s.getF CTX_S_STATE i 0 = 0 then s
  else (s.putJobs (s.hng.jobs ++ [ResetJob.mk 1 i engine suspects .running s.callerCycles false none])).contextBegin i 1

/-- The module finds the guilty suspect (R480). -/
def State.guilty (s : State) (i e : Nat) : State :=
  let s1 := ((s.set HNG_GUILTY_SLOT i).set HNG_GUILTY_VALID 1).set HNG_TESTING 0
  let s2 := { s1 with hng := { s1.hng with turns := [], testEng := 0x3FFF, found := true } }
  let s3 := s2.emit RT_GUILTY .management 11 0 (s2.ctxOf i) [i, e]
  let seq := s3.lastSeq .management
  (s3.notify .guilty Status.timeout.num 0 i e 0 seq).contextFault i .timeout 0x3FF seq

/-- An engine is back (R473): its state at ready; then every suspect receives a context reset, or the guilty one a context
fault. -/
def State.engineFinish (s : State) (j : ResetJob) : State :=
  let e := j.engine
  let x := s.setSt e
  let s1 := if e < 768 then s.putSet e (if x.bound then
      { x.blank with slot := x.slot, routine := x.routine, run := .idle, crewId := x.crewId, crewSize := x.crewSize,
                     crewIndex := x.crewIndex, cutin := x.cutin, crew := x.crew, boundAt := x.boundAt } else x.blank) else s
  let s2 := ((s1.sat HNG_ENGINE_RESETS 0 0 1).resetDone 2 j.slot e j.began).emit RT_FENCE_LIFT .management 11 0 0 (domainItems 2 0 e)
  match j.guilty with
  | some i => s2.guilty i e
  | none => (setBitsOf 32 j.suspects).foldl (fun s i => s.suspectReset e j.suspects i) s2

/-- The isolation of the suspects of an engine begins (R479) once the last of them has been reset. -/
def State.turnsBegin (s : State) (j : ResetJob) : State :=
  if j.suspects = 0 ∨ j.engine = 0x3FFF ∨ s.hng.jobs.any (fun k => decide (k.engine = j.engine ∧ k.level = 1)) = true then s
  else match setBitsOf 32 j.suspects with
  | [] => s
  | i :: rest => (({ s with hng := { s.hng with turns := rest, testEng := j.engine, found := false } }).set HNG_TESTING 1).set HNG_UNDER_TEST i

/-! ### Warm reset (R62, R63, R460, R475) -/

/-- The units that were lost are retired (R229, R485). -/
def State.retireLost (s : State) : State :=
  let st := (List.range 12).foldl (fun m k => if s.getF MEM_STACK_LOST k 0 = 1 then m ||| 2 ^ k else m) s.units.stackBad
  let pk := (List.range 16).foldl (fun m k => if bit (s.getF MEM_CTRL_STATUS k 0) 24 then m ||| 2 ^ k else m) s.units.pkgBad
  { s with units := if s.units.trained then { s.units with stackBad := st, pkgBad := pk } else { Units.init with stackBad := st, pkgBad := pk } }

/-- A warm reset of a module that is not starting: the module fence, the archive, EPOCH, what is cleared, and the stages from
PARSE on, or from IMAGE_READ where the retained copy no longer has its digest. DEDUCED, log entry 126.
DEDUCED, log entry 127. -/
def State.warmBegin (s : State) (began : Nat) : State :=
  let s1 := ((s.emit RT_FENCE .management 11 0 0 (domainItems 4 0 0)).retireLost.ethDown).pcieDown 3
  let s2 := s1.archiveSave 1
  let img := s2.boot.image
  let same := decide (img ≠ [] ∧ s2.boot.digest = sha512 (img.take (imgLength img - 196)))
  let regs := resetRegs .warm s2.regs
  let fresh (e : Nat × Word) : Nat × Word := if e.1 / 0x10000 = 0x0D then resetWord .dormant e else e
  let s3 := { s2.warmClear with
    regs := if s2.units.trained then regs else (regs.map fresh).filter fun e => decide (e.2 ≠ BitVec.ofNat 32 (regDefault e.1)) }
  let s4 := { s3 with
    epoch := (s3.epoch + 1) % 256
    pwr := { s3.pwr with diesOn := 0, trans := none }
    opt := { s3.opt with dark := if s.get HNG_PWRCYC_REQ = 1 then 15 else s3.opt.dark }
    boot := { s3.boot with
      started := 0, skipped := if same then 0x7 else 0x1, stageStart := List.replicate 12 0, owner := none, verifying := none,
      programming := false }
    hng := { s3.hng with
      jobs := [ResetJob.mk 4 0 0x3FFF 0 .running began false none], turns := [], testEng := 0x3FFF, found := false, resets := [],
      updDone := 0, updTorn := 0, frzLost := 0 } }
  let s5 := (((((s4.sat HNG_WARM_RESETS 0 0 1).setPhase 3).set CFG_WARM 1).setF CTX_S_STATE 0 0 2).set HNG_MODULE_FENCED 1).set
    HNG_PWRCYC_REQ (s.get HNG_PWRCYC_REQ)
  let s5 := s5.giveBulk
  let s6 := if same then s5
    else ((s5.set CFG_START_CODE StartCode.retainedCopy.num).emitMod RT_START_FAIL [StartCode.retainedCopy.num, 2, 0])
  s6.showJobs.beginStages

/-- A warm reset: held while the module starts (R53, R484). -/
def State.warmReset (s : State) : State :=
  if s.starting then { s with boot := { s.boot with heldWarm := true } } else s.warmBegin s.callerCycles

/-- HELD_WARM_RESET (R53). -/
def execHeldWarmReset (s : State) : Res :=
  ok (if s.boot.heldWarm && !s.starting then ({ s with boot := { s.boot with heldWarm := false } }).warmReset else s)

/-! ### The ladder (R476 to R478) -/

/-- A reset begins, after its capture. -/
def State.resetBegin (s : State) (j : ResetJob) : State :=
  match j.level with
  | 1 => s.contextBegin j.slot 1
  | 2 => s.engineBegin j.engine
  | 3 =>
    let s1 := s.contextBegin j.slot 3
    (s1.setsOf j.slot).foldl (fun s n => s.abortSet n) s1
  | _ => s.warmReset

/-- RESET_CMD (R478, R484): the capture and the start of a reset. DEDUCED, log entry 116. DEDUCED, log entry 121. -/
def State.resetCmd (s : State) (level slot engine : Nat) : State :=
  if level = 0 ∨ 4 < level then s
  else if s.get HNG_BUSY = 1 ∧ level ≤ s.get HNG_LEVEL then s
  else if ((level = 1 ∨ level = 3) ∧ s.getF CTX_S_STATE slot 0 = 0) ∨ (level = 2 ∧ engineOk engine = false) then
    if s.get HNG_BUSY = 1 then s else s.set HNG_RESULT Status.access.num
  else if level = 4 ∧ s.starting then s.warmReset
  else
    let old := s.hng.jobs.foldl (fun m j => m ||| j.suspects ||| (if j.level = 1 ∨ j.level = 3 then 2 ^ j.slot else 0)) 0
    let users := if level = 2 ∧ engine / 1024 ≠ 4 then s.engineUsers engine else 0
    let suspects := setBits (old ||| users) 32 32 0
    let j : ResetJob := ⟨level, if level = 2 then 0 else slot, if level = 2 then engine else 0x3FFF,
      if level = 2 then suspects else if level = 4 then 0 else setBits suspects slot slot 0, .running, s.callerCycles, false, none⟩
    let shown := if level = 1 ∨ level = 3 then 2 ^ slot else suspects
    let s1 := (s.capture level j.slot j.engine shown false).putJobs [j]
    (if level = 2 then s1.set HNG_SUSPECTS suspects else s1).resetBegin j

/-- CONTEXT_RESET (R471, R478). -/
def execContextReset (slot : Fin 32) (s : State) : Res := ok (s.resetCmd 1 slot.val 0)
/-- ENGINE_RESET (R473, R478). -/
def execEngineReset (engine : BitVec 14) (s : State) : Res := ok (s.resetCmd 2 0 engine.toNat)
/-- PARTITION_RESET (R474, R478). -/
def execPartitionReset (slot : Fin 32) (s : State) : Res := ok (s.resetCmd 3 slot.val 0)
/-- WARM_RESET (R475, R478). -/
def execWarmReset (s : State) : Res := ok (s.resetCmd 4 0 0)

/-- CAPTURE_DONE (R467, R477): the capture of a cause ends; the reset begins, unless AUTO_ESCALATE was 0. -/
def execCaptureDone (truncated : Bool) (s : State) : Res :=
  ok (match s.hng.jobs.find? fun j => decide (j.phase = .capturing) with
    | none => s
    | some j =>
      let shown := if j.level = 1 ∨ j.level = 3 then 2 ^ j.slot else j.suspects
      let s1 := s.capture j.level j.slot j.engine shown truncated
      let others := s1.hng.jobs.filter fun k => decide (k ≠ j)
      if j.noStart then s1.putJobs others
      else
        let k := { j with phase := .running, began := s1.callerCycles }
        let s2 := s1.putJobs (if j.level = 4 then [] else others ++ [k])
        (if j.level = 2 then s2.set HNG_SUSPECTS (s2.get HNG_SUSPECTS ||| j.suspects) else s2).resetBegin k)

/-- RESET_COMPLETE (R476): the oldest reset that runs completes, once its domain is drained; a warm reset with the end of its
start. -/
def execResetComplete (s : State) : Res :=
  ok (match s.hng.jobs.find? fun j => decide (j.phase = .running) && !s.undrained j && (decide (j.level ≠ 4) || !s.starting) with
    | none => s
    | some j =>
      let s1 := s.putJobs (s.hng.jobs.filter fun k => decide (k ≠ j))
      match j.level with
      | 2 => s1.engineFinish j
      | 4 => (s1.resetDone 4 0 0x3FFF j.began).emit RT_FENCE_LIFT .management 11 0 0 (domainItems 4 0 0)
      | 1 => (s1.contextFinish j).turnsBegin j
      | _ => (setBitsOf 32 j.suspects).foldl (fun s i => s.suspectReset 0x3FFF 0 i) (s1.contextFinish j))

/-- The engines that have not released their part of a context's work (R476): those whose requests still await a response,
else every set of the context. DEDUCED, log entry 120. -/
def State.holders (s : State) (slot : Nat) : List Nat :=
  let qs := s.fab.sent.filter fun q => decide (q.ctx = s.ctxOf slot)
  let sets := (qs.filterMap fun q => q.waiter.set?).eraseDups
  let frz := if qs.any fun q => !q.waiter.ofSet then [0x400] else []
  if sets = [] ∧ frz = [] then s.setsOf slot else sets ++ frz

/-- Starts the next level on a domain, without a further capture of what hangs (R476). -/
def State.nextLevel (s : State) (j : ResetJob) : State := (s.putJobs (s.hng.jobs ++ [j])).resetBegin j

/-- RESET_TIMEOUT (R476): the oldest reset that runs has passed its budget, and the next level is taken. -/
def execResetTimeout (s : State) : Res :=
  ok (match s.hng.jobs.find? fun j => decide (j.phase = .running) with
    | none => s
    | some j =>
      let budget := match j.level with
        | 1 => s.get HNG_CONTEXT_RESET_US
        | 2 => s.get HNG_ENGINE_RESET_US
        | 3 => s.get HNG_PARTITION_RESET_US
        | _ => 1000 * s.get HNG_WARM_RESET_MS
      let s1 := s.putJobs (s.hng.jobs.filter fun k => decide (k ≠ j))
      let s2 := ((s1.sat HNG_ESCALATIONS 0 0 1).set HNG_RESULT Status.timeout.num).emit RT_RESET_TIMEOUT .management 11 0 0
        (domainItems j.level j.slot j.engine ++ [budget])
      let s3 := s2.notify .escalation Status.timeout.num (j.level + 1) j.slot j.engine 0 (s2.lastSeq .management)
      let mk (level slot engine suspects : Nat) : ResetJob := ⟨level, slot, engine, suspects, .running, s3.callerCycles, false, none⟩
      match j.level with
      | 1 => (s3.holders j.slot).foldl (fun s e => s.nextLevel (mk 2 0 e (2 ^ j.slot))) s3
      | 2 => match setBitsOf 32 j.suspects with
        | [] => s3.nextLevel (mk 4 0 0x3FFF 0)
        | is => is.foldl (fun s i => s.nextLevel (mk 3 i 0x3FFF 0)) s3
      | 3 => s3.nextLevel (mk 4 0 0x3FFF 0)
      | _ => s3.powerCycleRequest)

/-- WATCHDOG (R465, R477, R480, R484). -/
def execWatchdog (engine : BitVec 14) (kind : WatchKind) (s : State) : Res :=
  let e := engine.toNat
  ok (if !s.ready || !engineOk e || !s.watches e kind then s
    else
      let s1 := s.sat HNG_WATCHDOGS_FIRED 0 0 1
      if s.clearing e then s1
      else
        let users := s.engineUsers e
        let x := s.setSt e
        let s2 := s1.emit RT_WATCHDOG .management 11 0 0 [e, s.watchUs e kind, users]
        let s3 := s2.notify .watchdog 0 0 (if e < 768 then x.slot else 0) e 0 (s2.lastSeq .management)
        if s3.get HNG_TESTING = 1 ∧ s3.hng.testEng = e then s3.causeReset 2 0 e (2 ^ s3.get HNG_UNDER_TEST) (some (s3.get HNG_UNDER_TEST))
        else if kind = .setWait then s3.causeReset 1 x.slot e 0 none
        else s3.causeReset 2 0 e (if e / 1024 = 4 ∨ e / 1024 = 5 then 0 else users) none)

/-- ISOLATE_TURN_END (R479): the suspect is cleared. -/
def execIsolateTurnEnd (s : State) : Res := ok (if s.get HNG_TESTING = 1 then s.turnNext false else s)

/-! ### Notices (R482, R483) -/

/-- The unacknowledged notices replaced; NOTICE_PENDING follows. -/
def State.putNotices (s : State) (ns : List Notice) : State :=
  ({ s with hng := { s.hng with notices := ns } }).set HNG_NOTICE_PENDING (min 65535 ns.length)

/-- NOTICE_RESEND (R483): the eighth send is the last. DEDUCED, log entry 128. -/
def execNoticeResend (seq : Word) (s : State) : Res :=
  ok (match s.hng.notices.find? fun n => decide (n.seq = seq.toNat) with
    | none => s
    | some n =>
      if !s.callerOn || decide (s.get HNG_FM_VALID = 0) then s
      else if 8 ≤ n.sends then (s.putNotices (s.hng.notices.filter fun m => decide (m ≠ n))).sat HNG_NOTICES_LOST 0 0 1
      else
        let up (m : Notice) : Notice := if m = n then { m with sends := m.sends + 1 } else m
        (s.putNotices (s.hng.notices.map up)).post n.e2e (.notice (s.get HNG_FM_MODULE) n.bytes))

/-- The effect of a write to NOTICE_ACK (R483): every notice up to `n`, in sending order. -/
def State.noticesAck (s : State) (n : Nat) : State := s.putNotices (s.hng.notices.filter fun m => decide (n < m.seq))

/-- NOTICE_ACK (R483). -/
def execNoticeAck (p : Path) (seq : Word) (s : State) : Res :=
  ok (s.via p (HNG_NOTICE_ACK.addr 0 0) fun s => s.noticesAck seq.toNat)

/-! ### Caller restarts (R477, R510) -/

/-- The Caller restarts: counted and recorded; what it does goes on with its budget afresh; the third restart within 10 s
asks for a power cycle while AUTO_ESCALATE is 1. -/
def State.callerRestart (s : State) (cause : Nat) : State :=
  let recent := (s.hng.restarts.filter fun c => decide (s.callerCycles < c + 2250000000)) ++ [s.callerCycles]
  let again (j : ResetJob) : ResetJob := { j with began := s.callerCycles }
  let s1 := { s with hng := { s.hng with restarts := recent, jobs := s.hng.jobs.map again } }
  let s2 := (s1.sat HNG_CALLER_RESTARTS 0 0 1).emitCaller RT_CALLER_RESTART [cause]
  if 3 ≤ recent.length ∧ s.get HNG_AUTO_ESCALATE = 1 ∧ s.get HNG_PWRCYC_REQ = 0 then s2.powerCycleRequest else s2

/-- CALLER_WATCHDOG (R477). -/
def execCallerWatchdog (s : State) : Res := ok (if s.callerOn then s.callerRestart 0 else s)

/-- The fields that are kept through Standby take their Defaults: the management state of R510 is lost. -/
def State.dropManagement (s : State) : State :=
  let one (e : Nat × Word) : Nat × Word :=
    (e.1, BitVec.ofNat 32 ((blockFields (e.1 / 0x10000)).foldl (fun w f => if f.at e.1 && decide (f.kept = .standby) then f.set w f.dflt else w) e.2.toNat))
  { s with
    regs := (s.regs.map one).filter fun e => decide (e.2 ≠ BitVec.ofNat 32 (regDefault e.1))
    hng := { Hng.init with restarts := s.hng.restarts } }

/-- RETAINED_MEMORY_ERROR (R510): of the image copy, found by the next check of R62; of another region, which then holds its
Default values after a restart. DEDUCED, log entry 125. -/
def execRetainedMemoryError (region : Fin 4) (s : State) : Res :=
  ok (if !s.callerOn then s else match region.val with
    | 0 => { s with boot := { s.boot with digest := [] } }
    | 1 => ({ s with dcd := Dcd.init }).callerRestart 1
    | 2 => ({ s with units := { s.units with trained := false } }).callerRestart 1
    | _ => s.dropManagement.callerRestart 1)

end Sys2Proof.Machine
end

