-- ==== Sys2Proof/Machine/Rebind.lean ====
section
/-! DEFINITION. The end of REBIND and RELEASE (R397, R400, R401). -/

namespace Sys2Proof.Machine

/-! ### Leaving (R397, R400) -/

/-- A moving set lets go: the tiles it runs for crewmates go back to their owners, and its requests end with ABORTED.
DEDUCED, log entry 124. -/
def State.letGo (s : State) (n : Nat) : State :=
  let x := s.setSt n
  let s1 := (x.tiles.filter fun r => decide (r.tile.owner ≠ n)).foldl (fun s r => s.requeue n r ((s.setSt n).redoOf r)) s
  let c := s1.ctxOf x.slot
  s1.abortSent fun q => decide (q.ctx = c ∧ q.waiter.set? = some n)

/-- A set is unbound from a slot, with its registers, counters and memory zeroed. -/
def State.unbindSet (s : State) (slot n : Nat) : State :=
  let x := s.setSt n
  let i := s.slot slot
  (s.putSet n x.blank).putSlot slot { i with setMap := i.setMap.erase x.routine }

/-- SETS of a slot follows its set map; its crews are formed anew. -/
def State.setsAnew (s : State) (slot : Nat) : State :=
  (s.setF CTX_S_SETS slot 0 (s.slot slot).setMap.length).formCrews slot

/-- A page leaves a slot for another, or is freed: written with zero, its owner set, the counts of both slots. -/
def State.movePage (s : State) (slot toSlot tier page : Nat) : State :=
  let s1 := s.zeroPage tier page
  let own (m : SMap Nat) : SMap Nat := if toSlot = 0xFF then m.erase page else m.insert page (s.ctxOf toSlot)
  let c := { s1.ctx with fenced := s1.ctx.fenced.erase (page + 2 ^ 20 * tier) }
  let s2 := { s1 with ctx := if tier = 0 then { c with ownerA := own c.ownerA } else { c with ownerB := own c.ownerB } }
  let f := if tier = 0 then CTX_S_PAGES_A else CTX_S_PAGES_B
  let s3 := s2.setF f slot 0 (s2.getF f slot 0 - 1)
  if toSlot = 0xFF then s3 else s3.setF f toSlot 0 (s3.getF f toSlot 0 + 1)

/-- A piece of a tier C extent leaves a slot at one of its ends, is trimmed, and joins another slot's at one of its (R397; log
entry 68). -/
def State.moveBlocks (s : State) (slot toSlot first n : Nat) : State :=
  let s1 := s.tcTrim first n
  let f := s1.getF CTX_S_EXT_FIRST slot 0
  let k := s1.getF CTX_S_EXT_BLOCKS slot 0 - n
  let s2 := (s1.setF CTX_S_EXT_FIRST slot 0 (if k = 0 then 0 else if first = f then f + n else f)).setF CTX_S_EXT_BLOCKS slot 0 k
  if toSlot = 0xFF then s2
  else
    let tf := s2.getF CTX_S_EXT_FIRST toSlot 0
    let tk := s2.getF CTX_S_EXT_BLOCKS toSlot 0
    (s2.setF CTX_S_EXT_FIRST toSlot 0 (if tk = 0 ∨ first + n = tf then first else tf)).setF CTX_S_EXT_BLOCKS toSlot 0 (tk + n)

/-- An entry of a re-bind list that moves no set. -/
def State.moveEntry (s : State) (slot : Nat) (e : List Byte) : State :=
  let toSlot := leAt e 1 1
  match leAt e 0 1 with
  | 2 => (listed e).foldl (fun s p => s.movePage slot toSlot (leAt e 2 1) p) s
  | 3 => s.moveBlocks slot toSlot (leAt e 4 4) (leAt e 8 4)
  | 4 => (listed e).foldl (fun s g => s.groupLeave g (if toSlot = 0xFF then 0 else s.ctxOf toSlot)) s
  | 5 => s.setF CTX_S_LINK_SHARE toSlot 0 (leAt e 4 4)
  | _ => s

/-- The received sets of an entry: each takes the receiver's saved state, or starts fresh; a faulted receiver's set stops. -/
def State.giveSets (s : State) (e : List Byte) : State :=
  let toSlot := leAt e 1 1
  if leAt e 0 1 ≠ 1 ∨ toSlot = 0xFF then s
  else (List.range (leAt e 8 4)).foldl (fun s k =>
    let n := leAt e 4 4 + k
    let r := leAt e 12 2 + k
    let s1 := s.putSlot toSlot { s.slot toSlot with setMap := (s.slot toSlot).setMap.insert r n }
    let s2 := s1.restoreSet toSlot r n
    if (s2.slot toSlot).faulted then s2.putSet n (s2.setSt n).halt else s2) s

/-- The slots a list moves something to. -/
def receivers (es : List (List Byte)) : List Nat := ((es.map fun e => leAt e 1 1).filter fun i => decide (i ≠ 0xFF)).eraseDups

/-- Steps 3 to 7 of a REBIND. -/
def State.rebindEnd (s : State) (j : CtxJob) : State :=
  let i := j.slot
  let s1 := j.moving.foldl State.letGo s
  let s2 := j.moving.foldl (fun s n => s.saveSet i n) s1
  let s3 := j.moving.foldl (fun s n => s.unbindSet i n) s2
  let s4 := j.list.foldl (fun s e => s.moveEntry i e) s3
  let slots := i :: receivers j.list
  let s5 := slots.foldl State.xlateEmpty s4
  let s6 := j.list.foldl State.giveSets s5
  let s7 := slots.foldl State.setsAnew s6
  ({ s7 with ctx := { s7.ctx with job := none, fenced := [] } }.setF CTX_S_STATE i 0 2).wrap CTX_REBINDS 0 0 1

/-! ### Release (R401, R500, R509) -/

/-- Words of the control space at their Default. -/
def State.defaults (s : State) (a n : Nat) : State := (List.range n).foldl (fun s k => s.putWord (a + 4 * k) (regDefault (a + 4 * k))) s

/-- Every window, channel, doorbell and storage channel of a context is cleared. -/
def State.portsLeave (s : State) (c : Nat) : State :=
  let s1 := (List.range 16).foldl (fun s k =>
    if s.getF MBX_W_CONTEXT (k / 8) (k % 8) = c then s.defaults (MBX_W_CONTEXT.addr (k / 8) (k % 8)) 3 else s) s
  let s2 := (List.range 64).foldl (fun s k =>
    if s.getF MBX_C_CONTEXT k 0 = c then ((s.chanEmpty k).defaults (MBX_C_CONTEXT.addr k 0) 3) else s) s1
  let s3 := (List.range 256).foldl (fun s k =>
    if s.getF MBX_D_CONTEXT k 0 = c then s.defaults (MBX_D_CONTEXT.addr k 0) 4 else s) s2
  (List.range 64).foldl (fun s k =>
    if s.getF MBX_T_CONTEXT k 0 = c then (s.pairsEnd (fun t => decide (t = k)) 0 .aborted).defaults (MBX_T_VALID.addr k 0) 16 else s) s3

/-- The journal and a replay of a slot end. -/
def State.encoreLeave (s : State) (i : Nat) : State :=
  if s.get ENC_JRN_SLOT ≠ i then s
  else
    let s1 := if s.enc.replay.isSome then s.replayStop else s
    if s1.get ENC_JRN_ENABLE = 1 then s1.journalOff else s1

/-- The end of a RELEASE: everything of the context is cleared, and the slot is free. -/
def State.releaseEnd (s : State) (j : CtxJob) : State :=
  let i := j.slot
  let c := s.ctxOf i
  let s1 := j.moving.foldl State.letGo s
  let s2 := (s1.abortSent fun q => decide (q.ctx = c)).abortRounds i
  let s3 := (s2.frzAbort i true).encoreLeave i
  let s3 := if s3.getF CTX_S_GUEST i 0 = 1 then s3
    else j.moving.foldl (fun s n => s.savePage i (s.setSt n).routine (s.setSt n)) s3
  let s4 := j.moving.foldl (fun s n => s.unbindSet i n) s3
  let pages (m : SMap Nat) : List Nat := (m.filter fun e => decide (e.2 = c)).map (·.1)
  let s5 := (pages s4.ctx.ownerA).foldl (fun s p => s.movePage i 0xFF 0 p) s4
  let s6 := (pages s5.ctx.ownerB).foldl (fun s p => s.movePage i 0xFF 1 p) s5
  let s7 := s6.tcTrim (s6.getF CTX_S_EXT_FIRST i 0) (s6.getF CTX_S_EXT_BLOCKS i 0)
  let mine := (List.range 64).filter fun g => decide (s7.getF RND_E_CONTEXT g 0 = c ∧ s7.getF RND_E_VALID g 0 = 1)
  let s8 := mine.foldl (fun s g => s.groupLeave g 0) s7
  let s9 := (((s8.portsLeave c).xlateEmpty i).openPairs c).defaults (FRZ_S_SLOT_BLOCKS.addr i 0) 16
  let s10 : State := { s9 with
    frz := s9.frz.erase i
    ctx := { s9.ctx with slots := s9.ctx.slots.erase i, job := none, fenced := [] }
    hng := { s9.hng with
      resets := s9.hng.resets.erase i, updDone := setBits s9.hng.updDone i i 0, updTorn := setBits s9.hng.updTorn i i 0,
      frzLost := setBits s9.hng.frzLost i i 0, turns := s9.hng.turns.filter fun k => decide (k ≠ i) } }
  let s11 := (s10.setBit HNG_FENCED_SLOTS 0 0 i false).emit RT_FENCE_LIFT .management 11 0 c (domainItems 3 i 0)
  let s12 := ((s11.defaults (CTX_S_CONTEXT.addr i 0) 16).set CTX_SLOTS_BOUND (s11.get CTX_SLOTS_BOUND - 1)).wrap CTX_REBINDS 0 0 1
  if s12.get HNG_TESTING = 1 ∧ s12.get HNG_UNDER_TEST = i then s12.turnNext true else s12

/-- A REBIND or RELEASE has passed its budget (R401): RESULT TIMEOUT, its fences end, and a partition reset of the slot follows
(R477). -/
def State.rebindTimeout (s : State) (j : CtxJob) : State :=
  let s1 := { s with ctx := { s.ctx with job := none, fenced := [] } }.setF CTX_S_STATE j.slot 0 2
  let s2 := if j.cmd = 3 then (s1.setBit HNG_FENCED_SLOTS 0 0 j.slot false).emit RT_FENCE_LIFT .management 11 0 (s1.ctxOf j.slot)
    (domainItems 3 j.slot 0) else s1
  (s2.ctxEnd .timeout 0).causeReset 3 j.slot 0x3FFF 0 none

/-- REBIND_DONE (R401): with every moving set at its pre-emption point, the resources move; or the budget has passed. -/
def execRebindDone (timeout : Bool) (s : State) : Res :=
  ok (match s.ctx.job with
    | none => s
    | some j =>
      if timeout then s.rebindTimeout j
      else if !s.ready || !(j.moving.all fun n => (s.setSt n).atPoint || !(s.setSt n).bound) then s
      else (if j.cmd = 2 then s.rebindEnd j else s.releaseEnd j).ctxEnd .done 0)

end Sys2Proof.Machine
end

