-- ==== Sys2Proof/Machine/Power.lean ====
section
/-! DEFINITION. Power states, temperature, throttling, droop and clock loss (R510 to R527), and the pins and their
sequencing (R540 to R557). -/

namespace Sys2Proof.Machine

/-! ### Power states (R515 to R518) -/

/-- The state of POWER_STATE records: MOD.POWER, and 3 for Dormant (DEDUCED, log entry 31). -/
def State.powerState (s : State) : Nat :=
  match s.pwr.mode with
  | .standby => 2
  | .dormant => 3
  | _ => s.get MOD_POWER

/-- Begins a transition (R515, R516). -/
def State.beginTransition (s : State) (t : Transition) : State :=
  let s1 := s.set PWR_TRANSITION 1
  { s1 with pwr := { s1.pwr with trans := some t, oldState := s1.powerState } }

/-- The steps of leaving Run: module fence, ports dark, PCIe and Ethernet down (R515). -/
def State.leaveRun (s : State) : State := (((s.set HNG_MODULE_FENCED 1).keptDark).ethDown).pcieDown 3

/-- STANDBY (R515, R516): accepted while PHASE reads ready, in Run or Idle, with only context 0 bound. -/
def State.cmdStandby (s : State) : State :=
  if s.get PWR_TRANSITION = 1 then s
  else if s.ready && s.onlyContext0 && decide (s.pwr.mode = .on) then (s.beginTransition .toStandby).leaveRun
  else s.set PWR_RESULT Status.noResource.num

/-- RUN (R515, R516): accepted only in Standby; the stages of the way back begin. -/
def State.cmdRun (s : State) : State :=
  if s.get PWR_TRANSITION = 1 then s
  else if s.pwr.mode = .standby then
    let s1 := (s.beginTransition .toRun).setPhase 0
    let s2 := { s1 with
      pwr := { s1.pwr with mode := .on }
      boot := { s1.boot with skipped := 0x8F, started := 0 } }
    (s2.set CFG_STAGE_DONE 0).beginStages
  else s.set PWR_RESULT Status.illegal.num

/-- DORMANT (R515, R516): from Run, Idle or Standby, with only context 0 bound. -/
def State.cmdDormant (s : State) : State :=
  if s.get PWR_TRANSITION = 1 then s
  else if s.ready && s.onlyContext0 then
    let s1 := (s.beginTransition .toDormant).abortLoad
    let s2 := if s.pwr.mode = .on then s1.leaveRun else s1
    s2.archiveSave 2
  else s.set PWR_RESULT Status.noResource.num

/-- The command a write to STATE_CMD names (R538); 0 is discarded. -/
def State.stateCmd (s : State) (v : Nat) : State :=
  match v with
  | 1 => s.cmdStandby
  | 2 => s.cmdRun
  | 3 => s.cmdDormant
  | _ => s

/-- STANDBY (R516). -/
def execStandby (p : Path) (s : State) : Res := ok (s.via p 0x10000 fun s => s.cmdStandby)
/-- RUN (R516). -/
def execRun (p : Path) (s : State) : Res := ok (s.via p 0x10000 fun s => s.cmdRun)
/-- DORMANT (R516). -/
def execDormant (p : Path) (s : State) : Res := ok (s.via p 0x10000 fun s => s.cmdDormant)

/-- What entry to Standby leaves (R485, R514): the dies off, register fields and structures as their level says, tiers A
and B kept. DEDUCED, log entry 27. -/
def State.enterStandby (s : State) : State :=
  let s0 := s.standbyClear
  let s1 := { s0 with regs := resetRegs .standby s0.regs }
  let s2 := ((s1.set MOD_PHASE 1).setF CTX_S_STATE 0 0 2).set HNG_MODULE_FENCED 1
  let s3 := { s2 with pwr := { s2.pwr with mode := .standby, diesOn := 0, thermal := [0, 0, 0, 0], power := 0,
                                            throttled := 0, drooping := 0 } }
  s3.set PWR_REF_OK 1

/-- Everything volatile is lost (R485, R552, R553); tier C, the flash and the fuses stay. -/
def State.powerOff (s0 : State) (m : PowerMode) : State :=
  let s := s0.tcCut
  let z := State.reset
  { z with
    pending := s.pending
    out := s.out
    free := s.free
    regs := resetRegs .cold s.regs
    epoch := s.epoch
    keys := s.keys
    revoked := s.revoked
    testPriv := s.testPriv
    boot := { z.boot with flash := s.boot.flash, started := 0 }
    archives := s.archives
    saveNo := s.saveNo
    tierC := s.tierC
    pwr := { z.pwr with mode := m }
    pins := { s.pins with pgood := false } }

/-- Ends a transition: RESULT DONE and one POWER_STATE record (R516). -/
def State.endTransition (s : State) (new cause : Nat) : State :=
  let s1 := (s.set PWR_TRANSITION 0).set PWR_RESULT Status.done.num
  let s2 := { s1 with pwr := { s1.pwr with trans := none } }
  s2.emitCaller RT_POWER_STATE [s.pwr.oldState, new, cause]

/-- TRANSITION_DONE (R515, R516): the transition completes. The way back to Run completes once PHASE reads ready; a wake
that came during the entry to Dormant follows at once (R518). Tier C completes its accepted writes first (R235). -/
def execTransitionDone (s : State) : Res :=
  ok (match s.pwr.trans with
    | none => s
    | some .toStandby => (s.endTransition 2 1).enterStandby.setPower 2
    | some .toRun => if s.ready then (s.endTransition 0 2).setPower 0 else s
    | some .toDormant => s.tcSettle.powerOff (if s.pwr.wakeSoon then .powering else .dormant))

/-- Every set meets the four conditions of R517: unbound, idle or waiting, with no pass, no fused sequence and no promenade
descriptor. -/
def State.setsQuiet (s : State) : Bool :=
  s.sets.all fun e => decide (e.2.code = 0 ∨ e.2.code = 1 ∨ e.2.code = 3) && e.2.pass.isNone && e.2.fused.isNone && e.2.proms.isEmpty

/-- IDLE_ENTRY (R517): the set clocks are gated when every set meets the four conditions and IDLE_EN is 1.
DEDUCED, log entry 37. -/
def execIdleEntry (s : State) : Res :=
  ok (if s.ready && decide (s.pwr.mode = .on ∧ s.get MOD_POWER = 0 ∧ s.get PWR_IDLE_EN = 1) && s.setsQuiet
    then (s.setPower 1).wrap PWR_IDLE_ENTRIES 0 0 1 else s)

/-- IDLE_EXIT (R517): work for a set ungates the clocks; no vector 0 message while IDLE_EN is 0. -/
def execIdleExit (s : State) : Res :=
  ok (if s.get MOD_POWER = 1 ∧ (s.setsQuiet = false ∨ s.get PWR_IDLE_EN = 0) then (if s.get PWR_IDLE_EN = 1 then s.setPower 0 else s.set MOD_POWER 0) else s)

/-- WAKE (R518, R555): power-up begins in Dormant; a low during the entry to Dormant wakes at its end. -/
def execWake (s : State) : Res :=
  ok (if s.pwr.mode = .dormant then { s with pwr := { s.pwr with mode := .powering } }
    else if s.pwr.trans = some .toDormant then { s with pwr := { s.pwr with wakeSoon := true } } else s)

/-! ### Temperature and throttling (R519 to R525) -/

/-- The thermal state sensor (R531): 1 normal, 2 throttling, 3 alert, 4 tripped. -/
def State.thermalState (s : State) : Nat :=
  if s.get PWR_TRIPPED = 1 then 4 else if s.get PWR_ALERT = 1 then 3 else if s.get PWR_LEVEL ≠ 0 then 2 else 1

/-- Reports a change of the thermal state sensor since another state (R532). -/
def State.thermalEvent (s old : State) : State :=
  if s.thermalState = old.thermalState then s else s.raiseEvent (.stateSensor 102 old.thermalState s.thermalState)

/-- The threshold a junction reading has reached (R531): 0 none, 1 warning, 2 critical, 3 fatal. -/
def State.junctionLevel (s : State) (v : Int) : Nat :=
  if v ≥ 11500 then 3 else if v ≥ 100 * (s.get PWR_ALERT_C : Int) then 2 else if v ≥ 100 * (s.get PWR_THROTTLE_C : Int) then 1 else 0

/-- The level of a die in LEVEL (R538). -/
def State.level (s : State) (d : Nat) : Nat := bits (s.get PWR_LEVEL) (4 * d + 3) (4 * d)

/-- The junction of a die, in 0.01 °C. -/
def State.junction (s : State) (d : Nat) : Int := signed 16 (s.getF PWR_D_JUNCTION d 0)

/-- A junction sample of a die (R519, R521, R524). -/
def State.junctionSample (s : State) (d v : Nat) : State :=
  let t := signed 16 v
  let oldLvl := s.junctionLevel (s.junction d)
  let s1 := s.setF PWR_D_JUNCTION d 0 v
  let s2 := if t > signed 16 (s.getF PWR_D_JUNCTION_MAX d 0) then s1.setF PWR_D_JUNCTION_MAX d 0 v else s1
  let s3 := if s.junctionLevel t ≠ oldLvl then s2.raiseEvent (.threshold (d + 1) (s.junctionLevel t)) else s2
  let s4 := if t ≥ 100 * (s.get PWR_THROTTLE_C : Int) then
      { s3 with pwr := { s3.pwr with thermal := listSet s3.pwr.thermal d (min 8 (s3.pwr.thermal.getD d 0 + 1)) } }
    else s3
  if t ≥ 100 * (s.get PWR_ALERT_C : Int) ∧ s.get PWR_ALERT = 0 then
    ((s4.set PWR_ALERT 1).emitCaller RT_THERMAL_ALERT [d, unsigned 64 t]).thermalEvent s
  else s4

/-- TEMP_SAMPLE (R519): the reading of one source. -/
def execTempSample (sensor : TempSensor) (value : BitVec 16) (s : State) : Res :=
  ok (if !s.callerOn then s else match sensor with
    | .die d => s.junctionSample d.val value.toNat
    | .stack n => s.setF PWR_S_STACK_TEMP n.val 0 value.toNat
    | .engine e => s.engineTemp e.val value.toNat
    | .plateIn => s.set PWR_PLATE_IN value.toNat
    | .plateOut => s.set PWR_PLATE_OUT value.toNat)

/-- THROTTLE_WINDOW (R521, R522): the level the die has reached takes effect, and its arrays pause for L × 4 µs. A change
from 0 or to 0 writes one THROTTLE record. DEDUCED, log entry 32. DEDUCED, log entry 33. -/
def execThrottleWindow (die : Fin 4) (s : State) : Res :=
  let d := die.val
  let old := s.level d
  let new := max (s.pwr.thermal.getD d 0) s.pwr.power
  let s1 := s.set PWR_LEVEL (setBits (s.get PWR_LEVEL) (4 * d + 3) (4 * d) new)
  let s2 := if (old = 0) ≠ (new = 0) then s1.emitCaller RT_THROTTLE [d, new, unsigned 64 (s.junction d)] else s1
  let first := (List.range d).all fun k => decide (s1.level k = 0)
  let s3 := if new ≠ 0 ∧ first = true then s2.sat PWR_THROTTLE_US 0 0 32 else s2
  ok (if !s.dieOn d then s else
    ({ s3 with pwr := { s3.pwr with throttled := setBits s3.pwr.throttled d d (bitOf (decide (new ≠ 0))) } }).thermalEvent s)

/-- THROTTLE_DECAY (R521): below THROTTLE_C − HYSTERESIS_C the thermal level falls by one in each 1 ms. -/
def execThrottleDecay (die : Fin 4) (s : State) : Res :=
  let d := die.val
  ok (if s.junction d < 100 * ((s.get PWR_THROTTLE_C : Int) - (s.get PWR_HYSTERESIS_C : Int)) then
      { s with pwr := { s.pwr with thermal := listSet s.pwr.thermal d (s.pwr.thermal.getD d 0 - 1) } }
    else s)

/-- POWER_SAMPLE (R523): above POWER_LIMIT_W the power level of every die rises by one, below 95 % of it it falls by
one. Above 60 V the module is outside its operating conditions (R6, R548). -/
def execPowerSample (vinMv pinW : BitVec 16) (s : State) : Res :=
  if vinMv.toNat > 60000 then .fault .outsideOperatingConditions else
  ok (if !s.callerOn then s else
    let s1 := (s.set PWR_VIN_MV vinMv.toNat).set PWR_PIN_W pinW.toNat
    let lim := s.get PWR_POWER_LIMIT_W
    let p := if pinW.toNat > lim then min 8 (s1.pwr.power + 1)
      else if pinW.toNat * 100 < lim * 95 then s1.pwr.power - 1 else s1.pwr.power
    { s1 with pwr := { s1.pwr with power := p } })

/-- ALERT_RELEASE (R524): every die has read below ALERT_C − HYSTERESIS_C for 1 ms and TRIPPED is 0. -/
def execAlertRelease (s : State) : Res :=
  let lim := 100 * ((s.get PWR_ALERT_C : Int) - (s.get PWR_HYSTERESIS_C : Int))
  ok (if s.get PWR_ALERT = 1 ∧ s.get PWR_TRIPPED = 0 ∧ (List.range 4).all (fun d => decide (s.junction d < lim)) = true
    then (s.set PWR_ALERT 0).thermalEvent s else s)

/-- THERMAL_TRIP (R524, R525, R527): power leaves the dies, the memory and the optics, ALERT is asserted; a transition ends
with ABORTED. -/
def execThermalTrip (die : Fin 4) (sensor : Fin 24) (s : State) : Res :=
  ok (if s.pwr.mode ≠ .on then s else
    let s1 := ((s.set PWR_TRIPPED 1).set PWR_TRIP_DIE die.val).set PWR_ALERT 1
    let s2 := if s.get PWR_TRANSITION = 1 then (s1.set PWR_TRANSITION 0).set PWR_RESULT Status.aborted.num else s1
    let s3 := ((s2.keptDark.ethDown).pcieDown 3).setsHeld.tiersZero
    let s4 : State := { s3 with pwr := { s3.pwr with diesOn := 0, trans := none } }
    let s5 := if s.get PWR_ALERT = 0 then s4.emitCaller RT_THERMAL_ALERT [die.val, unsigned 64 (s4.junction die.val)] else s4
    ((s5.emitCaller RT_THERMAL_TRIP [die.val, sensor.val]).notify .powerCycle 0 0 0 0x3FFF die.val
      (s5.lastSeq .management)).thermalEvent s)

/-- TRIP_COOLDOWN (R525): every remaining sensor is below THROTTLE_C, and a power cycle is requested. -/
def execTripCooldown (s : State) : Res :=
  ok (if s.get PWR_TRIPPED = 1 ∧ s.get HNG_PWRCYC_REQ = 0 then s.powerCycleRequest else s)

/-! ### Droop and clock loss (R513, R526) -/

/-- DROOP (R526): the arrays of the die pause; at most one DROOP record per die in each 1 ms (225,000 CALLCLK cycles). -/
def execDroop (die : Fin 4) (s : State) : Res :=
  let d := die.val
  ok (if !s.dieOn d then s else
    let n := s.pwr.droops.getD d 0 + 1
    let due := match s.pwr.droopRec.getD d none with
      | none => true
      | some c => decide (c + 225000 ≤ s.callerCycles)
    let s1 := s.sat PWR_DROOP_EVENTS 0 0 1
    let s2 := { s1 with pwr := { s1.pwr with
      drooping := setBits s1.pwr.drooping d d 1
      droops := listSet s1.pwr.droops d (if due then 0 else n)
      droopRec := if due then listSet s1.pwr.droopRec d (some s.callerCycles) else s1.pwr.droopRec } }
    if due then s2.emitCaller RT_DROOP [d, n] else s2)

/-- DROOP_RELEASE (R526): the pause ends; DROOP_US counts it. -/
def execDroopRelease (die : Fin 4) (us : BitVec 16) (s : State) : Res :=
  ok (if bit s.pwr.drooping die.val then
      (({ s with pwr := { s.pwr with drooping := setBits s.pwr.drooping die.val die.val 0 } }).rampDie die.val).sat PWR_DROOP_US 0 0 us.toNat
    else s)

/-- CLOCK_LOSS (R513): in Run or Idle the module fences itself, counts and records the loss, and starts a warm reset. -/
def execClockLoss (pll : Bool) (s : State) : Res :=
  ok (if s.ready && decide (s.pwr.mode = .on) then
      let s1 := if pll then s.set PWR_ROOT_LOCKED 0 else (s.set PWR_REF_OK 0).set PWR_ROOT_LOCKED 0
      let s2 := ((s1.set HNG_MODULE_FENCED 1).sat PWR_CLOCK_LOSSES 0 0 1).emitCaller RT_CLOCK_LOSS [bitOf pll]
      s2.warmReset
    else s)

/-! ### Pins and sequencing (R540 to R557) -/

/-- INSERTION (R540, R549): the module is seated; the input capacitance charges whatever PWR_EN is, and PWR_EN reads low
until it is raised. DESIGN CHOICE, log entry 5. -/
def execInsertion (slotId : BitVec 5) (s : State) : Res :=
  ok (if s.pins.mated then s else { s with pins := { s.pins with mated := true, pwrEn := false, slotId := slotId.toNat } })

/-- WITHDRAWAL (R556): the signal field breaks first, PWR_EN reads low and the module powers down. -/
def execWithdrawal (s : State) : Res :=
  ok (if !s.pins.mated then s else
    let s1 := s.powerOff .off
    { s1 with pins := { s1.pins with mated := false, pwrEn := false } })

/-- PWR_EN_RISE (R551): power-up begins with the low time complete and the input in range; an earlier raise is held. -/
def execPwrEnRise (lowDone vinOk : Bool) (s : State) : Res :=
  ok (if !s.pins.mated || s.pins.pwrEn then s else
    let s1 := { s with pins := { s.pins with pwrEn := true } }
    if lowDone && vinOk then { s1 with pwr := { s1.pwr with mode := .powering } } else s1)

/-- POWER_UP (R551): a held raise takes effect. -/
def execPowerUp (s : State) : Res :=
  ok (if s.pins.mated && s.pins.pwrEn && decide (s.pwr.mode = .off) then { s with pwr := { s.pwr with mode := .powering } } else s)

/-- PWR_EN_FALL (R53, R553, R556): the module powers down; a latched shutdown is released for the next raise (R550). -/
def execPwrEnFall (s : State) : Res :=
  ok (if !s.pins.pwrEn then s else
    let s1 := s.powerOff .off
    { s1 with pins := { s1.pins with pwrEn := false } })

/-- UNDERVOLTAGE (R550): a latched shutdown of a powered module. -/
def execUndervoltage (s : State) : Res :=
  ok (if s.pwr.mode = .off ∨ s.pwr.mode = .latched then s else s.powerOff .latched)

end Sys2Proof.Machine
end

