-- ==== Sys2Proof/Machine/Management.lean ====
section
/-! DEFINITION. The management link: I3C and MCTP (R528, R529), PLDM (R530 to R533) and attestation (R534 to R536). The
answers carry the content the rules state; how DSP0236, DSP0240, DSP0248 and DSP0267 lay it out on the bus is theirs. -/

namespace Sys2Proof.Machine

/-- Answers a management request. -/
def State.reply (s : State) (r : Reply) : State := s.emitOut (.reply r)

/-- A management request is served in every state except Dormant (R528). -/
def State.served (s : State) (f : State → State) : Res := ok (if s.callerOn then f s else s)

/-! ### I3C and MCTP -/

/-- ENTDAA (R528): a target without a dynamic address takes one and drives its provisional ID. -/
def execEntdaa (addr : BitVec 7) (s : State) : Res :=
  s.served fun s => if s.mgmt.dynAddr.isSome then s else
    ({ s with mgmt := { s.mgmt with dynAddr := some addr.toNat } }).reply (.provisionalId (ofBytes (Config.serial.take 4)))

/-- SETDASA (R528): the dynamic address through the static one, where the image gives one. -/
def execSetdasa (addr : BitVec 7) (s : State) : Res :=
  s.served fun s => if s.img 0x0E 0 1 = 0 ∨ s.mgmt.dynAddr.isSome then s
    else { s with mgmt := { s.mgmt with dynAddr := some addr.toNat } }

/-- The endpoint ID in use: the static one of the image, or the one set (R529). -/
def State.eid (s : State) : Nat := if s.img 0x0E 1 1 = 0 then s.mgmt.eid else s.img 0x0E 1 1

/-- SET_ENDPOINT_ID (R529): refused while the image gives a static EID; an EID outside 8 to 254 is invalid.
DEDUCED, log entry 38. -/
def execSetEndpointId (eid : Byte) (s : State) : Res :=
  s.served fun s =>
    if s.img 0x0E 1 1 ≠ 0 then s.reply .error
    else if eid.toNat < 8 ∨ eid.toNat > 254 then s.reply .invalidData
    else ({ s with mgmt := { s.mgmt with eid := eid.toNat } }).reply .ok

/-- GET_ENDPOINT_ID (R529). -/
def execGetEndpointId (s : State) : Res := s.served fun s => s.reply (.eid s.eid)

/-- The MCTP message types served (R529). -/
def mctpTypes : List Nat := [0x00, 0x01, 0x7E]

/-- GET_MCTP_VERSION_SUPPORT (R529): of the base specification (0xFF) or of a type served. -/
def execGetMctpVersionSupport (msgType : Byte) (s : State) : Res :=
  s.served fun s => if msgType.toNat = 0xFF ∨ msgType.toNat ∈ mctpTypes then s.reply (.mctpVersion msgType.toNat) else s.reply .error

/-- GET_MESSAGE_TYPE_SUPPORT (R529). -/
def execGetMessageTypeSupport (s : State) : Res := s.served fun s => s.reply (.messageTypes mctpTypes)

/-! ### Attestation -/

/-- "HVATTEST". -/
def attestMagic : List Byte := [0x48#8, 0x56#8, 0x41#8, 0x54#8, 0x54#8, 0x45#8, 0x53#8, 0x54#8]

/-- The first 192 bytes of a report (R535). -/
def State.reportBody (s : State) (nonce : List Byte) : List Byte :=
  let im := s.boot.image
  attestMagic ++ toBytes 1 1 ++ toBytes 1 1 ++ toBytes 2 (s.get FAB_MODULE_ID) ++ toBytes 1 s.epoch
  ++ toBytes 1 (s.get CFG_KEY_SLOT) ++ toBytes 1 (s.img 0x05 0 1) ++ toBytes 1 0xA1 ++ nonce
  ++ (im.drop (imgLength im - 196)).take 64 ++ toBytes 4 (imgVersion im)
  ++ toBytes 4 (s.fuses.fusedMask + 16 * s.revoked + 256 * s.testPriv) ++ toBytes 2 (s.get MOD_SETS_USABLE)
  ++ toBytes 2 (s.get MOD_ARRAYS_USABLE) ++ toBytes 4 0 ++ toBytes 8 s.callerCycles ++ padTo 16 0 Config.serial ++ toBytes 8 0

/-- The 324-byte report over a nonce (R535). -/
def State.report (s : State) (nonce : List Byte) : List Byte :=
  let b := s.reportBody nonce
  b ++ padTo 132 0 (Config.attestSign b)

/-- A report is made for a path (R536): REPORT, RESULT and the ATTEST record. -/
def State.makeReport (s : State) (p : Path) (nonce : List Byte) : State :=
  let s1 := s.setPath p { s.path p with signing := none, report := s.report nonce, reportResult := Status.done.num }
  s1.emitCaller RT_ATTEST [s.callerCycles]

/-- A write of 1 to REPORT_CMD (R536). -/
def State.reportCmd (s : State) (p : Path) : State :=
  let x := s.path p
  if x.signing.isSome then s
  else if s.get SEC_ATTEST_MODE = 0 then s.setPath p { x with reportResult := Status.access.num }
  else s.setPath p { x with signing := some x.nonce }

/-- REPORT_CMD (R536). -/
def execReportCmd (p : Path) (s : State) : Res := ok (s.via p 0x30004 fun s => s.reportCmd p)

/-- REPORT_DONE (R536): the report appears in the path's window and BUSY clears. -/
def execReportDone (p : Path) (s : State) : Res :=
  ok (match (s.path p).signing with
    | none => s
    | some n => s.makeReport p (n.flatMap fun w => toBytes 4 w.toNat))

/-- ATTEST_REQUEST (R536): a request with a 64-byte nonce is answered with the report, made on the Caller path, and with
an error while ATTEST_MODE is 0. -/
def execAttestRequest (nonce : List Byte) (s : State) : Res :=
  s.served fun s =>
    if s.get SEC_ATTEST_MODE = 0 then
      (s.setPath .caller { s.path .caller with reportResult := Status.access.num }).reply .error
    else if nonce.length ≠ 64 then s.reply .error
    else
      let s1 := s.setPath .caller { s.path .caller with
        nonce := (List.range 16).map fun i => BitVec.ofNat 32 (leAt nonce (4 * i) 4) }
      (s1.makeReport .caller nonce).reply (.report (s1.report nonce))

/-! ### PLDM control and monitoring -/

/-- The terminus ID in use (R530). -/
def State.tid (s : State) : Nat :=
  let t := s.img 0x0E 2 1
  if 1 ≤ t ∧ t ≤ 254 then t else s.mgmt.tid

/-- GET_TID (R530). -/
def execGetTid (s : State) : Res := s.served fun s => s.reply (.tid s.tid)

/-- SET_TID (R530): a TID of the image is fixed. -/
def execSetTid (tid : Byte) (s : State) : Res :=
  s.served fun s =>
    if 1 ≤ s.img 0x0E 2 1 ∧ s.img 0x0E 2 1 ≤ 254 then s.reply .error
    else if tid.toNat = 0 ∨ tid.toNat = 255 then s.reply .invalidData
    else ({ s with mgmt := { s.mgmt with tid := tid.toNat } }).reply .ok

/-- The PLDM types served (R530). -/
def pldmTypes : List Nat := [0, 2, 5]

/-- The commands served of a PLDM type (R530). -/
def pldmCommands : Nat → List PldmCmd
  | 0 => [.getTID, .setTID, .getPLDMVersion, .getPLDMTypes, .getPLDMCommands]
  | 2 => [.getSensorReading, .getStateSensorReadings, .setStateEffecterStates, .getStateEffecterStates,
      .getPDRRepositoryInfo, .getPDR, .setEventReceiver, .platformEventMessage, .pollForPlatformEventMessage]
  | 5 => [.queryDeviceIdentifiers, .getFirmwareParameters, .requestUpdate, .passComponentTable, .updateComponent,
      .requestFirmwareData, .transferComplete, .verifyComplete, .applyComplete, .activateFirmware, .cancelUpdate]
  | _ => []

/-- GET_PLDM_VERSION (R530). -/
def execGetPldmVersion (pldmType : Byte) (s : State) : Res :=
  s.served fun s => if pldmType.toNat ∈ pldmTypes then s.reply (.version pldmType.toNat) else s.reply .invalidData

/-- GET_PLDM_TYPES (R530). -/
def execGetPldmTypes (s : State) : Res := s.served fun s => s.reply (.types pldmTypes)

/-- GET_PLDM_COMMANDS (R530). -/
def execGetPldmCommands (pldmType : Byte) (s : State) : Res :=
  s.served fun s => if pldmType.toNat ∈ pldmTypes then s.reply (.commands (pldmCommands pldmType.toNat)) else s.reply .invalidData

/-- What a numeric sensor of R531 reads, in the resolution of the register it reports: 0.01 °C, mV, mA, W, 0.01 %.
DEDUCED, log entry 34. -/
def State.sensorReading (s : State) (id : Nat) : Option Int :=
  if 1 ≤ id ∧ id ≤ 4 then some (s.junction (id - 1))
  else if 5 ≤ id ∧ id ≤ 16 then some (signed 16 (s.getF PWR_S_STACK_TEMP (id - 5) 0))
  else if 17 ≤ id ∧ id ≤ 20 then some (signed 16 (s.getF OPT_E_ENGINE_TEMP (id - 17) 0))
  else match id with
  | 21 => some (signed 16 (s.get PWR_PLATE_IN))
  | 22 => some (signed 16 (s.get PWR_PLATE_OUT))
  | 23 => some (s.get PWR_VIN_MV : Int)
  | 24 => some ((s.get PWR_PIN_W * 1000000 / s.get PWR_VIN_MV : Nat) : Int)
  | 25 => some (s.get PWR_PIN_W : Int)
  | 26 => some (s.get MEM_LIFE_USED_BP : Int)
  | _ => none

/-- GET_SENSOR_READING (R531). -/
def execGetSensorReading (sensor : BitVec 16) (s : State) : Res :=
  s.served fun s => match s.sensorReading sensor.toNat with
    | some v => s.reply (.reading sensor.toNat v)
    | none => s.reply .invalidData

/-- What a state sensor of R531 reads. -/
def State.stateReading (s : State) (id : Nat) : Option Nat :=
  match id with
  | 100 => some (s.powerState + 1)
  | 101 => some (s.get MOD_PHASE + 1)
  | 102 => some s.thermalState
  | _ => none

/-- GET_STATE_SENSOR_READINGS (R531). -/
def execGetStateSensorReadings (sensor : BitVec 16) (s : State) : Res :=
  s.served fun s => match s.stateReading sensor.toNat with
    | some v => s.reply (.stateReading sensor.toNat v)
    | none => s.reply .invalidData

/-- SET_STATE_EFFECTER_STATES (R531): effecter 200 acts as STATE_CMD, and a refusal is answered with ERROR_NOT_READY. -/
def execSetStateEffecterStates (effecter : BitVec 16) (state : Byte) (s : State) : Res :=
  s.served fun s =>
    let cmd := match state.toNat with | 1 => 2 | 2 => 1 | 3 => 3 | _ => 0
    if effecter.toNat ≠ 200 ∨ cmd = 0 then s.reply .invalidData
    else if s.get PWR_TRANSITION = 1 then s.reply .notReady
    else
      let s1 := s.stateCmd cmd
      if s1.get PWR_TRANSITION = 1 then s1.reply .ok else s1.reply .notReady

/-- GET_STATE_EFFECTER_STATES (R531). -/
def execGetStateEffecterStates (effecter : BitVec 16) (s : State) : Res :=
  s.served fun s => if effecter.toNat = 200 then s.reply (.effecterState 200 (if s.pwr.mode = .standby then 2 else 1))
    else s.reply .invalidData

/-- The sensors and the effecter that platform descriptor records describe, in the order of R531. -/
def pdrIds : List Nat := (List.range 26).map (· + 1) ++ [100, 101, 102, 200]

/-- GET_PDR_REPOSITORY_INFO (R530). -/
def execGetPdrRepositoryInfo (s : State) : Res := s.served fun s => s.reply (.pdrInfo pdrIds.length)

/-- GET_PDR (R530): record handles run from 1 in the order of R531; handle 0 asks for the first (DEDUCED, log entry 35). -/
def execGetPdr (handle : BitVec 32) (s : State) : Res :=
  s.served fun s =>
    let h := if handle.toNat = 0 then 1 else handle.toNat
    match pdrIds[h - 1]? with
    | some id => s.reply (.pdr h id (if h < pdrIds.length then h + 1 else 0))
    | none => s.reply .invalidData

/-- SET_EVENT_RECEIVER (R532). -/
def execSetEventReceiver (receiver : Option Byte) (s : State) : Res :=
  s.served fun s => ({ s with mgmt := { s.mgmt with receiver := receiver.map fun (b : Byte) => b.toNat } }).reply .ok

/-- POLL_FOR_PLATFORM_EVENT_MESSAGE (R532): the oldest held event. -/
def execPollForPlatformEvent (s : State) : Res :=
  s.served fun s => match s.mgmt.heldEv with
    | [] => s.reply .noEvent
    | (n, e) :: rest => ({ s with mgmt := { s.mgmt with heldEv := rest } }).reply (.event n e)

/-- EVENT_ACK (R532). -/
def execEventAck (num : Nat) (s : State) : Res :=
  s.served fun s => { s with mgmt := { s.mgmt with sent := s.mgmt.sent.filter fun e => decide (e.1 ≠ num) } }

/-- EVENT_RESEND (R532): resent up to eight times, then counted as lost under R483. -/
def execEventResend (num : Nat) (s : State) : Res :=
  s.served fun s => match s.mgmt.sent.find? fun e => decide (e.1 = num) with
    | none => s
    | some (n, e, k) =>
      if k < 8 then
        ({ s with mgmt := { s.mgmt with sent := s.mgmt.sent.map fun (x : Nat × PldmEvent × Nat) => if x.1 = num then (n, e, k + 1) else x } }).emitOut
          (.event n e)
      else
        ({ s with mgmt := { s.mgmt with sent := s.mgmt.sent.filter fun x => decide (x.1 ≠ num) } }).sat HNG_NOTICES_LOST 0 0 1

/-! ### PLDM firmware update (R533) -/

/-- The component classification of the image (R533). -/
def fwClass : Nat := 0x000A

/-- Every step writes a PLDM_UPDATE record: the PLDM command and its result, 0 for success (R533, R537).
PRESUMED, log entry 36. -/
def State.fwStep (s : State) (cmd : Nat) (ok : Bool) : State := s.emitCaller RT_PLDM_UPDATE [cmd, bitOf !ok]

/-- Moves the firmware update to a phase. -/
def State.fwPhase (s : State) (p : FwPhase) : State := { s with mgmt := { s.mgmt with fw := p } }

/-- QUERY_DEVICE_IDENTIFIERS (R530). -/
def execQueryDeviceIdentifiers (s : State) : Res := s.served fun s => s.reply (.device 0xB7D4 (ofBytes Config.serial))

/-- GET_FIRMWARE_PARAMETERS (R530, R533). -/
def execGetFirmwareParameters (s : State) : Res := s.served fun s => s.reply (.firmware fwClass (s.get CFG_IMAGE_VERSION))

/-- REQUEST_UPDATE (R67, R533): enters recovery hold as ENTER_HOLD does when ready, and claims the buffer; refused while
another path owns it or the condition of R67 does not hold. -/
def execRequestUpdate (s : State) : Res :=
  s.served fun s =>
    let free := decide (s.boot.owner = none ∨ s.boot.owner = some .caller)
    if free && (s.inHold || (s.ready && s.onlyContext0)) then
      let s1 := if s.ready then s.enterHold false else s
      let s2 := { s1 with
        boot := { s1.boot with owner := some .caller }
        mgmt := { s1.mgmt with fw := .requested, programmed := false } }
      (s2.fwStep 0x10 true).reply .ok
    else (s.fwStep 0x10 false).reply .retryRequestUpdate

/-- PASS_COMPONENT_TABLE (R530, R533). -/
def execPassComponentTable (classification : BitVec 16) (s : State) : Res :=
  s.served fun s =>
    let good := decide (s.mgmt.fw = .requested ∧ classification.toNat = fwClass)
    (s.fwStep 0x13 good).reply (if good then .component fwClass else .invalidData)

/-- The bytes the module asks for at once. -/
def fwChunk : Nat := 4096

/-- UPDATE_COMPONENT (R533): the transfer into the staging buffer begins, and the module asks for its data. -/
def execUpdateComponent (classification : BitVec 16) (size : BitVec 28) (s : State) : Res :=
  s.served fun s =>
    if s.mgmt.fw = .requested ∧ classification.toNat = fwClass then
      let s1 := ({ s with mgmt := { s.mgmt with fw := .transferring, fwSize := size.toNat } }).stageLengthWrite .caller size.toNat
      ((s1.fwStep 0x14 true).reply .ok).emitOut (.firmwareRequest 0 (min fwChunk size.toNat))
    else (s.fwStep 0x14 false).reply .invalidData

/-- REQUEST_FIRMWARE_DATA (R533): the data are staged, and the module asks for the next. -/
def execRequestFirmwareData (offset : BitVec 27) (data : List Byte) (s : State) : Res :=
  s.served fun s =>
    if s.mgmt.fw ≠ .transferring then s else
      let next := offset.toNat + data.length
      let s1 := ({ s with boot := { s.boot with staging := s.boot.staging.write 0 offset.toNat data } }).stageDirty
      let s2 := s1.fwStep 0x15 true
      if next < s.mgmt.fwSize then s2.emitOut (.firmwareRequest next (min fwChunk (s.mgmt.fwSize - next))) else s2

/-- TRANSFER_COMPLETE (R530, R533): the transfer ends and VERIFY runs on the staged copy. -/
def execTransferComplete (s : State) : Res :=
  s.served fun s =>
    if s.mgmt.fw ≠ .transferring then s else (((s.fwPhase .transferred).fwStep 0x16 true).holdVerify .caller)

/-- VERIFY_COMPLETE (R533): reports the result of VERIFY; a copy that passes is programmed. -/
def execVerifyComplete (s : State) : Res :=
  s.served fun s =>
    if s.mgmt.fw ≠ .transferred ∨ s.get CFG_BUSY = 1 then s
    else if s.get CFG_STAGED_OK = 1 then
      let s1 := (((s.fwPhase .verified).fwStep 0x17 true).reply .ok).holdProgram .caller
      { s1 with mgmt := { s1.mgmt with programmed := true } }
    else ((s.fwPhase .requested).fwStep 0x17 false).reply .error

/-- APPLY_COMPLETE (R533): reports the result of PROGRAM. -/
def execApplyComplete (s : State) : Res :=
  s.served fun s =>
    if s.mgmt.fw ≠ .verified ∨ s.get CFG_BUSY = 1 then s
    else if s.get CFG_RESULT = Status.done.num then ((s.fwPhase .applied).fwStep 0x18 true).reply .ok
    else ((s.fwPhase .requested).fwStep 0x18 false).reply .error

/-- ACTIVATE_FIRMWARE (R533): RESTART, a cold start from flash. -/
def execActivateFirmware (s : State) : Res :=
  s.served fun s =>
    if s.mgmt.fw = .applied then (((s.fwStep 0x1A true).reply .ok).holdRestart .caller)
    else (s.fwStep 0x1A false).reply .error

/-- CANCEL_UPDATE (R533): CLOSE, and RESTART when no PROGRAM has begun. -/
def execCancelUpdate (s : State) : Res :=
  s.served fun s =>
    if s.mgmt.fw = .idle then (s.fwStep 0x1D false).reply .error
    else
      let begun := s.mgmt.programmed
      let s1 := ((s.fwStep 0x1D true).reply .ok)
      let s2 := { s1 with
        boot := { s1.boot with owner := none }
        mgmt := { s1.mgmt with fw := .idle } }
      if begun then s2.holdResult .done else s2.coldStart

/-- UNSUPPORTED_PLDM_COMMAND (R530): a type or command that is not served is answered with
ERROR_UNSUPPORTED_PLDM_CMD. -/
def execUnsupportedPldm (_pldmType _command : Byte) (s : State) : Res := s.served fun s => s.reply .unsupported

end Sys2Proof.Machine
end

