-- ==== Sys2Proof/Machine/Control.lean ====
section
/-! DEFINITION. The control space as the access paths meet it (R7 to R13, R33 to R35): what a read of a word returns, what a
write of a word does, and the pairs of words that hold one 64-bit value (R11). -/

namespace Sys2Proof.Machine

/-! ### Pairs of words (R11) -/

/-- The low words of the 64-bit values of the register tables. -/
def lowFields : List Fld :=
  [ MOD_CALLER_CYCLES_LO, CFG_READY_CYCLES_LO, MEM_UE_OFFSET_LO, MEM_C_HOST_LO, MEM_C_PROG_LO, MSC_HITS_LO, MSC_MISSES_LO,
   MSC_ATOMICS_LO, MSC_ROWS_LO, MSC_UE_OFFSET_LO, FAB_IMP_OFFSET_LO, LNK_FEATURES_LO, LNK_L_NEG_FEATURES_LO,
   LNK_L_UP_CYCLES_LO, TOP_RT_DEST_FIRST, RND_PARTS_SENT_LO, RND_PARTS_RECEIVED_LO, RND_E_MEMBERS_ADDR_LO,
   RND_E_BUF_ADDR_LO, CTX_CMD_ARG_LO, CTX_S_RECORD_LO, FRZ_S_STAGE_ADDR_LO, ENC_JRN_STAGE_ADDR_LO, ENC_WIT_ADDR_LO,
   ENC_RECORDS_LO, DCD_RECORDS_LO, MBX_W_BASE_LO, MBX_IPV6_PREFIX_LO, MBX_T_REMOTE_BASE_LO, MBX_T_REMOTE_LEN_LO,
   MBX_T_LOCAL_BASE_LO]

/-- The low words of a per-set window (R102): FAULT_ADDR, PC, WAIT_VALUE and the counters. -/
def setLow (off : Nat) : Bool :=
  decide (off = 0x054 ∨ off = 0x060 ∨ off = 0x06C) || decide (0x200 ≤ off ∧ off < 0x400 ∧ off % 8 = 0)

/-- The word at an address is the low word of a 64-bit value; its high word is the next one. -/
def pairLow (a : Nat) : Bool :=
  if 0x1000000 ≤ a then setLow (a % 0x10000) else lowFields.any fun f => f.at a

/-- The word at an address is the high word of a 64-bit value. -/
def pairHigh (a : Nat) : Bool := decide (4 ≤ a) && pairLow (a - 4)

/-! ### Reading -/

/-- A word of a set's window (R102). -/
def State.setWord (s : State) (n off : Nat) : Nat :=
  let x := s.setSt n
  let u := s.setUnit n
  let member (k : Nat) : Nat := x.crew.getD k 0x3FF
  match off with
  | 0x000 => n + 2 ^ 10 * (n / 192) + 2 ^ 12 * (n % 192)
  | 0x004 => x.code + 2 ^ 3 * u.arrOk + 2 ^ 7 * bitOf u.retired
  | 0x008 => (if x.run = .unbound then 0 else s.ctxOf x.slot) + 2 ^ 16 * x.routine
  | 0x00C => x.crewId + 2 ^ 10 * x.crewSize + 2 ^ 15 * x.crewIndex + 2 ^ 19 * bitOf x.cutin
  | 0x030 =>
    let pinned := match x.queue.getLast? with
      | some t => t.body.isSome || tPinned t.desc
      | none => false
    x.queue.length + 2 ^ 7 * bitOf (!x.tiles.isEmpty) + 2 ^ 8 * bitOf pinned + 2 ^ 9 * bitOf x.frozen
  | 0x034 => x.taken % 2 ^ 32
  | 0x038 => x.given % 2 ^ 32
  | 0x03C => x.proms.length
  | 0x040 => u.latency 0 + 2 ^ 8 * u.latency 1 + 2 ^ 16 * u.latency 2 + 2 ^ 24 * u.latency 3
  | 0x044 => ofBytes (x.arrFaults.map fun k => BitVec.ofNat 8 (min 255 k))
  | 0x048 => min (2 ^ 32 - 1) x.eccFixed
  | 0x050 => match x.fault with
    | some f => f.status + 2 ^ 8 * f.source + 2 ^ 12 * f.array + 2 ^ 15 + 2 ^ 16 * f.owner
    | none => 0x3FF * 2 ^ 16
  | 0x054 => match x.fault with
    | some f => f.addr % 2 ^ 32
    | none => 0
  | 0x058 => match x.fault with
    | some f => f.addr / 2 ^ 32
    | none => 0
  | 0x060 => x.pc.toNat % 2 ^ 32
  | 0x064 => x.pc.toNat / 2 ^ 32
  | 0x068 => match x.wait with
    | some w => w.1 + 2 ^ 31
    | none => 0
  | 0x06C => match x.wait with
    | some w => w.2.toNat % 2 ^ 32
    | none => 0
  | 0x070 => match x.wait with
    | some w => w.2.toNat / 2 ^ 32
    | none => 0
  | 0x078 => bitOf (x.soft || x.hard) + 2 * bitOf x.hard + 4 * bitOf x.atPoint
  | _ =>
    if 0x010 ≤ off ∧ off < 0x030 then member ((off - 0x010) / 2) + 2 ^ 16 * member ((off - 0x010) / 2 + 1)
    else if 0x200 ≤ off ∧ off < 0x400 then
      let c := (x.c.get 0 ((off - 0x200) / 8)).toNat
      if off % 8 = 0 then c % 2 ^ 32 else c / 2 ^ 32
    else 0

/-- A word of the SEC block for a path (R539). -/
def State.secWord (s : State) (p : Path) (off : Nat) : Nat :=
  let x := s.path p
  if off = 0x008 then bitOf x.signing.isSome + 2 * x.reportResult
  else if off = 0x00C then Config.deviceCert.length % 2 ^ 12
  else if 0x040 ≤ off ∧ off < 0x080 then (x.nonce.getD ((off - 0x040) / 4) 0).toNat
  else if 0x100 ≤ off ∧ off < 0x244 then leAt x.report (off - 0x100) 4
  else if 0x400 ≤ off ∧ off < 0x488 then leAt Config.devicePubKey (off - 0x400) 4
  else if 0x1000 ≤ off ∧ off < 0x2000 then leAt Config.deviceCert (off - 0x1000) 4
  else wordRead (blockFields 3) (0x30000 + off) (s.word (0x30000 + off))

/-- A word of the set map of a slot (R410). -/
def State.setMapWord (s : State) (off : Nat) : Nat :=
  let m := (s.slot (off / 0x600)).setMap
  let j := off % 0x600 / 4
  m.get 0x3FF (2 * j) + 2 ^ 16 * m.get 0x3FF (2 * j + 1)

/-- The value of a word of the control space, as a path reads it. -/
def State.wordSeen (s : State) (p : Path) (a : Nat) : Nat :=
  let off := a % 0x10000
  let w := wordRead (blockFields (a / 0x10000)) a (s.word a)
  if a % 4 ≠ 0 then 0
  else if 0x1000000 ≤ a then (if a < 0x1000000 + 768 * 0x10000 then s.setWord ((a - 0x1000000) / 0x10000) off else 0)
  else match a / 0x10000 with
  | 0x00 => match off with
    | 0x00C => w + 2 ^ 6 * bitOf s.faultBit
    | 0x01C => s.callerCycles % 2 ^ 32
    | 0x020 => s.callerCycles / 2 ^ 32 % 2 ^ 32
    | _ => w
  | 0x02 => match off with
    | 0x01C => w + 2 ^ 8 * s.fuses.fusedMask + 2 ^ 12 * s.revoked + 2 ^ 16 * s.testPriv
    | 0x044 => w + (match s.boot.owner with
      | some q => pathCode q
      | none => 0)
    | _ => if 0x1000 ≤ off ∧ off < 0x2000 then s.stageWindowRead p (off - 0x1000) else w
  | 0x03 => s.secWord p off
  | 0x05 => s.dcdRead p off
  | 0x07 => if off = 0x024 then (s.ownerOf (s.get CTX_SPACE) (s.get CTX_PAGE)).getD 0xFFFF
    else if 0x4000 ≤ off then s.setMapWord (off - 0x4000) else w
  | 0x08 => if off % 0x1000 = 0 ∧ off < 0xC000 then w + off / 0x1000 else w
  | 0x0E => if off = 0xF000 then w + 2 ^ 12 * s.epoch else w
  | 0x0F =>
    if s.get MIS_PERMIT = 0 then 0
    else if MIS_I_ENABLE.at a && !(bit (s.get64 LNK_L_NEG_FEATURES_LO LNK_L_NEG_FEATURES_HI (bits w 23 16)) 8) then w + 2 ^ 24
    else w
  | _ => w

/-- A read of a word by a path (R11): a low word latches its high word; the first read of that high word returns the latched
value and releases the latch. -/
def State.readWord (s : State) (p : Path) (a : Nat) : Nat × State :=
  let x := s.path p
  if pairLow a then (s.wordSeen p a, s.setPath p { x with latch := some (a + 4, BitVec.ofNat 32 (s.wordSeen p (a + 4))) })
  else if pairHigh a then match x.latch with
    | some (b, w) => if b = a then (w.toNat, s.setPath p { x with latch := none }) else (s.wordSeen p a, s)
    | none => (s.wordSeen p a, s)
  else (s.wordSeen p a, s)

/-! ### Writing -/

/-- A write of a word of the MBX block (R509). -/
def State.mbxWrite (s : State) (a v : Nat) : State :=
  let off := a % 0x10000
  if 0x1000 ≤ off ∧ off < 0x2000 then
    let c := (off - 0x1000) / 0x40
    match off % 0x40 with
    | 0x00 => s.chanBind c v
    | 0x0C => s.inWord c (BitVec.ofNat 32 v)
    | 0x14 => if bit v 0 then s.outPop c else s
    | _ => s.writeWord a v
  else if 0x2000 ≤ off ∧ off < 0x3000 ∧ off % 0x10 = 8 then s.farRing ((off - 0x2000) / 0x10) v
  else if 0x9000 ≤ off ∧ off < 0xA000 ∧ off % 0x40 = 0 then s.exportBind ((off - 0x9000) / 0x40) v
  else s.writeWord a v

/-- A write of a word of the OPT block (R310). -/
def State.optWrite (s : State) (a v : Nat) : State :=
  if OPT_LN_TARGET_LINE.at a then
    let d := a - 0xD1040
    s.laneWordWrite (d / 0x100) (d % 0x100 / 4) v
  else if OPT_MATRIX_A.at a then s.matrixWrite a v
  else s.writeWord a v

/-- A write of a word of the MIS block (R446, R449): discarded while PERMIT is 0; a BYTE above 231 is stored as 231 for
ABOVE_CRC. -/
def State.misWrite (s : State) (a v : Nat) : State :=
  if s.get MIS_PERMIT = 0 then s
  else if MIS_I_BYTE.at a ∧ bits (s.word (a - 0xC)) 3 1 = 4 then s.writeWord a (setBits v 7 0 (min 231 (v % 256)))
  else s.writeWord a v

/-- A write of a word of the SEC block (R536, R539): the nonce of the path, and REPORT_CMD. -/
def State.secWrite (s : State) (p : Path) (off v : Nat) : State :=
  let x := s.path p
  if off = 0x004 then (if bit v 0 then s.reportCmd p else s)
  else if 0x040 ≤ off ∧ off < 0x080 then s.setPath p { x with nonce := listSet x.nonce ((off - 0x040) / 4) (BitVec.ofNat 32 v) }
  else s

/-- The effect of a write of a word by a path (R7 to R10). -/
def State.wordStore (s : State) (p : Path) (a v : Nat) : State :=
  let off := a % 0x10000
  if a % 4 ≠ 0 ∨ 0x1000000 ≤ a then s
  else match a / 0x10000 with
  | 0x01 => if off = 0 then s.stateCmd (v % 4) else s.writeWord a v
  | 0x02 => match off with
    | 0x040 => s.holdCmd p (v % 16)
    | 0x048 => s.stagePageWrite p v
    | 0x04C => s.stageLengthWrite p v
    | _ => if 0x1000 ≤ off ∧ off < 0x2000 then s.stageWindowWrite p (off - 0x1000) v else s.writeWord a v
  | 0x03 => s.secWrite p off v
  | 0x04 => s.mbxWrite a v
  | 0x05 => s.dcdWrite p off v
  | 0x06 => match off with
    | 0x008 => s.resetCmd (bits v 2 0) (bits v 7 3) (bits v 21 8)
    | 0x038 => s.bulkPages v
    | 0x048 => s.noticesAck v
    | _ => s.writeWord a v
  | 0x07 => if off = 0x004 then s.ctxCmd (v % 16) else s.writeWord a v
  | 0x0A => if off = 0x004 then (if v % 16 = 1 then s.rebuildStart else s) else s.writeWord a v
  | 0x0B =>
    if RND_E_VERSION.at a then s.groupWrite ((off - 0x1000) / 0x40) v
    else if 0x1000 ≤ off ∧ off < 0x2000 ∧ off % 0x40 < 0x34 then s.groupShadow ((off - 0x1000) / 0x40) (off % 0x40 / 4) v
    else s.writeWord a v
  | 0x0C => if LNK_P_REFORM.at a then s.reform ((off - 0x1000) / 0x40) (v % 2 ^ 16) else s.writeWord a v
  | 0x0D => s.optWrite a v
  | 0x0E =>
    if off = 0x010 then s.drawCmd (v % 4) else if off = 0x020 then s.drainOut.writeWord a v else s.writeWord a v
  | 0x0F => s.misWrite a v
  | 0x10 => match off with
    | 0x000 => s.journalSwitch (v % 32) (bit v 5)
    | 0x048 => s.encCmd (v % 4)
    | _ => s.writeWord a v
  | _ => s.writeWord a v

/-- A write of a low word holds it aside (R11). -/
def State.holdLow (s : State) (p : Path) (a v : Nat) : State :=
  s.setPath p { s.path p with held := some (a, BitVec.ofNat 32 v) }

/-- A write of a high word (R11): with its low word held, both words at once; else the high word alone. A routing entry is
checked as a whole first (R356). -/
def State.pairStore (s : State) (p : Path) (a v : Nat) : State :=
  if TOP_RT_PORT.at a then s.routeWrite p ((a - 0xE1004) / 8) v
  else match (s.path p).held with
  | some (b, w) =>
    if b + 4 = a then ((s.setPath p { s.path p with held := none }).wordStore p b w.toNat).wordStore p a v
    else s.wordStore p a v
  | none => s.wordStore p a v

/-- A write of a word by a path. -/
def State.pathWrite (s : State) (p : Path) (a v : Nat) : State :=
  if pairLow a then s.holdLow p a v else if pairHigh a then s.pairStore p a v else s.wordStore p a v

/-- A write that reaches the module while it starts (R53): a mailbox command or a doorbell is held. -/
def startWrite (p : Path) (a v : Nat) : Option HeldCmd :=
  if MBX_C_IN_WORD.at a then some (.inWord p ((a - 0x4100C) / 0x40) (BitVec.ofNat 32 v))
  else if MBX_D_RING.at a then some (.ring p ((a - 0x42008) / 0x10) (BitVec.ofNat 32 v))
  else none

/-- A write of a path to the control space: nothing at an address it does not reach (R10). -/
def State.controlWrite (s : State) (p : Path) (a v : Nat) : State :=
  match (if s.holdsCmd p then startWrite p a v else none) with
  | some c => s.holdCmdFor c
  | none => s.via p a fun s => s.pathWrite p a v

/-- A read of a path from the control space: zero at an address it does not reach (R10), nothing for a path that is down or
finds no entry (R13). -/
def State.controlRead (s : State) (p : Path) (a : Nat) : Option (Nat × State) :=
  if !(s.pathUp p && s.pathOk p) then none
  else if s.reaches p a then some ((s.touchPath p).readWord p a) else some (0, s.touchPath p)

/-- A read whose data go back to the path. -/
def State.readOut (s : State) (p : Path) (a : Nat) : State :=
  match s.controlRead p a with
  | none => s
  | some (v, s1) => s1.emitOut (.readData p a v)

/-! ### The commands -/

/-- REGISTER_WRITE (R7). -/
def execRegisterWrite (path : Path) (addr : CtlAddr) (value : Word) (s : State) : Res :=
  ok (s.controlWrite path addr.toNat value.toNat)

/-- PAIR_LOW_READ (R11). -/
def execPairLowRead (path : Path) (addr : CtlAddr) (s : State) : Res := ok (s.readOut path addr.toNat)

/-- PAIR_HIGH_READ (R11). A word that belongs to no 64-bit value is read in the same way. -/
def execPairHighRead (path : Path) (addr : CtlAddr) (s : State) : Res := ok (s.readOut path addr.toNat)

/-- PAIR_LOW_WRITE (R11). -/
def execPairLowWrite (path : Path) (addr : CtlAddr) (value : Word) (s : State) : Res :=
  ok (s.controlWrite path addr.toNat value.toNat)

/-- PAIR_HIGH_WRITE (R11). -/
def execPairHighWrite (path : Path) (addr : CtlAddr) (value : Word) (s : State) : Res :=
  ok (s.controlWrite path addr.toNat value.toNat)

/-- PATH_ENTRY_EXPIRY (R13): an entry unused for 1 s is freed, unless its source owns the staging buffer (R64). -/
def execPathEntryExpiry (src : BitVec 12) (s : State) : Res :=
  ok (if s.boot.owner = some (.fabric src) then s
    else { s with paths := { s.paths with fabric := s.paths.fabric.filter fun e => decide (e.1 ≠ src.toNat) } })

end Sys2Proof.Machine
end

