-- ==== Sys2Proof/Machine/Ctrl.lean ====
section
/-! DEFINITION. The control class of instructions: NOP, END, STEP, BUBBLE, BUBBLEEND (R127, R203, R404, R407, R436). -/

namespace Sys2Proof.Machine

/-- NOP (R127). -/
def execINop (set : Fin 768) (s : State) : Res := ok (s.issue set.val [] fun x => s.putSet set.val x.next)

/-- END (R127): the set is idle; a guest gives its set back (R407). -/
def execIEnd (set : Fin 768) (s : State) : Res :=
  ok (s.issue set.val [] fun x =>
    let s1 := s.putSet set.val { x.next with run := .idle }
    if x.lentFrom.isSome then s1.restoreOwner set.val else s1)

/-- STEP with a new number (R203, R436): the active exponent table is 0 again, the flags of R472 clear, an isolation turn ends
(R479), and the journal begins its attempt. -/
def State.stepNew (s : State) (slot step : Nat) (bit_ : Bool) : State :=
  let s1 := s.encStepEnd slot
  let s2 := (s1.setF CTX_S_STEP_NO slot 0 step).setF CTX_S_ACTIVE_TABLE slot 0 0
  let s3 := s2.putSlot slot { s2.slot slot with jbit := bit_, stepped := true }
  let s4 := { s3 with hng := { s3.hng with
    updDone := setBits s3.hng.updDone slot slot 0, updTorn := setBits s3.hng.updTorn slot slot 0,
    frzLost := setBits s3.hng.frzLost slot slot 0 } }
  let s5 := s4.encStepBegin slot step false
  if s5.get HNG_TESTING = 1 ∧ s5.get HNG_UNDER_TEST = slot then s5.turnNext false else s5

/-- STEP (R127, R203, R436). DEDUCED, log entry 154. -/
def execIStep (set : Fin 768) (ra : Fin 32) (journal : Bool) (s : State) : Res :=
  ok (s.issue set.val [ra.val] fun x =>
    let step := (x.reg ra.val).toNat % 2 ^ 32
    let i := s.slot x.slot
    let s1 := s.putSet set.val x.next
    if !i.stepped || decide (step ≠ s.getF CTX_S_STEP_NO x.slot 0) then s1.stepNew x.slot step journal
    else if journal ≠ i.jbit then s.illegal set.val
    else (s1.encStepEnd x.slot).encStepBegin x.slot step true)

/-- BUBBLE (R404). -/
def execIBubble (set : Fin 768) (number : BitVec 16) (s : State) : Res :=
  ok (s.issue set.val [] fun x =>
    if (s.bubbleEntry x.slot number.toNat).isNone then s.illegal set.val
    else s.putSet set.val { x.next with bubble := some (number.toNat, x.pc.toNat + 8) })

/-- BUBBLEEND (R404): no effect when the set is not in that bubble. -/
def execIBubbleEnd (set : Fin 768) (number : BitVec 16) (s : State) : Res :=
  ok (s.issue set.val [] fun x =>
    if (s.bubbleEntry x.slot number.toNat).isNone then s.illegal set.val
    else s.putSet set.val { x.next with bubble := if x.bubble.map (·.1) = some number.toNat then none else x.bubble })

end Sys2Proof.Machine
end

