-- ==== Sys2Proof/Machine/FabricIn.lean ====
section
/-! DEFINITION. What arrives over the fabric (R265, R266, R271, R273 to R282, R329, R339, R427, R508): requests of other
modules, checked, applied once and answered; answers to this module's requests; and requests that get none. -/

namespace Sys2Proof.Machine

/-! ### Exactly once (R278, R280, R339) -/

/-- What this module keeps of a source and VC. -/
def State.rxPair (s : State) (src vc : Nat) : RxPair := s.fab.rx.get RxPair.init (8 * src + vc)

/-- The state with that replaced. -/
def State.putRx (s : State) (src vc : Nat) (x : RxPair) : State :=
  { s with fab := { s.fab with rx := s.fab.rx.put RxPair.init (8 * src + vc) x } }

/-- A 16-bit number as a count near the highest accepted one: at most half the range above it, the rest below it. A pair on
which nothing has arrived takes the number as it is. -/
def RxPair.place (x : RxPair) (seq : Nat) : Int :=
  match x.top with
  | none => seq
  | some t =>
    let d := (seq + 65536 - t % 65536) % 65536
    if d < 32768 then t + d else (t : Int) + d - 65536

/-- Whether a VC applies requests in the order of their numbers (R339). -/
def inOrder (vc : Nat) : Bool := decide (vc = 0 ∨ 4 ≤ vc)

/-- Records a number as accepted, with its response, and keeps the records of the window (R280). -/
def RxPair.note (x : RxPair) (n : Nat) (r : Resp) : RxPair :=
  let top := match x.top with
    | none => n
    | some t => max t n
  { x with top := some top, got := (x.got ++ [{ r with seq := n }]).filter fun e => decide (top ≤ e.seq + 1024) }

/-- Passes the numbers above the highest accepted one that are noted already, so that the next gap comes after them. -/
def RxPair.pass (x : RxPair) : Nat → RxPair
  | 0 => x
  | fuel + 1 => match x.top with
    | some t => if x.got.any fun e => decide (e.seq = t + 1) then { x with top := some (t + 1) }.pass fuel else x
    | none => x

/-- How a pair takes an arriving number (R280, R339). -/
inductive Taking where
  | fresh (n : Nat)       -- applied now
  | early (n : Nat)       -- waits for a missing number
  | again (r : Resp)      -- recorded already
  | stale                 -- below the window
deriving DecidableEq, Repr

/-- How a pair takes a number. DEDUCED, log entry 78. -/
def RxPair.takes (x : RxPair) (vc seq : Nat) : Taking :=
  let i := x.place seq
  match x.top with
  | none => .fresh seq
  | some t =>
    match x.got.find? fun e => decide ((e.seq : Int) = i) with
    | some r => .again r
    | none =>
      if i < (t : Int) - 1024 ∨ i < 0 then .stale
      else if inOrder vc && decide (t + 1 < i.toNat) then (if t + 1024 < i.toNat then .stale else .early i.toNat)
      else .fresh i.toNat

/-- A number that comes with no request to apply is noted (a response on VC0, a request of an old EPOCH), so that those behind
it do not wait for it. -/
def State.noteNumber (s : State) (src vc seq : Nat) (r : Resp) : State :=
  let x := s.rxPair src vc
  match x.takes vc seq with
  | .fresh n => s.putRx src vc ((x.note n r).pass 1024)
  | .early n => s.putRx src vc { x with got := x.got ++ [{ r with seq := n }] }
  | _ => s

/-! ### Serving a request (R265, R266, R273, R274) -/

/-- Whether a request waits for or stays out of a replaying context (R443): it owns a page of the request. -/
def State.replayOwned (s : State) (tier o n : Nat) : Bool :=
  (pagesOf o n).any fun p => match (s.ownerOf tier p).bind s.slotOf with
    | some i => s.replaying i
    | none => false

/-- The slot whose context owns the page of an offset. -/
def State.ownerSlot (s : State) (tier o : Nat) : Option Nat := (s.ownerOf tier (o / 2 ^ 21)).bind s.slotOf

/-- Records bytes that a request wrote into a context's memory (R438, R439), page by page. Bytes that the context's own span
table does not name are no input of it. -/
def State.journalIn (s : State) (key tier o : Nat) (bs : List Byte) : State :=
  let one (s : State) (o : Nat) (bs : List Byte) : State :=
    match s.ownerSlot tier o with
    | none => s
    | some slot => match s.unresolve slot tier o with
      | some a => if bs.isEmpty then s else s.journal slot 0x04 key a bs
      | none => s
  let k := 2 ^ 21 - o % 2 ^ 21
  one (one s o (bs.take k)) (o + k) (bs.drop k)

/-- Serves a write of another module and records it. -/
def State.storeIn (s : State) (src ctx op tier o : Nat) (bs : List Byte) : Status × List Byte × State :=
  let (st, s1) := s.serveWrite src ctx tier 2 o bs
  (st, [], if st = .done then s1.journalIn (src + 2 ^ 12 * op) tier o bs else s1)

/-- Serves a window addition of another module (R255, R277): the block at the offset, under the owner's exponent entry. -/
def State.addIn (s : State) (src ctx o : Nat) (w : Window) (fmt expIndex : Nat) (row : List Byte) : Status × List Byte × State :=
  let offs := (List.range (w.block / 64)).map fun i => o + 64 * i
  let xs := (elemsOf (srcSize fmt) row).map (srcValue fmt)
  if 2 < fmt ∨ row.length * w.size ≠ srcSize fmt * w.block ∨ xs.any Option.isNone = true then (.illegal, [], s)
  else
    let (st0, s0) := s.guardLines src ctx offs
    match (if st0 = .done then s0.ownerSlot 0 o else none) with
    | none => (if st0 = .done then .access else st0, [], s0)
    | some slot => match s0.unresolve slot 0 o with
      | none => (.access, [], s0)
      | some a =>
        let (st, s1) := s0.windowHere src ctx slot w a expIndex offs (xs.filterMap id)
        let beta := match s0.expEntry slot expIndex with
          | (_, some e, s2) => (s2.blockExp slot e ((a - e.accBase) / w.block)).2.1
          | _ => 0
        let arg := fmt + 16 * (if w = .wa160 then 2 else 1)
        let data := toBytes 1 arg ++ toBytes 2 expIndex ++ toBytes 1 beta ++ row
        (st, [], if st = .done ∨ st = .overrange then s1.journal slot 0x04 (src + 2 ^ 12 * 7) a data else s1)

/-- Serves a control-space access of another module (R34, R266, R274). -/
def State.ctlIn (s : State) (src ctx off : Nat) (v : Option Nat) : Status × List Byte × State :=
  let p := Path.fabric (BitVec.ofNat 12 src)
  if 0x4000000 ≤ off ∨ off % 4 ≠ 0 then (.access, [], s)
  else if s.get HNG_MODULE_FENCED = 1 then (.fenced, [], s)
  else if !s.ctx0Admits src 2 then (.access, [], s.refuseIn src ctx 2 off 0 .control)
  else if !s.pathOk p then (.noResource, [], s)
  else match v with
  | some v => (.done, [], s.controlWrite p off v)
  | none => match s.controlRead p off with
    | some (w, s1) => (.done, toBytes 4 w, s1)
    | none => (.done, toBytes 4 0, s)

/-- The bytes of a FILL: its pattern repeated. -/
def fillOf (pattern n : Nat) : List Byte := (List.range n).map fun i => BitVec.ofNat 8 (pattern / 2 ^ (8 * (i % 8)))

/-- The bytes of memory that a request touches. -/
def ReqOp.span : ReqOp → Nat
  | .load n => n
  | .store bs => bs.length
  | .amo f _ _ => amoSize f
  | .readBlock n => n
  | .writeBlock bs => bs.length
  | .fill _ n => n
  | .windowAdd _ wa _ _ => (if wa then Window.wa160 else Window.bw48).block
  | .ctlLoad | .ctlStore _ | .tcBlocks .. => 0

/-- Serves a request: its status, its data and the state. Only control-space loads and stores reach space 0b10, and nothing
else does (R265, R266). DEDUCED, log entry 81. -/
def State.serve (s : State) (a : Arrival) (posted : Bool) : Status × List Byte × State :=
  match a.op with
  | .ctlLoad => if a.space = 2 then s.ctlIn a.src a.ctx a.off none else (.access, [], s)
  | .ctlStore v => if a.space = 2 then s.ctlIn a.src a.ctx a.off (some v) else (.access, [], s)
  | op =>
    if 2 ≤ a.space then (.access, [], s)
    else if s.replayOwned a.space a.off op.span then (.fenced, [], s)
    else match op with
    | .load n => if n = 0 ∨ 8 < n then (.illegal, [], s) else s.serveRead a.src a.ctx a.space 0 a.off n
    | .store bs => if bs.length = 0 ∨ 8 < bs.length then (.illegal, [], s) else s.storeIn a.src a.ctx 2 a.space a.off bs
    | .amo f o c =>
      if 11 < f then (.illegal, [], s)
      else
        let (st, old, s1) := s.serveAmo a.src a.ctx a.space (if posted then 2 else 0) f a.off o c
        if st ≠ .done then (st, [], s1)
        else
          let now := s1.mem.a.read 0 a.off (amoSize f)
          (.done, toBytes 8 old, s1.journalIn (a.src + 2 ^ 12 * 3) 0 a.off now)
    | .readBlock n => s.serveRead a.src a.ctx a.space 2 a.off n
    | .writeBlock bs => s.storeIn a.src a.ctx 5 a.space a.off bs
    | .fill p n => s.storeIn a.src a.ctx 6 a.space a.off (fillOf p n)
    | .windowAdd e wa f bs =>
      if a.space ≠ 0 then (.access, [], s) else s.addIn a.src a.ctx a.off (if wa then .wa160 else .bw48) f e bs
    | _ => (.access, [], s)

/-- The VC of the answer of a request (R275). -/
def answerVc (vc : Nat) : Nat := if vc = 0 then 0 else if vc = 6 then 6 else 2

/-- Answers a request: a response, or an acknowledgement of a posted one (R276). -/
def State.respond (s : State) (a : Arrival) (posted : Bool) (st : Nat) (data : List Byte) : State :=
  s.postMsg a.src (answerVc a.vc)
    (.response a.src (answerVc a.vc) posted a.ctx a.seq st (s.epoch % 256) (if posted then [] else data))

/-- Applies a request with its unwrapped number, records it with its response, and answers it (R280). -/
def State.applyIn (s : State) (a : Arrival) (posted : Bool) (n : Nat) : State :=
  let (st, data, s1) := s.serve a posted
  let x := s1.rxPair a.src a.vc
  (s1.putRx a.src a.vc ((x.note n ⟨n, st.num, data⟩).pass 1024)).respond a posted st.num data

/-- A request is posted by its kind (R275). -/
def ReqOp.isPosted : ReqOp → Bool
  | .store _ | .writeBlock _ | .fill _ _ | .windowAdd .. => true
  | _ => false

/-- Applies the arrivals that wait for a number that has come (R339). -/
def State.heldIn (s : State) : Nat → State
  | 0 => s
  | fuel + 1 =>
    match s.fab.held.find? fun a => match (s.rxPair a.src a.vc).takes a.vc a.seq with
      | .fresh _ => true
      | _ => false with
    | none => s
    | some a =>
      let s1 := { s with fab := { s.fab with held := s.fab.held.erase a } }
      match (s1.rxPair a.src a.vc).takes a.vc a.seq with
      | .fresh n => (s1.applyIn a a.op.isPosted n).heldIn fuel
      | _ => s1

/-- Whether requests of other modules reach this one: it is powered, its ports are handed to link bring-up (R60), or, for VC0
under two networks, its service ports carry them (R508), and it is not in recovery hold. -/
def State.hears (s : State) (vc : Nat) : Bool :=
  decide (s.pwr.mode = .on) && !s.inHold && (s.links.handed || (decide (vc = 0 ∧ s.get TOP_NETWORKS = 2) && s.ready))

/-- Whether the journal of the context that owns the page has no room for this input, so that it waits (R440). -/
def State.inputWaits (s : State) (a : Arrival) : Bool :=
  match a.op with
  | .load _ | .readBlock _ | .ctlLoad | .ctlStore _ | .tcBlocks .. => false
  | _ => match s.ownerSlot a.space a.off with
    | some i => s.journalFull i
    | none => false

/-- A request below the window is discarded, counted, and recorded once for its pair (R280). -/
def State.tooOld (s : State) (a : Arrival) : State :=
  let x := s.rxPair a.src a.vc
  let s1 := s.sat FAB_STALE 0 0 1
  if x.stale then s1
  else (s1.putRx a.src a.vc { x with stale := true }).emit RT_FABRIC_STALE .data 0 0 a.ctx [a.src, a.vc, a.seq]

/-- A request of another module arrives (R278, R280, R281, R339). -/
def State.receive (s : State) (epoch : Nat) (a : Arrival) (posted : Bool) : State :=
  if !s.hears a.vc then s
  else if epoch ≠ s.epoch % 256 then
    (((s.sat FAB_EPOCH_MISMATCH 0 0 1).noteNumber a.src a.vc a.seq ⟨0, Status.peerLost.num, []⟩).respond a posted
      Status.peerLost.num []).heldIn 1024
  else
    let x := s.rxPair a.src a.vc
    match x.takes a.vc a.seq with
    | .stale => s.tooOld a
    | .again r => (s.wrap FAB_DUPLICATES 0 0 1).respond a posted r.status r.data
    | .early _ =>
      if s.fab.held.any fun h => decide (h.src = a.src ∧ h.vc = a.vc ∧ h.seq = a.seq) then s
      else { s with fab := { s.fab with held := s.fab.held ++ [a] } }
    | .fresh n => if s.inputWaits a then s else (s.applyIn a posted n).heldIn 1024

/-! ### The requests of R275 -/

/-- LOAD (R273, R275). -/
def execLoad (src : BitVec 12) (epoch : BitVec 8) (seq : BitVec 16) (ctx : BitVec 16) (space : BitVec 2) (offset : BitVec 48)
    (size : BitVec 8) (s : State) : Res :=
  ok (s.receive epoch.toNat ⟨src.toNat, 1, seq.toNat, ctx.toNat, space.toNat, offset.toNat, .load size.toNat⟩ false)

/-- STORE (R273, R275). -/
def execStore (src : BitVec 12) (epoch : BitVec 8) (seq : BitVec 16) (ctx : BitVec 16) (space : BitVec 2) (offset : BitVec 48)
    (size : BitVec 8) (data : DWord) (s : State) : Res :=
  ok (s.receive epoch.toNat
    ⟨src.toNat, 1, seq.toNat, ctx.toNat, space.toNat, offset.toNat, .store (toBytes size.toNat data.toNat)⟩ true)

/-- AMO (R248, R273, R275). DEDUCED, log entry 79. -/
def execAmo (src : BitVec 12) (epoch : BitVec 8) (seq : BitVec 16) (ctx : BitVec 16) (space : BitVec 2) (offset : BitVec 48)
    (func : BitVec 8) (operand compare : DWord) (posted : Bool) (s : State) : Res :=
  ok (s.receive epoch.toNat
    ⟨src.toNat, 1, seq.toNat, ctx.toNat, space.toNat, offset.toNat, .amo func.toNat operand.toNat compare.toNat⟩ posted)

/-- READ_BLOCK (R275). -/
def execReadBlock (src : BitVec 12) (epoch : BitVec 8) (seq : BitVec 16) (ctx : BitVec 16) (space : BitVec 2) (offset : BitVec 48)
    (length : BitVec 32) (s : State) : Res :=
  ok (s.receive epoch.toNat ⟨src.toNat, 1, seq.toNat, ctx.toNat, space.toNat, offset.toNat, .readBlock (min 4096 length.toNat)⟩ false)

/-- WRITE_BLOCK (R275). -/
def execWriteBlock (src : BitVec 12) (epoch : BitVec 8) (seq : BitVec 16) (ctx : BitVec 16) (space : BitVec 2) (offset : BitVec 48)
    (data : List Byte) (s : State) : Res :=
  ok (s.receive epoch.toNat ⟨src.toNat, 7, seq.toNat, ctx.toNat, space.toNat, offset.toNat, .writeBlock (data.take 4096)⟩ true)

/-- REMOTE_FILL (R275). -/
def execRemoteFill (src : BitVec 12) (epoch : BitVec 8) (seq : BitVec 16) (ctx : BitVec 16) (space : BitVec 2) (offset : BitVec 48)
    (pattern : DWord) (length : BitVec 32) (s : State) : Res :=
  ok (s.receive epoch.toNat
    ⟨src.toNat, 7, seq.toNat, ctx.toNat, space.toNat, offset.toNat, .fill pattern.toNat (min 4096 length.toNat)⟩ true)

/-- WINDOW_ADD (R277). -/
def execWindowAdd (src : BitVec 12) (epoch : BitVec 8) (seq : BitVec 16) (ctx : BitVec 16) (space : BitVec 2) (offset : BitVec 48)
    (wa : Bool) (srcFmt : BitVec 4) (expIndex : BitVec 16) (row : List Byte) (s : State) : Res :=
  ok (s.receive epoch.toNat
    ⟨src.toNat, 3, seq.toNat, ctx.toNat, space.toNat, offset.toNat, .windowAdd expIndex.toNat wa srcFmt.toNat row⟩ true)

/-- CTL_LOAD (R34, R266). -/
def execCtlLoad (src : BitVec 12) (epoch : BitVec 8) (seq : BitVec 16) (ctx : BitVec 16) (offset : BitVec 48) (s : State) : Res :=
  ok (s.receive epoch.toNat ⟨src.toNat, 0, seq.toNat, ctx.toNat, 2, offset.toNat, .ctlLoad⟩ false)

/-- CTL_STORE (R34, R266). -/
def execCtlStore (src : BitVec 12) (epoch : BitVec 8) (seq : BitVec 16) (ctx : BitVec 16) (offset : BitVec 48) (value : Word)
    (s : State) : Res :=
  ok (s.receive epoch.toNat ⟨src.toNat, 0, seq.toNat, ctx.toNat, 2, offset.toNat, .ctlStore value.toNat⟩ false)

/-- PIECE_READ (R427): the blocks go back on VC6; where one is under repair, its answer follows the repair (R232) and the number
is not recorded yet. The order of VC6 is that of the commands (DESIGN CHOICE, log entry 80). -/
def execPieceRead (src : BitVec 12) (epoch : BitVec 8) (seq : BitVec 16) (ctx : BitVec 16) (area : Fin 4) (first blocks : BitVec 30)
    (s : State) : Res :=
  let a : Arrival := ⟨src.toNat, 6, seq.toNat, ctx.toNat, 0, 0, .tcBlocks area.val first.toNat blocks.toNat⟩
  let x := s.rxPair a.src 6
  ok (if !s.hears 6 then s
    else if epoch.toNat ≠ s.epoch % 256 then (s.sat FAB_EPOCH_MISMATCH 0 0 1).respond a false Status.peerLost.num []
    else match x.takes 1 a.seq with
    | .again r => (s.wrap FAB_DUPLICATES 0 0 1).respond a false r.status r.data
    | .fresh n =>
      let (r, s1) := s.serveTc a.src a.ctx a.seq area.val first.toNat blocks.toNat
      match r with
      | none => s1
      | some (st, data) => (s1.putRx a.src 6 (x.note n ⟨n, st.num, data⟩)).respond a false st.num data
    | _ => s.tooOld a)

/-! ### Answers, and requests without one (R276, R278, R281, R282, R470) -/

/-- A request of this module is answered: an EPOCH mismatch tells the destination's EPOCH and closes the pair (R281); an answer
to a request that was ended with ABORTED is late (R470); any other is a duplicate. -/
def State.answered (s : State) (src vc reqSeq st epoch : Nat) (data : List Byte) : State :=
  match s.sentOn src vc reqSeq with
  | some q =>
    let s1 := if st = Status.peerLost.num
      then ({ s with fab := { s.fab with epochs := s.fab.epochs.put 0 src epoch } }).closePair q.ctx src vc else s
    s1.answer q (Status.ofNum st) data
  | none =>
    match s.fab.gone.find? fun q => decide (q.dest = src ∧ q.vc = vc ∧ q.seq = reqSeq) with
    | some q => ({ s with fab := { s.fab with gone := s.fab.gone.erase q } }).sat HNG_LATE_RESPONSES 0 0 1
    | none => s

/-- Whether the context that sent a request cannot take its answer now, because the journal has no room (R440). -/
def State.answerWaits (s : State) (src vc reqSeq : Nat) : Bool :=
  match s.sentOn src vc reqSeq with
  | some q => match s.slotOf q.ctx with
    | some i => q.waiter.ofSet && s.journalFull i
    | none => false
  | none => false

/-- RESPONSE (R275, R280). -/
def execResponse (src : BitVec 12) (vc : Fin 8) (reqSeq seq : BitVec 16) (status : BitVec 6) (epoch : BitVec 8) (data : List Byte)
    (s : State) : Res :=
  ok (if !s.hears vc.val || s.answerWaits src.toNat vc.val reqSeq.toNat then s
    else
      let s1 := if vc.val = 0 then (s.noteNumber src.toNat 0 seq.toNat ⟨0, 0, []⟩).heldIn 1024 else s
      s1.answered src.toNat vc.val reqSeq.toNat status.toNat epoch.toNat data)

/-- ACK (R276). -/
def execAck (src : BitVec 12) (vc : Fin 8) (reqSeq : BitVec 16) (status : BitVec 6) (epoch : BitVec 8) (s : State) : Res :=
  ok (if !s.hears vc.val || s.answerWaits src.toNat vc.val reqSeq.toNat then s
    else s.answered src.toNat vc.val reqSeq.toNat status.toNat epoch.toNat [])

/-- REQUEST_TIMEOUT (R282): the record, the notice, the pair closed for the context, and TIMEOUT for what waits. -/
def execRequestTimeout (dest : BitVec 12) (vc : Fin 8) (seq : BitVec 16) (s : State) : Res :=
  ok (match s.sentOn dest.toNat vc.val seq.toNat with
    | none => s
    | some q =>
      let s1 := (s.sat FAB_TIMEOUTS 0 0 1).closePair q.ctx q.dest q.vc
      let s2 := s1.emit RT_FABRIC_TIMEOUT .data 0 0 q.ctx [q.dest, q.vc, q.seq, q.addr]
      let s3 := s2.notify .fabricTimeout Status.timeout.num 0 ((s2.slotOf q.ctx).getD 0) 0x3FFF q.dest (s2.lastSeq .data)
      s3.answer q .timeout [])

/-- VC0_DATAGRAM (R508): a datagram for this module holds a flit header and a message of VC0. -/
def execVc0Datagram (port : Fin 2) (bytes : List Byte) (s : State) : Res :=
  let f := flitOf bytes
  let m := bytes.drop 16
  let a : ReqOp → Arrival := fun op =>
    ⟨f.src, 0, f.e2e, leAt m 2 2, bits (leAt m 8 8) 49 48, leAt m 8 8 % 2 ^ 48, op⟩
  let st := leAt m 1 1 % 64
  ok (if s.get TOP_NETWORKS ≠ 2 ∨ s.ethUp port.val = false ∨ f.vc ≠ 0 ∨ f.dest ≠ s.self ∨ m.length < 40 then s
    else match leAt m 0 1 with
    | 0x08 => s.receive f.epoch (a .ctlLoad) false
    | 0x09 => s.receive f.epoch (a (.ctlStore (leAt m 24 4))) false
    | 0x80 | 0x81 =>
      ((s.noteNumber f.src 0 f.e2e ⟨0, 0, []⟩).heldIn 1024).answered f.src 0 (leAt m 20 2) st (leAt m 24 1) (m.drop 40)
    | _ => s.respond (a .ctlLoad) false Status.illegal.num [])

/-! ### Translation and window additions of this module -/

/-- XLATE_FILL (R271): a miss of a die's cache is filled. -/
def execXlateFill (die : Fin 4) (slot : Fin 32) (addr : BitVec 56) (s : State) : Res :=
  ok (if s.dieOn die.val = false ∨ s.getF CTX_S_STATE slot.val 0 = 0
      ∨ (cacheFind (s.fab.xlate.getD die.val []) slot.val addr.toNat).isSome = true then s
    else (s.xlate die.val slot.val addr.toNat).2.2)

/-- WINDOW_ADDITION (R252 to R256, R564): one row of addends into a window block on this module, for the context of a slot.
DEDUCED, log entry 83. -/
def execWindowAddition (die : Fin 4) (slot : Fin 32) (wa : Bool) (addr : BitVec 56) (expIndex : BitVec 16) (srcFmt : Fin 3)
    (addends : List (BitVec 48)) (s : State) : Res :=
  let w : Window := if wa then .wa160 else .bw48
  let xs := addends.map fun b => srcValue srcFmt.val (b.toNat % 2 ^ (8 * srcSize srcFmt.val))
  ok (if s.dieOn die.val = false ∨ s.getF CTX_S_STATE slot.val 0 = 0 ∨ s.fencedSlot slot.val = true
      ∨ addends.length * w.size ≠ w.block ∨ xs.any Option.isNone = true then s
    else
      let (st, m, offs, s1) := s.blockLines die.val slot.val addr.toNat (w.block / 64)
      if st ≠ .done ∨ m ≠ s1.self then s1
      else (s1.windowHere s1.self (s1.ctxOf slot.val) slot.val w addr.toNat expIndex.toNat offs (xs.filterMap id)).2)

end Sys2Proof.Machine
end

