-- ==== Sys2Proof/Machine/Dispatch.lean ====
section
/-! DEFINITION. The meaning of each command: one arm per constructor of Instr, in the order of spec/opcode_table.json. -/

namespace Sys2Proof.Machine

/-- What a command does to everything but the queue. -/
def exec (i : Instr) (s : State) : Host.Outcome State Fault Refusal :=
  match i with
  | .registerWrite path addr value => Sys2Proof.Machine.execRegisterWrite path addr value s
  | .pairLowRead path addr => Sys2Proof.Machine.execPairLowRead path addr s
  | .pairHighRead path addr => Sys2Proof.Machine.execPairHighRead path addr s
  | .pairLowWrite path addr value => Sys2Proof.Machine.execPairLowWrite path addr value s
  | .pairHighWrite path addr value => Sys2Proof.Machine.execPairHighWrite path addr value s
  | .pathEntryExpiry src => Sys2Proof.Machine.execPathEntryExpiry src s
  | .pgoodRise => Sys2Proof.Machine.execPgoodRise s
  | .callerBoot => Sys2Proof.Machine.execCallerBoot s
  | .imageRead flashOk => Sys2Proof.Machine.execImageRead flashOk s
  | .verify => Sys2Proof.Machine.execVerify s
  | .parse => Sys2Proof.Machine.execParse s
  | .clocks locked => Sys2Proof.Machine.execClocks locked s
  | .diePower regulated fusedMap => Sys2Proof.Machine.execDiePower regulated fusedMap s
  | .memoryTrain stackMask pkgs tierC => Sys2Proof.Machine.execMemoryTrain stackMask pkgs tierC s
  | .scrub slices => Sys2Proof.Machine.execScrub slices s
  | .setTest results => Sys2Proof.Machine.execSetTest results s
  | .opticsLock => Sys2Proof.Machine.execOpticsLock s
  | .tables => Sys2Proof.Machine.execTables s
  | .stageTimeout stage => Sys2Proof.Machine.execStageTimeout stage s
  | .heldWarmReset => Sys2Proof.Machine.execHeldWarmReset s
  | .holdOpen path => Sys2Proof.Machine.execHoldOpen path s
  | .holdVerify path => Sys2Proof.Machine.execHoldVerify path s
  | .holdVerifyDone => Sys2Proof.Machine.execHoldVerifyDone s
  | .holdProgram path => Sys2Proof.Machine.execHoldProgram path s
  | .programDone mismatch => Sys2Proof.Machine.execProgramDone mismatch s
  | .holdClose path => Sys2Proof.Machine.execHoldClose path s
  | .holdRestart path => Sys2Proof.Machine.execHoldRestart path s
  | .enterHold path => Sys2Proof.Machine.execEnterHold path s
  | .stageWindowWrite path word value => Sys2Proof.Machine.execStageWindowWrite path word value s
  | .stagePageWrite path value => Sys2Proof.Machine.execStagePageWrite path value s
  | .stageLengthWrite path value => Sys2Proof.Machine.execStageLengthWrite path value s
  | .tileStart set => Sys2Proof.Machine.execTileStart set s
  | .cutIn set => Sys2Proof.Machine.execCutIn set s
  | .shadowLoad set => Sys2Proof.Machine.execShadowLoad set s
  | .passEnd set => Sys2Proof.Machine.execPassEnd set s
  | .rowDrain set array => Sys2Proof.Machine.execRowDrain set array s
  | .blockComplete set array => Sys2Proof.Machine.execBlockComplete set array s
  | .tileComplete set => Sys2Proof.Machine.execTileComplete set s
  | .startRampEnd set array => Sys2Proof.Machine.execStartRampEnd set array s
  | .stopRampEnd set array => Sys2Proof.Machine.execStopRampEnd set array s
  | .arrayFault set array inDrain => Sys2Proof.Machine.execArrayFault set array inDrain s
  | .pauseEnd die => Sys2Proof.Machine.execPauseEnd die s
  | .softPreempt set => Sys2Proof.Machine.execSoftPreempt set s
  | .preemptionPoint set => Sys2Proof.Machine.execPreemptionPoint set s
  | .hardPreempt set => Sys2Proof.Machine.execHardPreempt set s
  | .resume set => Sys2Proof.Machine.execResume set s
  | .unassigned set word => Sys2Proof.Machine.execUnassigned set word s
  | .iAdd set rd ra rb => Sys2Proof.Machine.execIAdd set rd ra rb s
  | .iSub set rd ra rb => Sys2Proof.Machine.execISub set rd ra rb s
  | .iAnd set rd ra rb => Sys2Proof.Machine.execIAnd set rd ra rb s
  | .iOr set rd ra rb => Sys2Proof.Machine.execIOr set rd ra rb s
  | .iXor set rd ra rb => Sys2Proof.Machine.execIXor set rd ra rb s
  | .iSll set rd ra rb => Sys2Proof.Machine.execISll set rd ra rb s
  | .iSrl set rd ra rb => Sys2Proof.Machine.execISrl set rd ra rb s
  | .iSra set rd ra rb => Sys2Proof.Machine.execISra set rd ra rb s
  | .iMul set rd ra rb => Sys2Proof.Machine.execIMul set rd ra rb s
  | .iMulhu set rd ra rb => Sys2Proof.Machine.execIMulhu set rd ra rb s
  | .iMulhs set rd ra rb => Sys2Proof.Machine.execIMulhs set rd ra rb s
  | .iDivu set rd ra rb => Sys2Proof.Machine.execIDivu set rd ra rb s
  | .iRemu set rd ra rb => Sys2Proof.Machine.execIRemu set rd ra rb s
  | .iMin set rd ra rb => Sys2Proof.Machine.execIMin set rd ra rb s
  | .iMax set rd ra rb => Sys2Proof.Machine.execIMax set rd ra rb s
  | .iMinu set rd ra rb => Sys2Proof.Machine.execIMinu set rd ra rb s
  | .iMaxu set rd ra rb => Sys2Proof.Machine.execIMaxu set rd ra rb s
  | .iSlt set rd ra rb => Sys2Proof.Machine.execISlt set rd ra rb s
  | .iSltu set rd ra rb => Sys2Proof.Machine.execISltu set rd ra rb s
  | .iSeq set rd ra rb => Sys2Proof.Machine.execISeq set rd ra rb s
  | .iSel set rd ra rb rc => Sys2Proof.Machine.execISel set rd ra rb rc s
  | .iAddi set rd ra imm => Sys2Proof.Machine.execIAddi set rd ra imm s
  | .iAndi set rd ra imm => Sys2Proof.Machine.execIAndi set rd ra imm s
  | .iOri set rd ra imm => Sys2Proof.Machine.execIOri set rd ra imm s
  | .iXori set rd ra imm => Sys2Proof.Machine.execIXori set rd ra imm s
  | .iSlli set rd ra imm => Sys2Proof.Machine.execISlli set rd ra imm s
  | .iSrli set rd ra imm => Sys2Proof.Machine.execISrli set rd ra imm s
  | .iSrai set rd ra imm => Sys2Proof.Machine.execISrai set rd ra imm s
  | .iMuli set rd ra imm => Sys2Proof.Machine.execIMuli set rd ra imm s
  | .iMini set rd ra imm => Sys2Proof.Machine.execIMini set rd ra imm s
  | .iMaxi set rd ra imm => Sys2Proof.Machine.execIMaxi set rd ra imm s
  | .iSlti set rd ra imm => Sys2Proof.Machine.execISlti set rd ra imm s
  | .iSltui set rd ra imm => Sys2Proof.Machine.execISltui set rd ra imm s
  | .iSeqi set rd ra imm => Sys2Proof.Machine.execISeqi set rd ra imm s
  | .iMovi set rd imm => Sys2Proof.Machine.execIMovi set rd imm s
  | .iMovhi set rd imm => Sys2Proof.Machine.execIMovhi set rd imm s
  | .iLd8u set rd ra imm => Sys2Proof.Machine.execILd8u set rd ra imm s
  | .iLd16u set rd ra imm => Sys2Proof.Machine.execILd16u set rd ra imm s
  | .iLd32u set rd ra imm => Sys2Proof.Machine.execILd32u set rd ra imm s
  | .iLd64 set rd ra imm => Sys2Proof.Machine.execILd64 set rd ra imm s
  | .iLd8s set rd ra imm => Sys2Proof.Machine.execILd8s set rd ra imm s
  | .iLd16s set rd ra imm => Sys2Proof.Machine.execILd16s set rd ra imm s
  | .iLd32s set rd ra imm => Sys2Proof.Machine.execILd32s set rd ra imm s
  | .iSt8 set ra rb imm => Sys2Proof.Machine.execISt8 set ra rb imm s
  | .iSt16 set ra rb imm => Sys2Proof.Machine.execISt16 set ra rb imm s
  | .iSt32 set ra rb imm => Sys2Proof.Machine.execISt32 set ra rb imm s
  | .iSt64 set ra rb imm => Sys2Proof.Machine.execISt64 set ra rb imm s
  | .iAadd64 set rd ra rb => Sys2Proof.Machine.execIAadd64 set rd ra rb s
  | .iAadd32 set rd ra rb => Sys2Proof.Machine.execIAadd32 set rd ra rb s
  | .iAand set rd ra rb => Sys2Proof.Machine.execIAand set rd ra rb s
  | .iAor set rd ra rb => Sys2Proof.Machine.execIAor set rd ra rb s
  | .iAxor set rd ra rb => Sys2Proof.Machine.execIAxor set rd ra rb s
  | .iAmin set rd ra rb => Sys2Proof.Machine.execIAmin set rd ra rb s
  | .iAmax set rd ra rb => Sys2Proof.Machine.execIAmax set rd ra rb s
  | .iAminu set rd ra rb => Sys2Proof.Machine.execIAminu set rd ra rb s
  | .iAmaxu set rd ra rb => Sys2Proof.Machine.execIAmaxu set rd ra rb s
  | .iAswap set rd ra rb => Sys2Proof.Machine.execIAswap set rd ra rb s
  | .iAcas set rd ra rb rc => Sys2Proof.Machine.execIAcas set rd ra rb rc s
  | .iAfadd32 set rd ra rb => Sys2Proof.Machine.execIAfadd32 set rd ra rb s
  | .iBeq set ra rb imm => Sys2Proof.Machine.execIBeq set ra rb imm s
  | .iBne set ra rb imm => Sys2Proof.Machine.execIBne set ra rb imm s
  | .iBlt set ra rb imm => Sys2Proof.Machine.execIBlt set ra rb imm s
  | .iBge set ra rb imm => Sys2Proof.Machine.execIBge set ra rb imm s
  | .iBltu set ra rb imm => Sys2Proof.Machine.execIBltu set ra rb imm s
  | .iBgeu set ra rb imm => Sys2Proof.Machine.execIBgeu set ra rb imm s
  | .iJal set rd imm => Sys2Proof.Machine.execIJal set rd imm s
  | .iJalr set rd ra imm => Sys2Proof.Machine.execIJalr set rd ra imm s
  | .iRset set rd => Sys2Proof.Machine.execIRset set rd s
  | .iRcrew set rd => Sys2Proof.Machine.execIRcrew set rd s
  | .iRcidx set rd => Sys2Proof.Machine.execIRcidx set rd s
  | .iRcsize set rd => Sys2Proof.Machine.execIRcsize set rd s
  | .iRctx set rd => Sys2Proof.Machine.execIRctx set rd s
  | .iRstep set rd => Sys2Proof.Machine.execIRstep set rd s
  | .iRseed set rd => Sys2Proof.Machine.execIRseed set rd s
  | .iRmod set rd => Sys2Proof.Machine.execIRmod set rd s
  | .iRarr set rd => Sys2Proof.Machine.execIRarr set rd s
  | .iRcyc set rd => Sys2Proof.Machine.execIRcyc set rd s
  | .vAdd set a => Sys2Proof.Machine.execVAdd set a s
  | .vSub set a => Sys2Proof.Machine.execVSub set a s
  | .vMul set a => Sys2Proof.Machine.execVMul set a s
  | .vFma set a => Sys2Proof.Machine.execVFma set a s
  | .vFms set a => Sys2Proof.Machine.execVFms set a s
  | .vFnma set a => Sys2Proof.Machine.execVFnma set a s
  | .vMin set a => Sys2Proof.Machine.execVMin set a s
  | .vMax set a => Sys2Proof.Machine.execVMax set a s
  | .vAbs set a => Sys2Proof.Machine.execVAbs set a s
  | .vNeg set a => Sys2Proof.Machine.execVNeg set a s
  | .vRcp set a => Sys2Proof.Machine.execVRcp set a s
  | .vRsqrt set a => Sys2Proof.Machine.execVRsqrt set a s
  | .vSqrt set a => Sys2Proof.Machine.execVSqrt set a s
  | .vDiv set a => Sys2Proof.Machine.execVDiv set a s
  | .vMov set a => Sys2Proof.Machine.execVMov set a s
  | .vScale set a => Sys2Proof.Machine.execVScale set a s
  | .vIadd set a => Sys2Proof.Machine.execVIadd set a s
  | .vIsub set a => Sys2Proof.Machine.execVIsub set a s
  | .vImul set a => Sys2Proof.Machine.execVImul set a s
  | .vAnd set a => Sys2Proof.Machine.execVAnd set a s
  | .vOr set a => Sys2Proof.Machine.execVOr set a s
  | .vXor set a => Sys2Proof.Machine.execVXor set a s
  | .vNot set a => Sys2Proof.Machine.execVNot set a s
  | .vShl set a => Sys2Proof.Machine.execVShl set a s
  | .vShr set a => Sys2Proof.Machine.execVShr set a s
  | .vSra set a => Sys2Proof.Machine.execVSra set a s
  | .vImin set a => Sys2Proof.Machine.execVImin set a s
  | .vImax set a => Sys2Proof.Machine.execVImax set a s
  | .vCeq set a => Sys2Proof.Machine.execVCeq set a s
  | .vCne set a => Sys2Proof.Machine.execVCne set a s
  | .vClt set a => Sys2Proof.Machine.execVClt set a s
  | .vCle set a => Sys2Proof.Machine.execVCle set a s
  | .vCgt set a => Sys2Proof.Machine.execVCgt set a s
  | .vCge set a => Sys2Proof.Machine.execVCge set a s
  | .vCun set a => Sys2Proof.Machine.execVCun set a s
  | .pAnd set pd pa pb pm => Sys2Proof.Machine.execPAnd set pd pa pb pm s
  | .pOr set pd pa pb pm => Sys2Proof.Machine.execPOr set pd pa pb pm s
  | .pXor set pd pa pb pm => Sys2Proof.Machine.execPXor set pd pa pb pm s
  | .pAndn set pd pa pb pm => Sys2Proof.Machine.execPAndn set pd pa pb pm s
  | .pNot set pd pa pm => Sys2Proof.Machine.execPNot set pd pa pm s
  | .pSet set pd pm => Sys2Proof.Machine.execPSet set pd pm s
  | .pClr set pd pm => Sys2Proof.Machine.execPClr set pd pm s
  | .vCvt set dst a => Sys2Proof.Machine.execVCvt set dst a s
  | .vRedsum set a => Sys2Proof.Machine.execVRedsum set a s
  | .vRedmax set a => Sys2Proof.Machine.execVRedmax set a s
  | .vRedmin set a => Sys2Proof.Machine.execVRedmin set a s
  | .vPerm set a => Sys2Proof.Machine.execVPerm set a s
  | .vBcastl set vd va rb pm ty => Sys2Proof.Machine.execVBcastl set vd va rb pm ty s
  | .vMovs set rd va rb ty => Sys2Proof.Machine.execVMovs set rd va rb ty s
  | .vIns set vd ra rb pm ty => Sys2Proof.Machine.execVIns set vd ra rb pm ty s
  | .vIota set vd pm ty => Sys2Proof.Machine.execVIota set vd pm ty s
  | .vLd set vd ra pm ty => Sys2Proof.Machine.execVLd set vd ra pm ty s
  | .vSt set vd ra pm ty => Sys2Proof.Machine.execVSt set vd ra pm ty s
  | .vLds set vd ra rb pm ty => Sys2Proof.Machine.execVLds set vd ra rb pm ty s
  | .vSts set vd ra rb pm ty => Sys2Proof.Machine.execVSts set vd ra rb pm ty s
  | .vFn set slot a => Sys2Proof.Machine.execVFn set slot a s
  | .vDfn set slot a => Sys2Proof.Machine.execVDfn set slot a s
  | .vTldf set slot ra pm => Sys2Proof.Machine.execVTldf set slot ra pm s
  | .vTldd set slot ra pm => Sys2Proof.Machine.execVTldd set slot ra pm s
  | .vRnd set vd ra rb pm ty => Sys2Proof.Machine.execVRnd set vd ra rb pm ty s
  | .vTake set vd pm ty => Sys2Proof.Machine.execVTake set vd pm ty s
  | .vGive set va pm ty => Sys2Proof.Machine.execVGive set va pm ty s
  | .tpush set ra imm => Sys2Proof.Machine.execTpush set ra imm s
  | .fseq set ra rb imm => Sys2Proof.Machine.execFseq set ra rb imm s
  | .ppush set ra imm => Sys2Proof.Machine.execPpush set ra imm s
  | .rpush set ra imm => Sys2Proof.Machine.execRpush set ra imm s
  | .fpush set ra imm => Sys2Proof.Machine.execFpush set ra imm s
  | .cset set ctr ra imm => Sys2Proof.Machine.execCset set ctr ra imm s
  | .cadd set ctr ra imm release => Sys2Proof.Machine.execCadd set ctr ra imm release s
  | .caddr set ctr ra imm release => Sys2Proof.Machine.execCaddr set ctr ra imm release s
  | .cwait set ctr ra imm => Sys2Proof.Machine.execCwait set ctr ra imm s
  | .cread set ctr ra => Sys2Proof.Machine.execCread set ctr ra s
  | .iNop set => Sys2Proof.Machine.execINop set s
  | .iEnd set => Sys2Proof.Machine.execIEnd set s
  | .iStep set ra journal => Sys2Proof.Machine.execIStep set ra journal s
  | .iBubble set number => Sys2Proof.Machine.execIBubble set number s
  | .iBubbleEnd set number => Sys2Proof.Machine.execIBubbleEnd set number s
  | .iMsend set ra channel => Sys2Proof.Machine.execIMsend set ra channel s
  | .iMrecv set rd channel => Sys2Proof.Machine.execIMrecv set rd channel s
  | .iRing set doorbell => Sys2Proof.Machine.execIRing set doorbell s
  | .fusedSequenceStart set => Sys2Proof.Machine.execFusedSequenceStart set s
  | .producerComplete set => Sys2Proof.Machine.execProducerComplete set s
  | .copy set => Sys2Proof.Machine.execCopy set s
  | .fill set => Sys2Proof.Machine.execFill set s
  | .reduceWrite set => Sys2Proof.Machine.execReduceWrite set s
  | .tcRead set => Sys2Proof.Machine.execTcRead set s
  | .tcWrite set => Sys2Proof.Machine.execTcWrite set s
  | .promenadeBlock set k => Sys2Proof.Machine.execPromenadeBlock set k s
  | .promenadeComplete set => Sys2Proof.Machine.execPromenadeComplete set s
  | .watchdog engine kind => Sys2Proof.Machine.execWatchdog engine kind s
  | .windowAddition die slot wa addr expIndex srcFmt addends => Sys2Proof.Machine.execWindowAddition die slot wa addr expIndex srcFmt addends s
  | .freeze slot => Sys2Proof.Machine.execFreeze slot s
  | .drainComplete slot => Sys2Proof.Machine.execDrainComplete slot s
  | .update slot => Sys2Proof.Machine.execUpdate slot s
  | .updateBlock slot => Sys2Proof.Machine.execUpdateBlock slot s
  | .updateComplete slot => Sys2Proof.Machine.execUpdateComplete slot s
  | .channelGrant tier unit channel arrivals upset => Sys2Proof.Machine.execChannelGrant tier unit channel arrivals upset s
  | .promotion tier unit channel cls => Sys2Proof.Machine.execPromotion tier unit channel cls s
  | .reserve3WindowEnd tier unit channel => Sys2Proof.Machine.execReserve3WindowEnd tier unit channel s
  | .correctedWriteback => Sys2Proof.Machine.execCorrectedWriteback s
  | .ceRecordThreshold kind unit => Sys2Proof.Machine.execCeRecordThreshold kind unit s
  | .patrolRead upset => Sys2Proof.Machine.execPatrolRead upset s
  | .unitLost tier unit => Sys2Proof.Machine.execUnitLost tier unit s
  | .tierCWriteDone extra => Sys2Proof.Machine.execTierCWriteDone extra s
  | .wearWarning => Sys2Proof.Machine.execWearWarning s
  | .tierCReadonly spare => Sys2Proof.Machine.execTierCReadonly spare s
  | .xlateFill die slot addr => Sys2Proof.Machine.execXlateFill die slot addr s
  | .load src epoch seq ctx space offset size => Sys2Proof.Machine.execLoad src epoch seq ctx space offset size s
  | .store src epoch seq ctx space offset size data => Sys2Proof.Machine.execStore src epoch seq ctx space offset size data s
  | .amo src epoch seq ctx space offset func operand compare posted => Sys2Proof.Machine.execAmo src epoch seq ctx space offset func operand compare posted s
  | .readBlock src epoch seq ctx space offset length => Sys2Proof.Machine.execReadBlock src epoch seq ctx space offset length s
  | .writeBlock src epoch seq ctx space offset data => Sys2Proof.Machine.execWriteBlock src epoch seq ctx space offset data s
  | .remoteFill src epoch seq ctx space offset pattern length => Sys2Proof.Machine.execRemoteFill src epoch seq ctx space offset pattern length s
  | .windowAdd src epoch seq ctx space offset wa srcFmt expIndex row => Sys2Proof.Machine.execWindowAdd src epoch seq ctx space offset wa srcFmt expIndex row s
  | .ctlLoad src epoch seq ctx offset => Sys2Proof.Machine.execCtlLoad src epoch seq ctx offset s
  | .ctlStore src epoch seq ctx offset value => Sys2Proof.Machine.execCtlStore src epoch seq ctx offset value s
  | .response src vc reqSeq seq status epoch data => Sys2Proof.Machine.execResponse src vc reqSeq seq status epoch data s
  | .ack src vc reqSeq status epoch => Sys2Proof.Machine.execAck src vc reqSeq status epoch s
  | .requestTimeout dest vc seq => Sys2Proof.Machine.execRequestTimeout dest vc seq s
  | .combWarmed engine => Sys2Proof.Machine.execCombWarmed engine s
  | .combSettled engine measured => Sys2Proof.Machine.execCombSettled engine measured s
  | .pilotCheck engine lines => Sys2Proof.Machine.execPilotCheck engine lines s
  | .sweepStart lane rx => Sys2Proof.Machine.execSweepStart lane rx s
  | .sweepDone lane rx position => Sys2Proof.Machine.execSweepDone lane rx position s
  | .identify lane rx heard => Sys2Proof.Machine.execIdentify lane rx heard s
  | .fineLock lane rx => Sys2Proof.Machine.execFineLock lane rx s
  | .settle lane rx power => Sys2Proof.Machine.execSettle lane rx power s
  | .recalStart lane rx => Sys2Proof.Machine.execRecalStart lane rx s
  | .recalDone lane rx heard => Sys2Proof.Machine.execRecalDone lane rx heard s
  | .loopUpdate bank rings => Sys2Proof.Machine.execLoopUpdate bank rings s
  | .matrixCommit p port bank => Sys2Proof.Machine.execMatrixCommit p port bank s
  | .targetLineWrite p port slot line => Sys2Proof.Machine.execTargetLineWrite p port slot line s
  | .laneRetry p port slot => Sys2Proof.Machine.execLaneRetry p port slot s
  | .eqCodeWrite p port slot code => Sys2Proof.Machine.execEqCodeWrite p port slot code s
  | .lossOfLight lane power => Sys2Proof.Machine.execLossOfLight lane power s
  | .lightReturn lane power => Sys2Proof.Machine.execLightReturn lane power s
  | .laneAligned lane slot => Sys2Proof.Machine.execLaneAligned lane slot s
  | .helloSend lane => Sys2Proof.Machine.execHelloSend lane s
  | .hello lane payload => Sys2Proof.Machine.execHello lane payload s
  | .accept lane payload => Sys2Proof.Machine.execAccept lane payload s
  | .reject lane payload => Sys2Proof.Machine.execReject lane payload s
  | .width lane payload => Sys2Proof.Machine.execWidth lane payload s
  | .widthAck lane payload => Sys2Proof.Machine.execWidthAck lane payload s
  | .retrainTimeout link => Sys2Proof.Machine.execRetrainTimeout link s
  | .discoveryTimeout link => Sys2Proof.Machine.execDiscoveryTimeout link s
  | .forwardedClockTimeout port => Sys2Proof.Machine.execForwardedClockTimeout port s
  | .reform p port slots => Sys2Proof.Machine.execReform p port slots s
  | .flitReceive link bytes symbols newBad inBad => Sys2Proof.Machine.execFlitReceive link bytes symbols newBad inBad s
  | .flitTransmit link => Sys2Proof.Machine.execFlitTransmit link s
  | .reorderTimeout link => Sys2Proof.Machine.execReorderTimeout link s
  | .replayTimeout link => Sys2Proof.Machine.execReplayTimeout link s
  | .laneNarrow lane codewords => Sys2Proof.Machine.execLaneNarrow lane codewords s
  | .laneRejoin lane => Sys2Proof.Machine.execLaneRejoin lane s
  | .drawApply p => Sys2Proof.Machine.execDrawApply p s
  | .drawRevert p => Sys2Proof.Machine.execDrawRevert p s
  | .applyDone => Sys2Proof.Machine.execApplyDone s
  | .applyTimeout => Sys2Proof.Machine.execApplyTimeout s
  | .routeEntryWrite p entry high => Sys2Proof.Machine.execRouteEntryWrite p entry high s
  | .groupCommit p group word => Sys2Proof.Machine.execGroupCommit p group word s
  | .roundStart group => Sys2Proof.Machine.execRoundStart group s
  | .part src msg => Sys2Proof.Machine.execPart src msg s
  | .counts src msg => Sys2Proof.Machine.execCounts src msg s
  | .grant src msg => Sys2Proof.Machine.execGrant src msg s
  | .abort src msg => Sys2Proof.Machine.execAbort src msg s
  | .lateCheck group => Sys2Proof.Machine.execLateCheck group s
  | .roundTimeout group successor => Sys2Proof.Machine.execRoundTimeout group successor s
  | .roundComplete group => Sys2Proof.Machine.execRoundComplete group s
  | .ctxAdmit path => Sys2Proof.Machine.execCtxAdmit path s
  | .rebind path => Sys2Proof.Machine.execRebind path s
  | .release path => Sys2Proof.Machine.execRelease path s
  | .lend path => Sys2Proof.Machine.execLend path s
  | .unlend path => Sys2Proof.Machine.execUnlend path s
  | .rebindPreemptTimeout => Sys2Proof.Machine.execRebindPreemptTimeout s
  | .rebindDone timeout => Sys2Proof.Machine.execRebindDone timeout s
  | .setLent set => Sys2Proof.Machine.execSetLent set s
  | .eviction set us => Sys2Proof.Machine.execEviction set us s
  | .parityPart src context seq window block bytes => Sys2Proof.Machine.execParityPart src context seq window block bytes s
  | .parityTimeout slot member => Sys2Proof.Machine.execParityTimeout slot member s
  | .exportStart slot => Sys2Proof.Machine.execExportStart slot s
  | .exportDone slot => Sys2Proof.Machine.execExportDone slot s
  | .restore slot => Sys2Proof.Machine.execRestore slot s
  | .pieceRead src epoch seq ctx area first blocks => Sys2Proof.Machine.execPieceRead src epoch seq ctx area first blocks s
  | .restoreDone slot => Sys2Proof.Machine.execRestoreDone slot s
  | .rebuild slot => Sys2Proof.Machine.execRebuild slot s
  | .rebuildDone slot => Sys2Proof.Machine.execRebuildDone slot s
  | .jrnEnableWrite p slot enable => Sys2Proof.Machine.execJrnEnableWrite p slot enable s
  | .journalFlush => Sys2Proof.Machine.execJournalFlush s
  | .replayStart p => Sys2Proof.Machine.execReplayStart p s
  | .replayStop p => Sys2Proof.Machine.execReplayStop p s
  | .recordAccept => Sys2Proof.Machine.execRecordAccept s
  | .clearThrough path seq => Sys2Proof.Machine.execClearThrough path seq s
  | .seekSeq path seq => Sys2Proof.Machine.execSeekSeq path seq s
  | .seekDone path => Sys2Proof.Machine.execSeekDone path s
  | .archSelect path k => Sys2Proof.Machine.execArchSelect path k s
  | .archiveLoadDone => Sys2Proof.Machine.execArchiveLoadDone s
  | .captureDone truncated => Sys2Proof.Machine.execCaptureDone truncated s
  | .drainTimeout => Sys2Proof.Machine.execDrainTimeout s
  | .contextReset slot => Sys2Proof.Machine.execContextReset slot s
  | .engineReset engine => Sys2Proof.Machine.execEngineReset engine s
  | .partitionReset slot => Sys2Proof.Machine.execPartitionReset slot s
  | .warmReset => Sys2Proof.Machine.execWarmReset s
  | .resetComplete => Sys2Proof.Machine.execResetComplete s
  | .resetTimeout => Sys2Proof.Machine.execResetTimeout s
  | .isolateTurnEnd => Sys2Proof.Machine.execIsolateTurnEnd s
  | .noticeResend seq => Sys2Proof.Machine.execNoticeResend seq s
  | .noticeAck path seq => Sys2Proof.Machine.execNoticeAck path seq s
  | .callerWatchdog => Sys2Proof.Machine.execCallerWatchdog s
  | .retainedMemoryError region => Sys2Proof.Machine.execRetainedMemoryError region s
  | .windowWrite port offset bytes => Sys2Proof.Machine.execWindowWrite port offset bytes s
  | .windowRead port offset length => Sys2Proof.Machine.execWindowRead port offset length s
  | .perstFall port => Sys2Proof.Machine.execPerstFall port s
  | .perstRise port => Sys2Proof.Machine.execPerstRise port s
  | .pcieLinkUp port => Sys2Proof.Machine.execPcieLinkUp port s
  | .inWord p channel word => Sys2Proof.Machine.execInWord p channel word s
  | .heldWordTimeout channel => Sys2Proof.Machine.execHeldWordTimeout channel s
  | .msendTimeout set => Sys2Proof.Machine.execMsendTimeout set s
  | .outPop p channel => Sys2Proof.Machine.execOutPop p channel s
  | .channelBindingWrite p channel word => Sys2Proof.Machine.execChannelBindingWrite p channel word s
  | .ringWrite p doorbell value => Sys2Proof.Machine.execRingWrite p doorbell value s
  | .ethLinkChange port up => Sys2Proof.Machine.execEthLinkChange port up s
  | .exportChannelValid p channel word => Sys2Proof.Machine.execExportChannelValid p channel word s
  | .inboundRdmaWrite port channel psn key isWrite addr bytes imm => Sys2Proof.Machine.execInboundRdmaWrite port channel psn key isWrite addr bytes imm s
  | .rdmaAck channel psn nak bytes => Sys2Proof.Machine.execRdmaAck channel psn nak bytes s
  | .rdmaTimeout channel psn => Sys2Proof.Machine.execRdmaTimeout channel psn s
  | .vc0Datagram port bytes => Sys2Proof.Machine.execVc0Datagram port bytes s
  | .standby path => Sys2Proof.Machine.execStandby path s
  | .run path => Sys2Proof.Machine.execRun path s
  | .dormant path => Sys2Proof.Machine.execDormant path s
  | .transitionDone => Sys2Proof.Machine.execTransitionDone s
  | .idleEntry => Sys2Proof.Machine.execIdleEntry s
  | .idleExit => Sys2Proof.Machine.execIdleExit s
  | .wake => Sys2Proof.Machine.execWake s
  | .tempSample sensor value => Sys2Proof.Machine.execTempSample sensor value s
  | .throttleWindow die => Sys2Proof.Machine.execThrottleWindow die s
  | .throttleDecay die => Sys2Proof.Machine.execThrottleDecay die s
  | .powerSample vinMv pinW => Sys2Proof.Machine.execPowerSample vinMv pinW s
  | .alertRelease => Sys2Proof.Machine.execAlertRelease s
  | .thermalTrip die sensor => Sys2Proof.Machine.execThermalTrip die sensor s
  | .tripCooldown => Sys2Proof.Machine.execTripCooldown s
  | .droop die => Sys2Proof.Machine.execDroop die s
  | .droopRelease die us => Sys2Proof.Machine.execDroopRelease die us s
  | .clockLoss pll => Sys2Proof.Machine.execClockLoss pll s
  | .entdaa addr => Sys2Proof.Machine.execEntdaa addr s
  | .setdasa addr => Sys2Proof.Machine.execSetdasa addr s
  | .setEndpointId eid => Sys2Proof.Machine.execSetEndpointId eid s
  | .getEndpointId => Sys2Proof.Machine.execGetEndpointId s
  | .getMctpVersionSupport msgType => Sys2Proof.Machine.execGetMctpVersionSupport msgType s
  | .getMessageTypeSupport => Sys2Proof.Machine.execGetMessageTypeSupport s
  | .attestRequest nonce => Sys2Proof.Machine.execAttestRequest nonce s
  | .reportCmd path => Sys2Proof.Machine.execReportCmd path s
  | .reportDone path => Sys2Proof.Machine.execReportDone path s
  | .getTid => Sys2Proof.Machine.execGetTid s
  | .setTid tid => Sys2Proof.Machine.execSetTid tid s
  | .getPldmVersion pldmType => Sys2Proof.Machine.execGetPldmVersion pldmType s
  | .getPldmTypes => Sys2Proof.Machine.execGetPldmTypes s
  | .getPldmCommands pldmType => Sys2Proof.Machine.execGetPldmCommands pldmType s
  | .getSensorReading sensor => Sys2Proof.Machine.execGetSensorReading sensor s
  | .getStateSensorReadings sensor => Sys2Proof.Machine.execGetStateSensorReadings sensor s
  | .setStateEffecterStates effecter state => Sys2Proof.Machine.execSetStateEffecterStates effecter state s
  | .getStateEffecterStates effecter => Sys2Proof.Machine.execGetStateEffecterStates effecter s
  | .getPdrRepositoryInfo => Sys2Proof.Machine.execGetPdrRepositoryInfo s
  | .getPdr handle => Sys2Proof.Machine.execGetPdr handle s
  | .setEventReceiver receiver => Sys2Proof.Machine.execSetEventReceiver receiver s
  | .pollForPlatformEvent => Sys2Proof.Machine.execPollForPlatformEvent s
  | .eventAck num => Sys2Proof.Machine.execEventAck num s
  | .eventResend num => Sys2Proof.Machine.execEventResend num s
  | .queryDeviceIdentifiers => Sys2Proof.Machine.execQueryDeviceIdentifiers s
  | .getFirmwareParameters => Sys2Proof.Machine.execGetFirmwareParameters s
  | .requestUpdate => Sys2Proof.Machine.execRequestUpdate s
  | .passComponentTable classification => Sys2Proof.Machine.execPassComponentTable classification s
  | .updateComponent classification size => Sys2Proof.Machine.execUpdateComponent classification size s
  | .requestFirmwareData offset data => Sys2Proof.Machine.execRequestFirmwareData offset data s
  | .transferComplete => Sys2Proof.Machine.execTransferComplete s
  | .verifyComplete => Sys2Proof.Machine.execVerifyComplete s
  | .applyComplete => Sys2Proof.Machine.execApplyComplete s
  | .activateFirmware => Sys2Proof.Machine.execActivateFirmware s
  | .cancelUpdate => Sys2Proof.Machine.execCancelUpdate s
  | .unsupportedPldm pldmType command => Sys2Proof.Machine.execUnsupportedPldm pldmType command s
  | .insertion slotId => Sys2Proof.Machine.execInsertion slotId s
  | .withdrawal => Sys2Proof.Machine.execWithdrawal s
  | .pwrEnRise lowDone vinOk => Sys2Proof.Machine.execPwrEnRise lowDone vinOk s
  | .pwrEnFall => Sys2Proof.Machine.execPwrEnFall s
  | .undervoltage => Sys2Proof.Machine.execUndervoltage s
  | .powerUp => Sys2Proof.Machine.execPowerUp s
  | .parityGrant src context seq window => Sys2Proof.Machine.execParityGrant src context seq window s
  | .congestionNotificationPacket channel => Sys2Proof.Machine.execCongestionNotificationPacket channel s

end Sys2Proof.Machine
end

