-- ==== Sys2Proof/Safety.lean ====
section
/-! DEFINITION. What counts as a safe step, in the terms the statements use: a step that answers a next state; the canonical form
of the sparse data; what no command may undo. -/

namespace Sys2Proof.Machine

/-- A state answers a next state. -/
def State.steps (s : State) : Prop := ∃ t, step s = .next t

/-- The register words are in canonical form: addresses rise, and no listed word reads as its Default. -/
def State.regsWf (s : State) : Bool :=
  decide ((s.regs.map fun e => e.1).Pairwise (· < ·)) && s.regs.all fun e => decide (e.2 ≠ BitVec.ofNat 32 (regDefault e.1))

/-- Tiers A and B are in canonical form: addresses rise, and no listed byte is zero. -/
def State.memWf (s : State) : Bool := SMap.wf 0 s.mem.a && SMap.wf 0 s.mem.b

/-- The fuses of a module as it can be built (R45 to R48): a hash for each of the four customer slots, and one revocation and one
test-privilege bit for each. -/
def State.fusesWf (s : State) : Bool := decide (s.keys.length = 4 ∧ s.revoked < 16 ∧ s.testPriv < 16)

/-- Every bit of a mask is set in another. -/
def maskIn (a b : Nat) : Prop := ∀ k, Nat.testBit a k = true → Nat.testBit b k = true

/-- A command answers, on a state, a next state that has a property. -/
def answers (c : Instr) (s : State) (P : State → Prop) : Prop := ∃ t, exec c s = .next t ∧ P t

/-- A control-space access of a path at an address acts (R12, R13, R35): the path is up, has or can take an entry, and reaches the
address. -/
def State.reached (s : State) (p : Path) (a : Nat) : Prop := s.pathUp p = true ∧ s.pathOk p = true ∧ s.reaches p a = true

/-- A word of the control space whose write is a command: beyond its fields it starts something (R7, code WO), or the block checks
it first (R53, R64, R102, R364, R446, R456, R509, R536). -/
def commandWord (a : Nat) : Bool :=
  let off := a % 0x10000
  match a / 0x10000 with
  | 0x01 => decide (off = 0)
  | 0x02 => decide (off = 0x40 ∨ off = 0x48 ∨ off = 0x4C ∨ (0x1000 ≤ off ∧ off < 0x2000))
  | 0x03 => decide (off = 4 ∨ (0x40 ≤ off ∧ off < 0x80))
  | 0x05 => decide (off = 0x1C ∨ off = 0x20 ∨ off = 0x24 ∨ off = 0x30)
  | 0x04 => decide ((0x1000 ≤ off ∧ off < 0x2000 ∧ (off % 0x40 = 0 ∨ off % 0x40 = 0xC ∨ off % 0x40 = 0x14))
      ∨ (0x2000 ≤ off ∧ off < 0x3000 ∧ off % 0x10 = 8) ∨ (0x9000 ≤ off ∧ off < 0xA000 ∧ off % 0x40 = 0))
  | 0x06 => decide (off = 0x8 ∨ off = 0x38 ∨ off = 0x48)
  | 0x07 | 0x0A => decide (off = 4)
  | 0x0B => decide (0x1000 ≤ off ∧ off < 0x2000 ∧ off % 0x40 < 0x34)
  | 0x0C => LNK_P_REFORM.at a
  | 0x0D => OPT_LN_TARGET_LINE.at a || OPT_MATRIX_A.at a
  | 0x0E => decide (off = 0x10 ∨ off = 0x20) || TOP_RT_PORT.at a
  | 0x0F => true
  | 0x10 => decide (off = 0 ∨ off = 0x48)
  | _ => false

/-- An address of the control space that holds nothing (R10, R33, R102): no register field and no window. -/
def unassigned (a : Nat) : Bool :=
  let off := a % 0x10000
  decide (a % 4 ≠ 0) ||
  (if 0x1000000 ≤ a then
    decide (off = 0x4C ∨ off = 0x5C ∨ off = 0x74 ∨ (0x7C ≤ off ∧ off < 0x200) ∨ 0x400 ≤ off)
  else !(blockFields (a / 0x10000)).any (fun f => f.at a)
    && !(decide ((a / 0x10000 = 2 ∨ a / 0x10000 = 5) ∧ 0x1000 ≤ off ∧ off < 0x2000)))

/-- What the access code of a field makes of its value when `v` is written over it (R7): `done` says that start has ended. -/
def Fld.written (f : Fld) (done : Bool) (old v : Nat) : Nat :=
  let put := f.lim.store old v % (f.top + 1)
  match f.acc with
  | .rw => put
  | .rwl => if done then old else put
  | .w1c => old &&& (f.top - v)
  | .w1s => old ||| v
  | .ro | .wo => old

/-- The word at an address after a write of a value: every field of it follows its access code. -/
def State.fieldsWritten (s t : State) (a v : Nat) : Prop :=
  ∀ f ∈ blockFields (a / 0x10000), f.at a = true → f.get (t.word a) = f.written (!s.starting) (f.get (s.word a)) (f.get v)

/-- Two states hold the same control-space words, but for those at some addresses. -/
def State.wordsBut (s t : State) (as : List Nat) : Prop := ∀ a, a ∉ as → t.word a = s.word a

/-- One dance card record went to the queue of its plane, unless that queue was full (R454, R455); the other planes' queues are
unchanged. -/
def State.recorded (s t : State) (pl : Plane) (type kind unit ctx : Nat) (items : List Nat) : Prop :=
  ∀ p, t.dcd.queue p = if p = pl ∧ (s.dcd.queue p).length < 64
    then s.dcd.queue p ++ [⟨0, 0, type, pl, kind, unit, ctx, s.stepOf ctx, items.map (· % 2 ^ 64)⟩] else s.dcd.queue p

/-- A transfer of some bytes at a context address runs in one part (R269, R270): the address leads, with a right, to a tier of
this module that holds all of it in the same span. `r` is the answer of the translation. -/
def onePart (r : Status × FabAddr × Nat × State) (n : Nat) : Prop :=
  r.1 = .done ∧ r.2.1.module = r.2.2.2.self ∧ r.2.1.space ≤ 1 ∧ 0 < n ∧ n ≤ r.2.2.1

/-- The bytes of tiers A and B after some bytes are stored at an offset of one of them; every other byte keeps its value. -/
def State.storesAt (s t : State) (tier off : Nat) (bytes : List Byte) : Prop :=
  ∀ k < 2, ∀ i, (t.tier k).get 0 i =
    if k = tier ∧ off ≤ i ∧ i < off + bytes.length then bytes.getD (i - off) 0 else (s.tier k).get 0 i

/-- No set stalls at a mailbox channel. -/
def State.nobodyStalls (s : State) (c : Nat) : Prop := ∀ e ∈ s.sets, e.2.stall.map Stall.channel ≠ some c

/-! ### Sets -/

/-- Two states that differ at most in one set. -/
def State.onlySet (s t : State) (n : Nat) : Prop := t = { s with sets := t.sets } ∧ ∀ m, m ≠ n → t.setSt m = s.setSt m

/-- A set can issue, now, an instruction that names some scalar registers (R72, R103, R108): its core can issue, the
instruction can be fetched, and no request it must wait for is outstanding. -/
def State.issues (s : State) (n : Nat) (uses : List Nat) : Prop :=
  s.canIssue n = true ∧ s.codeOk (dieOf n) (s.setSt n).slot (s.setSt n).pc.toNat = true ∧ s.blocked n uses = false

/-- What an instruction that writes one scalar register does to its set: that register takes a value, s0 discards it, and the PC
moves; nothing else changes. -/
def SetState.onlyReg (x y : SetState) (rd : Nat) (v pc : BitVec 64) : Prop :=
  y = { x with regs := y.regs, pc := pc } ∧ ∀ r, y.reg r = if r = rd ∧ rd ≠ 0 then v else x.reg r

/-! ### The vector engine -/

/-- Element `i` of a vector register (R173): a lane, or under a packed type a half of one. -/
def SetState.elemAt (x : SetState) (r : Nat) (wide : Bool) (i : Nat) : Nat :=
  if wide then (x.lane r i).toNat else (x.lane r (i / 2)).toNat / 2 ^ (16 * (i % 2)) % 2 ^ 16

/-- Whether element `i` is active (R119). -/
def SetState.activeAt (x : SetState) (pm : PredMode) (wide : Bool) (i : Nat) : Bool :=
  match pm with
  | none => true
  | some (p, _) => (x.pred p.val).getLsbD (if wide then 2 * i else i)

/-- Element `i` of the VB operand: of a vector register, or a scalar register broadcast (R119). -/
def SetState.srcAt (x : SetState) (vb : Nat) (bs wide : Bool) (i : Nat) : Nat :=
  if bs then (x.reg vb).toNat % (if wide then 2 ^ 32 else 2 ^ 16) else x.elemAt vb wide i

/-- A set after a vector instruction that is neither a branch nor a fault: the body that runs moves on, else the PC does. -/
def SetState.advance (x : SetState) : SetState :=
  match x.fused with
  | some fu => if fu.busy then { x with fused := some fu.step } else x.next
  | none => x.next

/-- A vector instruction of a word acts now (R175, R188): from the stream, with an assigned encoding and no fused sequence in
progress, or as the next instruction of the body that runs. -/
def State.vacts (s : State) (n : Nat) (uses : List Nat) (word : BitVec 64) : Prop :=
  let x := s.setSt n
  s.throttled n = false ∧ legalWord word = true ∧
  match x.fused with
  | some fu =>
    if fu.busy then s.unitRuns n = true ∧ x.live = true ∧ fu.body[fu.pos]? = some word ∧ s.blocked n uses = false
    else (x.tiles.any fun t => decide (t.tile.id = fu.producer)) = false ∧ s.issues n uses
  | none => s.issues n uses

/-- What a vector instruction does to its set: the active elements of VD take their results, the others keep their values or
become zero (R119), and nothing else changes but that the set moves on. -/
def SetState.vecResult (x y : SetState) (vd : Nat) (pm : PredMode) (wide : Bool) (res : Nat → Nat) : Prop :=
  y = { x.advance with v := y.v } ∧ (∀ r i, r ≠ vd → i < 64 → y.lane r i = x.lane r i) ∧
  ∀ i < (if wide then 64 else 128), y.elemAt vd wide i =
    if x.activeAt pm wide i then res i else if zeroing pm then 0 else x.elemAt vd wide i

/-- The same of an instruction whose destination is a predicate: both bits of a lane of a 32-bit type (R119, R179). -/
def SetState.predResult (x y : SetState) (pd : Nat) (pm : PredMode) (wide : Bool) (res : Nat → Bool) : Prop :=
  y = { x.advance with p := y.p } ∧ (∀ r, r ≠ pd → y.pred r = x.pred r) ∧
  ∀ i < 128, let e := if wide then i / 2 else i
    (y.pred pd).getLsbD i = if x.activeAt pm wide e then res e else if zeroing pm then false else (x.pred pd).getLsbD i

end Sys2Proof.Machine
end

