-- ==== Sys2Proof/Certificates/Slice0/Obligations.lean ====
section
/-! DEFINITION. The statements for the provers, family by family of commands. Each docstring is the statement of OBLIGATIONS.json;
what they share is defined in Safety.lean. -/

open Sys2Proof Sys2Proof.Machine

/-- A step takes the command at the front of the queue and runs it on the state with the queue's rest. For every command and every
state, step of the state with the command at the front of its queue is exec of the command on the state with the rest of the
queue. Rests on the model's choices of log entry 1. -/
def Obligations.StepRunsTheFrontCommand : Prop :=
  ∀ (c : Instr) (rest : List Instr) (s : State), step { s with pending := c :: rest } = exec c { s with pending := rest }

/-- On an empty queue one CALLCLK cycle passes: CALLER_CYCLES rises by 1 while the Caller has power, and nothing changes without.
The model's choice (log entry 1): with no command waiting, a step lets one CALLCLK cycle of the Caller pass. With the Caller
powered, no dance card record queued and no drop to report, CALLER_CYCLES rises by 1, modulo 2^64, and nothing else changes;
without power nothing changes. A step on an empty queue always answers a next state. Rests on the model's choices of log entry
1. -/
def Obligations.EmptyQueuePassesACallerCycle : Prop :=
  ∀ s : State, s.pending = [] → s.steps ∧
    (s.callerOn = false → step s = .next s) ∧
    (s.callerOn = true → s.dcd.queueM = [] → s.dcd.queueC = [] → s.dcd.queueD = [] → s.dcd.dropPending = 0 →
      step s = .next { s with callerCycles := (s.callerCycles + 1) % 2 ^ 64 })

/-- After reset every register field reads the Default of its table, but STAGE and the values the log names. In the state after
reset every field of every register table reads its Default, but for the words of CFG.STAGE (1: the stage that runs), of slot
0's STATE (2: the Caller's context), and of MEM.SPARE_LEFT (log entry on tier C at manufacture). The queue of commands is
empty, the module is starting, no routine set is bound, no byte of a tier is listed, nothing was driven outwards. Rests on the
model's choices of log entries 7, 11. -/
def Obligations.ResetRegistersReadTheirDefaults : Prop :=
  (∀ a, a ≠ 0x20000 → a ≠ 0x70100 → a ≠ 0x90218 → ∀ f ∈ blockFields (a / 0x10000), f.at a = true →
    f.get (State.reset.word a) = f.dflt) ∧
  State.reset.get CFG_STAGE = 1 ∧ State.reset.getF CTX_S_STATE 0 0 = 2 ∧ State.reset.get MEM_SPARE_LEFT = 100 ∧
  State.reset.pending = [] ∧ State.reset.starting = true ∧ State.reset.out = [] ∧ State.reset.mem.a = [] ∧ State.reset.mem.b = [] ∧
  ∀ n, State.reset.setSt n = SetState.init

/-- The state after reset meets the invariants: canonical register words and tiers, and fuses as a module can have them. In the
state after reset the register words and the bytes of tiers A and B are in canonical form, and the fuses hold one hash, one
revocation bit and one test-privilege bit for each of the four customer slots (the unset fuses are a choice of the model,
named in the log). Rests on the model's choices of log entries 6, 7, 8. -/
def Obligations.ResetMeetsTheInvariants : Prop :=
  State.reset.regsWf = true ∧ State.reset.memWf = true ∧ State.reset.fusesWf = true

/-- Every step keeps the canonical form of the register words and of the bytes of tiers A and B. For every state whose register
words and whose tiers A and B are in canonical form (addresses strictly rising, no listed word at its Default, no listed byte
at zero), every next state a step answers, whatever the command at the front of the queue, is in that form too. Equal contents
are then equal data. -/
def Obligations.StepKeepsTheCanonicalForm : Prop :=
  ∀ s t : State, s.regsWf = true → s.memWf = true → step s = .next t → t.regsWf = true ∧ t.memWf = true

/-- No step clears a revocation fuse, and none changes a fused key or a test-privilege bit; the fuses stay well formed. For every
state and every next state a step answers: every revocation bit that was set is set, the fused key hashes and the test-
privilege bits are as before, and fuses that hold one hash and one bit for each of the four customer slots still do. Power
loss, resets and recovery hold are among the commands. -/
def Obligations.StepOnlyAddsRevocations : Prop :=
  ∀ s t : State, step s = .next t → maskIn s.revoked t.revoked ∧ t.keys = s.keys ∧ t.testPriv = s.testPriv ∧
    (s.fusesWf = true → t.fusesWf = true)

/-- No command changes the queue of waiting commands: a step consumes exactly the one at its front. For every state and every
command, a next state that exec answers has the queue it was given, so that a step of a state with a command at the front
leaves the rest of the queue, in order. Rests on the model's choices of log entry 1. -/
def Obligations.CommandsLeaveTheQueue : Prop :=
  (∀ (c : Instr) (s t : State), exec c s = .next t → t.pending = s.pending) ∧
  ∀ (c : Instr) (rest : List Instr) (s t : State), step { s with pending := c :: rest } = .next t → t.pending = rest

/-- SALU: each operation writes its result to RD and advances the PC by 8, and changes nothing else. For each of the 21 SALU
operations, issued by a set that can issue it, exec answers the state in which RD of that set holds the result that the table
of R109 gives for RA, RB (and RC in SEL), the PC is 8 further, every other scalar register and everything else of the set is
unchanged, and every other set and everything else of the module is unchanged. With RD = s0 the result is discarded. -/
def Obligations.ScalarRegisterOperations : Prop :=
  ∀ (s : State) (set : Fin 768) (rd ra rb rc : Fin 32),
    let x := s.setSt set.val
    let a := x.reg ra.val
    let b := x.reg rb.val
    (∀ e ∈ ([(.iAdd set rd ra rb, a + b), (.iSub set rd ra rb, a - b), (.iAnd set rd ra rb, a &&& b), (.iOr set rd ra rb, a ||| b),
        (.iXor set rd ra rb, a ^^^ b), (.iSll set rd ra rb, a <<< (b.toNat % 64)), (.iSrl set rd ra rb, a >>> (b.toNat % 64)),
        (.iSra set rd ra rb, BitVec.ofInt 64 (a.toInt / 2 ^ (b.toNat % 64))),
        (.iMul set rd ra rb, BitVec.ofNat 64 (a.toNat * b.toNat)),
        (.iMulhu set rd ra rb, BitVec.ofNat 64 (a.toNat * b.toNat / 2 ^ 64)),
        (.iMulhs set rd ra rb, BitVec.ofInt 64 (a.toInt * b.toInt / 2 ^ 64)),
        (.iDivu set rd ra rb, if b = 0 then 0xFFFFFFFFFFFFFFFF#64 else BitVec.ofNat 64 (a.toNat / b.toNat)),
        (.iRemu set rd ra rb, if b = 0 then a else BitVec.ofNat 64 (a.toNat % b.toNat)),
        (.iMin set rd ra rb, BitVec.ofInt 64 (min a.toInt b.toInt)), (.iMax set rd ra rb, BitVec.ofInt 64 (max a.toInt b.toInt)),
        (.iMinu set rd ra rb, BitVec.ofNat 64 (min a.toNat b.toNat)), (.iMaxu set rd ra rb, BitVec.ofNat 64 (max a.toNat b.toNat)),
        (.iSlt set rd ra rb, if a.toInt < b.toInt then 1 else 0), (.iSltu set rd ra rb, if a.toNat < b.toNat then 1 else 0),
        (.iSeq set rd ra rb, if a = b then 1 else 0)] : List (Instr × BitVec 64)),
      s.issues set.val [rd.val, ra.val, rb.val] →
        answers e.1 s fun t => s.onlySet t set.val ∧ x.onlyReg (t.setSt set.val) rd.val e.2 (x.pc + 8)) ∧
    (s.issues set.val [rd.val, ra.val, rb.val, rc.val] →
      answers (.iSel set rd ra rb rc) s fun t => s.onlySet t set.val ∧
        x.onlyReg (t.setSt set.val) rd.val (if x.reg rc.val ≠ 0 then a else b) (x.pc + 8))

/-- SALUI, MOVI and MOVHI: each writes its result to RD and advances the PC by 8, and changes nothing else. For each SALUI
operation, issued by a set that can issue it, exec answers the state in which RD holds the result of the SALU operation for RA
and IMM32 sign-extended; a shift with IMM32[31:6] not zero instead stops the set with ILLEGAL. MOVI writes IMM48 sign-
extended; MOVHI writes RD[63:48] and leaves RD[47:0]. The PC is 8 further, and nothing else of the set or of the module
changes; with RD = s0 the result is discarded. -/
def Obligations.ScalarImmediateOperations : Prop :=
  ∀ (s : State) (set : Fin 768) (rd ra : Fin 32) (imm : BitVec 32) (imm48 : BitVec 48) (imm16 : BitVec 16),
    let x := s.setSt set.val
    let a := x.reg ra.val
    let b := imm.signExtend 64
    (∀ e ∈ ([(.iAddi set rd ra imm, a + b), (.iAndi set rd ra imm, a &&& b), (.iOri set rd ra imm, a ||| b),
        (.iXori set rd ra imm, a ^^^ b), (.iMuli set rd ra imm, BitVec.ofInt 64 (a.toInt * imm.toInt)),
        (.iMini set rd ra imm, BitVec.ofInt 64 (min a.toInt imm.toInt)),
        (.iMaxi set rd ra imm, BitVec.ofInt 64 (max a.toInt imm.toInt)),
        (.iSlti set rd ra imm, if a.toInt < imm.toInt then 1 else 0),
        (.iSltui set rd ra imm, if a.toNat < b.toNat then 1 else 0),
        (.iSeqi set rd ra imm, if a = b then 1 else 0)] : List (Instr × BitVec 64)),
      s.issues set.val [rd.val, ra.val] →
        answers e.1 s fun t => s.onlySet t set.val ∧ x.onlyReg (t.setSt set.val) rd.val e.2 (x.pc + 8)) ∧
    (∀ e ∈ ([(.iSlli set rd ra imm, a <<< imm.toNat), (.iSrli set rd ra imm, a >>> imm.toNat),
        (.iSrai set rd ra imm, BitVec.ofInt 64 (a.toInt / 2 ^ imm.toNat))] : List (Instr × BitVec 64)),
      (imm.toNat < 64 → s.issues set.val [rd.val, ra.val] →
        answers e.1 s fun t => s.onlySet t set.val ∧ x.onlyReg (t.setSt set.val) rd.val e.2 (x.pc + 8)) ∧
      (64 ≤ imm.toNat → s.issues set.val [] → exec e.1 s = .next (s.illegal set.val))) ∧
    (∀ e ∈ ([(.iMovi set rd imm48, imm48.signExtend 64),
        (.iMovhi set rd imm16, BitVec.ofNat 64 (imm16.toNat * 2 ^ 48 + (x.reg rd.val).toNat % 2 ^ 48))] : List (Instr × BitVec 64)),
      s.issues set.val [rd.val] →
        answers e.1 s fun t => s.onlySet t set.val ∧ x.onlyReg (t.setSt set.val) rd.val e.2 (x.pc + 8))

/-- SREAD: RD receives the selected value of the set, its context or the module. For each of the ten SREAD operations, issued by a
set that can issue it, exec answers the state in which RD holds the value R117 names (routine set, crew identity, index and
size, the bound context's number, its step number and job seed, the module ID, the arrays in service, and the set-clock cycles
since the binding, at 8 for each CALLCLK cycle, log entry 47), the PC is 8 further, and nothing else of the set or of the
module changes. Rests on the model's choices of log entry 47. -/
def Obligations.StatusReads : Prop :=
  ∀ (s : State) (set : Fin 768) (rd : Fin 32),
    let x := s.setSt set.val
    s.issues set.val [rd.val] →
    ∀ e ∈ ([(.iRset set rd, x.routine), (.iRcrew set rd, x.crewId), (.iRcidx set rd, x.crewIndex), (.iRcsize set rd, x.crewSize),
        (.iRctx set rd, s.getF CTX_S_CONTEXT x.slot 0), (.iRstep set rd, s.getF CTX_S_STEP_NO x.slot 0),
        (.iRseed set rd, leAt (s.slot x.slot).record 16 8), (.iRmod set rd, s.get FAB_MODULE_ID),
        (.iRarr set rd, (s.setUnit set.val).arrOk), (.iRcyc set rd, 8 * (s.callerCycles - x.boundAt))] : List (Instr × Nat)),
      answers e.1 s fun t => s.onlySet t set.val ∧ x.onlyReg (t.setSt set.val) rd.val (BitVec.ofNat 64 e.2) (x.pc + 8)

/-- BRANCH and JUMP: the PC goes where the condition and the target say, and JUMP writes the return address to RD. A branch issued
by a set that can issue it sets the PC to its address plus IMM32 x 8, sign-extended, when its condition on RA and RB holds,
and to its address plus 8 when not; no register changes. JAL writes PC + 8 to RD and goes to PC + IMM32 x 8; JALR writes PC +
8 to RD and goes to RA + IMM32, or, when that is not 8-byte aligned, stops the set with ACCESS. Nothing else of the set or of
the module changes. -/
def Obligations.BranchesAndJumps : Prop :=
  ∀ (s : State) (set : Fin 768) (rd ra rb : Fin 32) (imm : BitVec 32),
    let x := s.setSt set.val
    let a := x.reg ra.val
    let b := x.reg rb.val
    let away := x.pc + BitVec.ofInt 64 (imm.toInt * 8)
    (∀ e ∈ ([(.iBeq set ra rb imm, decide (a = b)), (.iBne set ra rb imm, decide (a ≠ b)),
        (.iBlt set ra rb imm, decide (a.toInt < b.toInt)), (.iBge set ra rb imm, decide (b.toInt ≤ a.toInt)),
        (.iBltu set ra rb imm, decide (a.toNat < b.toNat)),
        (.iBgeu set ra rb imm, decide (b.toNat ≤ a.toNat))] : List (Instr × Bool)),
      s.issues set.val [ra.val, rb.val] →
        answers e.1 s fun t => s.onlySet t set.val ∧
          t.setSt set.val = { x with pc := if e.2 then away else x.pc + 8 }) ∧
    (s.issues set.val [rd.val] → answers (.iJal set rd imm) s fun t => s.onlySet t set.val ∧
      x.onlyReg (t.setSt set.val) rd.val (x.pc + 8) away) ∧
    (s.issues set.val [rd.val, ra.val] →
      let to_ := a + imm.signExtend 64
      (to_.toNat % 8 = 0 → answers (.iJalr set rd ra imm) s fun t => s.onlySet t set.val ∧
        x.onlyReg (t.setSt set.val) rd.val (x.pc + 8) to_) ∧
      (to_.toNat % 8 ≠ 0 → exec (.iJalr set rd ra imm) s = .next (s.fault set.val .access 1)))

/-- LOAD: RD receives the bytes at RA + IMM32 in register form, from set memory, this module's tiers, or a remote module later.
For each of the seven loads, issued by a set that can issue it, at effective address RA + IMM32 (sign-extended, modulo 2^64).
Aligned and in set memory (own or a crewmate's) with no double-bit error among its words: RD receives the size bytes there,
least significant first, extended as the mnemonic says; set memory bytes are unchanged, and nothing but the sets concerned
changes. Aligned and leading to a tier of this module that serves the read with DONE: RD receives the bytes of that tier; no
byte of tiers A and B changes. In both the PC is 8 further and no other register changes. Leading to another module where the
request can be sent: the request, numbered for VC1, becomes the last one outstanding with RD as its waiter, the PC is 8
further and no register changes yet. Unaligned: the set stops with ACCESS. Rests on the model's choices of log entry 42. -/
def Obligations.LoadsWriteTheBytesRead : Prop :=
  ∀ (s : State) (set : Fin 768) (rd ra : Fin 32) (imm : BitVec 32) (e : Instr × Nat × Bool),
    e ∈ ([(.iLd8u set rd ra imm, 1, false), (.iLd16u set rd ra imm, 2, false), (.iLd32u set rd ra imm, 4, false),
      (.iLd64 set rd ra imm, 8, false), (.iLd8s set rd ra imm, 1, true), (.iLd16s set rd ra imm, 2, true),
      (.iLd32s set rd ra imm, 4, true)] : List (Instr × Nat × Bool)) →
    s.issues set.val [rd.val, ra.val] →
    let x := s.setSt set.val
    let size := e.2.1
    let ea := (x.reg ra.val + imm.signExtend 64).toNat
    let value := fun bs : List Byte =>
      if e.2.2 then BitVec.ofInt 64 (signed (8 * size) (ofBytes bs)) else BitVec.ofNat 64 (ofBytes bs)
    let tgt := s.target set.val ea .r
    (ea % size = 0 → ∀ m a, x.place set.val ea = .sm m a → a + size ≤ setMemBytes →
      (∀ w ∈ wordsOf a size, (s.setSt m).err.get 0 w ≠ 2) →
      answers e.1 s fun t => t = { s with sets := t.sets } ∧ (∀ k, k ≠ set.val → k ≠ m → t.setSt k = s.setSt k) ∧
        (∀ k, (t.setSt k).mem = (s.setSt k).mem) ∧ (t.setSt set.val).pc = x.pc + 8 ∧
        ∀ r, (t.setSt set.val).reg r =
          if r = rd.val ∧ r ≠ 0 then value ((s.setSt m).mem.read 0 a size) else x.reg r) ∧
    (ea % size = 0 → ∀ tier off, tgt.1 = .here tier off →
      (tgt.2.2.serveRead tgt.2.2.self (tgt.2.2.ctxOf (tgt.2.2.setSt set.val).slot) tier 0 off size).1 = .done →
      answers e.1 s fun t => t.mem.a = s.mem.a ∧ t.mem.b = s.mem.b ∧ (t.setSt set.val).pc = x.pc + 8 ∧
        ∀ r, (t.setSt set.val).reg r = if r = rd.val ∧ r ≠ 0 then value ((s.tier tier).read 0 off size) else x.reg r) ∧
    (ea % size = 0 → ∀ fa, tgt.1 = .away fa →
      ∀ s2, tgt.2.2.remote set.val 1 ea fa (.load size) (.reg set.val rd.val size e.2.2 x.pc.toNat) = (.sent, s2) →
      answers e.1 s fun t => (t.setSt set.val) = x.next ∧ ∃ q, t.fab.sent = s.fab.sent ++ [q] ∧ q.dest = fa.module ∧
        q.vc = 1 ∧ q.op = .load size ∧ q.waiter = .reg set.val rd.val size e.2.2 x.pc.toNat ∧
        q.seq = s.fab.txSeq.get 0 (8 * fa.module + 1)) ∧
    (ea % size ≠ 0 → exec e.1 s = .next (s.fault set.val .access 1))

/-- STORE: the low bytes of RB go to RA + IMM32, and no other byte of set memory or of the tiers changes. For each of the four
stores, issued by a set that can issue it, at effective address RA + IMM32. Aligned and in set memory (own or a crewmate's),
where the word is fully covered or has no double-bit error: the size bytes from the address on read as the low bytes of RB,
least significant first, and every other byte of every set memory reads as before. Aligned and leading to a tier of this
module that serves the write with DONE: the same of the bytes of tiers A and B. In both the PC is 8 further and no register of
the set changes. Leading to another module where the request can be sent: it is posted, with those bytes, and becomes the last
one outstanding. Unaligned: the set stops with ACCESS. Rests on the model's choices of log entry 42. -/
def Obligations.StoresWriteTheLowBytes : Prop :=
  ∀ (s : State) (set : Fin 768) (ra rb : Fin 32) (imm : BitVec 32) (e : Instr × Nat),
    e ∈ ([(.iSt8 set ra rb imm, 1), (.iSt16 set ra rb imm, 2), (.iSt32 set ra rb imm, 4), (.iSt64 set ra rb imm, 8)] :
      List (Instr × Nat)) →
    s.issues set.val [ra.val, rb.val] →
    let x := s.setSt set.val
    let size := e.2
    let ea := (x.reg ra.val + imm.signExtend 64).toNat
    let byteAt := fun i => BitVec.ofNat 8 ((x.reg rb.val).toNat / 256 ^ i)
    let tgt := s.target set.val ea .w
    (ea % size = 0 → ∀ m a, x.place set.val ea = .sm m a → a + size ≤ setMemBytes →
      (size = 8 ∨ (s.setSt m).err.get 0 (a / 8) ≤ 1) →
      answers e.1 s fun t => t = { s with sets := t.sets } ∧ (∀ k, k ≠ set.val → k ≠ m → t.setSt k = s.setSt k) ∧
        (∀ k i, (t.setSt k).mem.get 0 i =
          if k = m ∧ a ≤ i ∧ i < a + size then byteAt (i - a) else (s.setSt k).mem.get 0 i) ∧
        (∀ k, (t.setSt k).regs = (s.setSt k).regs) ∧ (t.setSt set.val).pc = x.pc + 8) ∧
    (ea % size = 0 → ∀ tier off, tgt.1 = .here tier off →
      (tgt.2.2.serveWrite tgt.2.2.self (tgt.2.2.ctxOf (tgt.2.2.setSt set.val).slot) tier 1 off
        (toBytes size (x.reg rb.val).toNat)).1 = .done →
      answers e.1 s fun t =>
        (∀ k < 2, ∀ i, (t.tier k).get 0 i =
          if k = tier ∧ off ≤ i ∧ i < off + size then byteAt (i - off) else (s.tier k).get 0 i) ∧
        t.setSt set.val = x.next) ∧
    (ea % size = 0 → ∀ fa, tgt.1 = .away fa →
      ∀ s2, tgt.2.2.remote set.val 1 ea fa (.store (toBytes size (x.reg rb.val).toNat)) (.posted set.val) = (.sent, s2) →
      answers e.1 s fun t => t.setSt set.val = x.next ∧ ∃ q, t.fab.sent = s.fab.sent ++ [q] ∧ q.dest = fa.module ∧
        q.vc = 1 ∧ q.op = .store (toBytes size (x.reg rb.val).toNat) ∧ q.waiter = .posted set.val) ∧
    (ea % size ≠ 0 → exec e.1 s = .next (s.fault set.val .access 1))

/-- AMO: the word takes the value the atomic gives it, RD receives the word as it stood, and no other byte changes. For each of
the twelve atomics, issued by a set that can issue it, whose address in RA leads to tier A of this module and is served there
with DONE: the aligned word of the operation's size holds the new value that the table of R248 gives for the old word, RB and
(for ACAS) RC; every other byte of tier A and every byte of tier B is unchanged; RD receives the old word, zero-extended
(nothing with RD = s0); the PC is 8 further. An atomic on set memory stops the set with ACCESS. One that leads to tier A of
another module, aligned, where the request can be sent, becomes the last one outstanding. Rests on the model's choices of log
entry 42. -/
def Obligations.AtomicsUpdateTheWord : Prop :=
  ∀ (s : State) (set : Fin 768) (rd ra rb rc : Fin 32) (e : Instr × Nat × Fin 32 × (Nat → BitVec 64 → BitVec 64 → Nat)),
    let x := s.setSt set.val
    let low := fun b : BitVec 64 => b.toNat % 2 ^ 32
    e ∈ ([(.iAadd64 set rd ra rb, 0, 0, fun old b _ => (old + b.toNat) % 2 ^ 64),
      (.iAadd32 set rd ra rb, 1, 0, fun old b _ => (old + low b) % 2 ^ 32),
      (.iAand set rd ra rb, 2, 0, fun old b _ => old &&& b.toNat), (.iAor set rd ra rb, 3, 0, fun old b _ => old ||| b.toNat),
      (.iAxor set rd ra rb, 4, 0, fun old b _ => old ^^^ b.toNat),
      (.iAmin set rd ra rb, 5, 0, fun old b _ => if (BitVec.ofNat 64 old).toInt ≤ b.toInt then old else b.toNat),
      (.iAmax set rd ra rb, 6, 0, fun old b _ => if (BitVec.ofNat 64 old).toInt ≤ b.toInt then b.toNat else old),
      (.iAminu set rd ra rb, 7, 0, fun old b _ => min old b.toNat), (.iAmaxu set rd ra rb, 8, 0, fun old b _ => max old b.toNat),
      (.iAswap set rd ra rb, 9, 0, fun _ b _ => b.toNat),
      (.iAcas set rd ra rb rc, 10, rc, fun old b c => if old = c.toNat then b.toNat else old),
      (.iAfadd32 set rd ra rb, 11, 0, fun old b _ => add32 old (low b))] :
      List (Instr × Nat × Fin 32 × (Nat → BitVec 64 → BitVec 64 → Nat))) →
    s.issues set.val [rd.val, ra.val, rb.val, e.2.2.1.val] →
    let ea := (x.reg ra.val).toNat
    let size := if e.2.1 = 1 ∨ e.2.1 = 11 then 4 else 8
    let tgt := s.target set.val ea .a
    let s1 := tgt.2.2
    (∀ off, tgt.1 = .here 0 off →
      (s1.serveAmo s1.self (s1.ctxOf x.slot) 0 (if rd.val = 0 then 1 else 0) e.2.1 off (x.reg rb.val).toNat
        (x.reg e.2.2.1.val).toNat).1 = .done →
      let old := ofBytes (s.mem.a.read 0 off size)
      let new := e.2.2.2 old (x.reg rb.val) (x.reg e.2.2.1.val)
      answers e.1 s fun t => off % size = 0 ∧ t.mem.b = s.mem.b ∧
        (∀ i, t.mem.a.get 0 i =
          if off ≤ i ∧ i < off + size then BitVec.ofNat 8 (new / 256 ^ (i - off)) else s.mem.a.get 0 i) ∧
        x.onlyReg (t.setSt set.val) rd.val (BitVec.ofNat 64 old) (x.pc + 8)) ∧
    (∀ m a, x.place set.val ea = .sm m a → exec e.1 s = .next (s.fault set.val .access 1)) ∧
    (∀ fa, tgt.1 = .away fa → fa.space = 0 → ea % size = 0 →
      let w : Waiter := if rd.val = 0 then .posted set.val else .reg set.val rd.val size false x.pc.toNat
      let op : ReqOp := .amo e.2.1 (x.reg rb.val).toNat (x.reg e.2.2.1.val).toNat
      ∀ s2, s1.remote set.val 1 ea fa op w = (.sent, s2) →
      answers e.1 s fun t => t.setSt set.val = x.next ∧ ∃ q, t.fab.sent = s.fab.sent ++ [q] ∧ q.dest = fa.module ∧
        q.vc = 1 ∧ q.op = op ∧ q.waiter = w)

/-- VFP: every active element of VD takes the once-rounded result of its operation; the others keep their value or become zero.
For each of the sixteen MAJOR 0x10 operations that acts (from the stream or as the next instruction of a running body), exec
answers the state in which every active element of VD holds the result of R176 and R177 on the elements of VA, VB (a vector
register, or a scalar register broadcast) and VC, inactive elements keep their value under PZ 0 and become zero under PZ 1,
the set moves on, and nothing else of the set or the module changes. Arithmetic results are exact values rounded once to
nearest-even in TYPE; VMOV, VABS and VNEG act on bits only. -/
def Obligations.VectorFloatingPoint : Prop :=
  ∀ (s : State) (set : Fin 768),
    let x := s.setSt set.val
    (∀ (a : V2Args), let ty := a.ty.toNat
      let w := isWide ty
      let v := fun p => (typeFmt ty).decode p
      ∀ e ∈ ([(.vAdd set a, 0, fun p q => (typeFmt ty).round ((v p).add (v q))),
          (.vSub set a, 1, fun p q => (typeFmt ty).round ((v p).add (v q).neg)),
          (.vMul set a, 2, fun p q => (typeFmt ty).round ((v p).mul (v q))),
          (.vMin set a, 6, fun p q => (typeFmt ty).round ((v p).minimum (v q))),
          (.vMax set a, 7, fun p q => (typeFmt ty).round ((v p).maximum (v q))),
          (.vDiv set a, 0xD, fun p q => (typeFmt ty).round ((v p).div (v q))),
          (.vScale set a, 0xF, fun p q => (typeFmt ty).round ((v p).scale (signed (typeBits ty) q)))] :
          List (Instr × Nat × (Nat → Nat → Nat))),
        s.vacts set.val (if a.bs then [a.vb.val] else []) (encV 0x10 e.2.1 a.vd.val a.va.val a.vb.val 0 a.bs a.pm a.ty) →
        answers e.1 s fun t => s.onlySet t set.val ∧ x.vecResult (t.setSt set.val) a.vd.val a.pm w
          fun i => e.2.2 (x.elemAt a.va.val w i) (x.srcAt a.vb.val a.bs w i)) ∧
    (∀ (a : V3Args), let ty := a.ty.toNat
      let w := isWide ty
      let v := fun p => (typeFmt ty).decode p
      ∀ e ∈ ([(.vFma set a, 3, fun p q r => (typeFmt ty).round (((v p).mul (v q)).add (v r))),
          (.vFms set a, 4, fun p q r => (typeFmt ty).round (((v p).mul (v q)).add (v r).neg)),
          (.vFnma set a, 5, fun p q r => (typeFmt ty).round (((v p).neg.mul (v q)).add (v r)))] :
          List (Instr × Nat × (Nat → Nat → Nat → Nat))),
        s.vacts set.val (if a.bs then [a.vb.val] else [])
          (encV 0x10 e.2.1 a.vd.val a.va.val a.vb.val a.vc.val a.bs a.pm a.ty) →
        answers e.1 s fun t => s.onlySet t set.val ∧ x.vecResult (t.setSt set.val) a.vd.val a.pm w
          fun i => e.2.2 (x.elemAt a.va.val w i) (x.srcAt a.vb.val a.bs w i) (x.elemAt a.vc.val w i)) ∧
    (∀ (a : V1Args), let ty := a.ty.toNat
      let w := isWide ty
      let v := fun p => (typeFmt ty).decode p
      ∀ e ∈ ([(.vAbs set a, 8, fun p => p % 2 ^ (typeBits ty - 1)),
          (.vNeg set a, 9, fun p => (p + 2 ^ (typeBits ty - 1)) % 2 ^ typeBits ty),
          (.vRcp set a, 0xA, fun p => (typeFmt ty).round (FP.div (.fin false 1 0) (v p))),
          (.vRsqrt set a, 0xB, fun p => (typeFmt ty).round (v p).rsqrt),
          (.vSqrt set a, 0xC, fun p => (typeFmt ty).round (v p).sqrt), (.vMov set a, 0xE, fun p => p)] :
          List (Instr × Nat × (Nat → Nat))),
        s.vacts set.val [] (encV 0x10 e.2.1 a.vd.val a.va.val 0 0 false a.pm a.ty) →
        answers e.1 s fun t => s.onlySet t set.val ∧ x.vecResult (t.setSt set.val) a.vd.val a.pm w
          fun i => e.2.2 (x.elemAt a.va.val w i))

/-- VINT: every active element of VD takes the wrapped integer or bitwise result; the others keep their value or become zero. For
each of the twelve MAJOR 0x11 operations that acts, exec answers the state in which every active element of VD holds the
result of R178 on the elements of VA and VB (a vector register, or a scalar register broadcast): sums, differences and
products modulo 2^32 or 2^16, shift counts modulo the element width, minimum and maximum signed for INT32 and INT16 and
unsigned for UINT32. Inactive elements keep their value or become zero, the set moves on, and nothing else of the set or the
module changes. -/
def Obligations.VectorInteger : Prop :=
  ∀ (s : State) (set : Fin 768),
    let x := s.setSt set.val
    (∀ (a : V2Args), let ty := a.ty.toNat
      let w := isWide ty
      let n := typeBits ty
      let val := fun (p : Nat) => if ty = 4 then (p : Int) else signed n p
      ∀ e ∈ ([(.vIadd set a, 0, fun p q => (p + q) % 2 ^ n), (.vIsub set a, 1, fun p q => unsigned n ((p : Int) - q)),
          (.vImul set a, 2, fun p q => p * q % 2 ^ n), (.vAnd set a, 3, fun p q => p &&& q), (.vOr set a, 4, fun p q => p ||| q),
          (.vXor set a, 5, fun p q => p ^^^ q), (.vShl set a, 7, fun p q => p * 2 ^ (q % n) % 2 ^ n),
          (.vShr set a, 8, fun p q => p / 2 ^ (q % n)), (.vSra set a, 9, fun p q => unsigned n (signed n p / 2 ^ (q % n))),
          (.vImin set a, 0xA, fun p q => if val p ≤ val q then p else q),
          (.vImax set a, 0xB, fun p q => if val p ≤ val q then q else p)] : List (Instr × Nat × (Nat → Nat → Nat))),
        s.vacts set.val (if a.bs then [a.vb.val] else []) (encV 0x11 e.2.1 a.vd.val a.va.val a.vb.val 0 a.bs a.pm a.ty) →
        answers e.1 s fun t => s.onlySet t set.val ∧ x.vecResult (t.setSt set.val) a.vd.val a.pm w
          fun i => e.2.2 (x.elemAt a.va.val w i) (x.srcAt a.vb.val a.bs w i)) ∧
    (∀ (a : V1Args), s.vacts set.val [] (encV 0x11 6 a.vd.val a.va.val 0 0 false a.pm a.ty) →
      answers (.vNot set a) s fun t => s.onlySet t set.val ∧
        x.vecResult (t.setSt set.val) a.vd.val a.pm (isWide a.ty.toNat)
          fun i => 2 ^ typeBits a.ty.toNat - 1 - x.elemAt a.va.val (isWide a.ty.toNat) i)

/-- VCMP and predicate operations: the active bits of PD take the result, the others keep their value or become zero. For each of
the seven comparisons that acts, exec answers the state in which PD holds, at both bits of each active 32-bit lane or at the
bit of each active 16-bit element, whether the relation holds between the elements of VA and VB: on floats every relation but
VCNE and VCUN is false with a NaN, VCUN is true exactly with a NaN, and -0 equals +0; on integers signed or, for UINT32,
unsigned, and VCUN is false. PAND to PCLR act bit by bit under PRED. Inactive bits keep their value under PZ 0 and become zero
under PZ 1. The set moves on, and nothing else of the set or the module changes. -/
def Obligations.VectorComparisonsAndPredicates : Prop :=
  ∀ (s : State) (set : Fin 768),
    let x := s.setSt set.val
    (∀ (a : VCArgs), let ty := a.ty.toNat
      let w := isWide ty
      let v := fun p => (typeFmt ty).decode p
      let val := fun (p : Nat) => if ty = 4 then (p : Int) else signed (typeBits ty) p
      ∀ e ∈ ([(.vCeq set a, 0, fun p q => (v p).eq (v q), fun p q => p = q),
          (.vCne set a, 1, fun p q => !(v p).eq (v q), fun p q => p ≠ q),
          (.vClt set a, 2, fun p q => (v p).lt (v q), fun p q => p < q),
          (.vCle set a, 3, fun p q => (v p).lt (v q) || (v p).eq (v q), fun p q => p ≤ q),
          (.vCgt set a, 4, fun p q => (v q).lt (v p), fun p q => q < p),
          (.vCge set a, 5, fun p q => (v q).lt (v p) || (v p).eq (v q), fun p q => q ≤ p),
          (.vCun set a, 6, fun p q => (v p).isNan || (v q).isNan, fun _ _ => false)] :
          List (Instr × Nat × (Nat → Nat → Bool) × (Int → Int → Bool))),
        s.vacts set.val (if a.bs then [a.vb.val] else []) (encV 0x12 e.2.1 a.pd.val a.va.val a.vb.val 0 a.bs a.pm a.ty) →
        answers e.1 s fun t => s.onlySet t set.val ∧ x.predResult (t.setSt set.val) a.pd.val a.pm w
          fun i => let p := x.elemAt a.va.val w i
            let q := x.srcAt a.vb.val a.bs w i
            if ty ≤ 2 then e.2.2.1 p q else e.2.2.2 (val p) (val q)) ∧
    (∀ (pd pa pb : Fin 8) (pm : PredMode),
      ∀ e ∈ ([(.pAnd set pd pa pb pm, 0x20, pa.val, pb.val, fun a b => a && b),
          (.pOr set pd pa pb pm, 0x21, pa.val, pb.val, fun a b => a || b),
          (.pXor set pd pa pb pm, 0x22, pa.val, pb.val, fun a b => a ^^ b),
          (.pAndn set pd pa pb pm, 0x23, pa.val, pb.val, fun a b => a && !b),
          (.pNot set pd pa pm, 0x24, pa.val, 0, fun a _ => !a), (.pSet set pd pm, 0x25, 0, 0, fun _ _ => true),
          (.pClr set pd pm, 0x26, 0, 0, fun _ _ => false)] : List (Instr × Nat × Nat × Nat × (Bool → Bool → Bool))),
        s.vacts set.val [] (encV 0x12 e.2.1 pd.val e.2.2.1 e.2.2.2.1 0 false pm 0) →
        answers e.1 s fun t => s.onlySet t set.val ∧ x.predResult (t.setSt set.val) pd.val pm false
          fun i => e.2.2.2.2 ((x.pred e.2.2.1).getLsbD i) ((x.pred e.2.2.2.1).getLsbD i))

/-- VCVT and VLANE: conversions, reductions, permutation, broadcast, lane moves and lane numbers. For each operation that acts,
exec answers the state that R180 and R181 give. VCVT: each active element of VD is the converted element of VA; between a
32-bit and a narrower type lane by lane, a 16-bit source read from element 2i and a narrow result in the low bits of its lane.
VREDSUM, VREDMAX, VREDMIN: element 0 of VD is the fixed tree's result over the active elements, and the others are unchanged.
VPERM, VBCASTL, VINS, VIOTA: each active element is the one R181 names, indices modulo the element count. VMOVS writes a
scalar register, sign-extended under INT32 and INT16. The set moves on, and nothing else of the set or the module changes.
Rests on the model's choices of log entry 104. -/
def Obligations.VectorConversionsAndLanes : Prop :=
  ∀ (s : State) (set : Fin 768),
    let x := s.setSt set.val
    (∀ (d : Fin 8) (a : V1Args), let ty := a.ty.toNat
      let narrow := isWide ty = false ∧ (d.val = 0 ∨ d.val = 3 ∨ d.val = 4)
      let w := isWide ty || decide (d.val = 0 ∨ d.val = 3 ∨ d.val = 4)
      s.vacts set.val [] (encV 0x13 d.val a.vd.val a.va.val 0 0 false a.pm a.ty) →
      answers (.vCvt set d a) s fun t => s.onlySet t set.val ∧ x.vecResult (t.setSt set.val) a.vd.val a.pm w
        fun i => vcvtOp d.val (elemValue ty (x.elemAt a.va.val (isWide ty) (if narrow then 2 * i else i)))) ∧
    (∀ (a : V1Args), let ty := a.ty.toNat
      let w := isWide ty
      ∀ e ∈ ([(.vRedsum set a, 0), (.vRedmax set a, 1), (.vRedmin set a, 2)] : List (Instr × Nat)),
        s.vacts set.val [] (encV 0x14 e.2 a.vd.val a.va.val 0 0 false a.pm a.ty) →
        answers e.1 s fun t => s.onlySet t set.val ∧ x.vecResult (t.setSt set.val) a.vd.val none w
          fun i => if i = 0 then
              redTree (redOp e.2 ty) (if w then 6 else 7) ((List.range (typeCount ty)).map fun k =>
                if x.activeAt a.pm w k then x.elemAt a.va.val w k else redUnit e.2 ty)
            else x.elemAt a.vd.val w i) ∧
    (∀ (a : V2Args), let w := isWide a.ty.toNat
      s.vacts set.val (if a.bs then [a.vb.val] else []) (encV 0x14 3 a.vd.val a.va.val a.vb.val 0 a.bs a.pm a.ty) →
      answers (.vPerm set a) s fun t => s.onlySet t set.val ∧ x.vecResult (t.setSt set.val) a.vd.val a.pm w
        fun i => x.elemAt a.va.val w (x.srcAt a.vb.val a.bs w i % typeCount a.ty.toNat)) ∧
    (∀ (vd va ra rb rd : Fin 32) (pm : PredMode) (ty : BitVec 3), let w := isWide ty.toNat
      let k := (x.reg rb.val).toNat % typeCount ty.toNat
      (s.vacts set.val [rb.val] (encV 0x14 4 vd.val va.val rb.val 0 true pm ty) →
        answers (.vBcastl set vd va rb pm ty) s fun t => s.onlySet t set.val ∧
          x.vecResult (t.setSt set.val) vd.val pm w fun _ => x.elemAt va.val w k) ∧
      (s.vacts set.val [rd.val, rb.val] (encV 0x14 5 rd.val va.val rb.val 0 true none ty) →
        answers (.vMovs set rd va rb ty) s fun t => s.onlySet t set.val ∧
          t.setSt set.val = { x.advance with regs := (t.setSt set.val).regs } ∧
          ∀ r, (t.setSt set.val).reg r = if r = rd.val ∧ r ≠ 0 then
            (if ty = 3 ∨ ty = 5 then BitVec.ofInt 64 (signed (typeBits ty.toNat) (x.elemAt va.val w k))
             else BitVec.ofNat 64 (x.elemAt va.val w k)) else x.reg r) ∧
      (s.vacts set.val [ra.val, rb.val] (encV 0x14 6 vd.val ra.val rb.val 0 true pm ty) →
        answers (.vIns set vd ra rb pm ty) s fun t => s.onlySet t set.val ∧ x.vecResult (t.setSt set.val) vd.val pm w
          fun i => if i = k then (x.reg ra.val).toNat % 2 ^ typeBits ty.toNat else x.elemAt vd.val w i) ∧
      (s.vacts set.val [] (encV 0x14 7 vd.val 0 0 0 false pm ty) →
        answers (.vIota set vd pm ty) s fun t => s.onlySet t set.val ∧ x.vecResult (t.setSt set.val) vd.val pm w fun i => i))

/-- VMEM: VLD, VST, VLDS and VSTS move the active elements between a register and set memory, and change nothing else. For each
operation that acts, with every address it uses aligned, in set memory and free of double-bit errors: VLD and VLDS put the
bytes read, least significant first, into the active elements of VD, leave every byte of set memory, and handle inactive
elements under R119. VST writes the active elements (and under PZ 1 zeros for the others) to the 256 bytes; a double-bit word
there stops it only if it is written in part. VSTS writes one 4-byte element per lane in ascending order: a byte ends with the
value of the highest lane that writes it. Every other byte of every set memory is unchanged; beside set memory and its error
state only the set itself changes, and it moves on. -/
def Obligations.VectorMemory : Prop :=
  ∀ (s : State) (set : Fin 768) (vd ra rb : Fin 32) (pm : PredMode) (ty : BitVec 3),
    let x := s.setSt set.val
    let w := isWide ty.toNat
    let size := typeBits ty.toNat / 8
    let base := (x.reg ra.val).toNat
    let lanePlace := fun i : Nat => x.vplace set.val (x.reg ra.val + BitVec.ofNat 64 i * x.reg rb.val).toNat 4 4
    let loaded := fun (wide : Bool) (bytesAt : Nat → List Byte) (t : State) =>
      let y := t.setSt set.val
      t = { s with sets := t.sets } ∧
      y = { x.advance with v := y.v, err := y.err, eccFixed := y.eccFixed } ∧
      (∀ k, k ≠ set.val → t.setSt k = { s.setSt k with err := (t.setSt k).err, eccFixed := (t.setSt k).eccFixed }) ∧
      (∀ r i, r ≠ vd.val → i < 64 → y.lane r i = x.lane r i) ∧
      ∀ i < (if wide then 64 else 128), y.elemAt vd.val wide i =
        if x.activeAt pm wide i then ofBytes (bytesAt i) else if zeroing pm then 0 else x.elemAt vd.val wide i
    let stored := fun t : State => ∀ k, t.setSt k = { (if k = set.val then x.advance else s.setSt k) with
      mem := (t.setSt k).mem, err := (t.setSt k).err, eccFixed := (t.setSt k).eccFixed }
    (s.vacts set.val [ra.val] (encV 0x15 0 vd.val ra.val 0 0 false pm ty) →
      ∀ m a, x.vplace set.val base size 256 = some (m, a) →
      (∀ i < (if w then 64 else 128), x.activeAt pm w i = true → (s.setSt m).err.get 0 ((a + size * i) / 8) ≠ 2) →
      answers (.vLd set vd ra pm ty) s (loaded w fun i => (s.setSt m).mem.read 0 (a + size * i) size)) ∧
    (s.vacts set.val [ra.val, rb.val] (encV 0x15 2 vd.val ra.val rb.val 0 false pm ty) →
      (∀ i < 64, x.activeAt pm true i = true →
        ∃ m a, lanePlace i = some (m, a) ∧ (s.setSt m).err.get 0 (a / 8) ≠ 2) →
      answers (.vLds set vd ra rb pm ty) s (loaded true fun i =>
        match lanePlace i with
        | some (m, a) => (s.setSt m).mem.read 0 a 4
        | none => [])) ∧
    (s.vacts set.val [ra.val] (encV 0x15 1 vd.val ra.val 0 0 false pm ty) →
      ∀ m a, x.vplace set.val base size 256 = some (m, a) →
      let written := fun j : Nat => a ≤ j ∧ j < a + 256 ∧ (x.activeAt pm w ((j - a) / size) = true ∨ zeroing pm = true)
      (∀ wd, 2 ≤ (s.setSt m).err.get 0 wd → (∀ j, j / 8 = wd → written j) ∨ ∀ j, j / 8 = wd → ¬ written j) →
      answers (.vSt set vd ra pm ty) s fun t =>
        t = { s with sets := t.sets } ∧ stored t ∧
        (∀ k j, (k ≠ m ∨ ¬ written j) → (t.setSt k).mem.get 0 j = (s.setSt k).mem.get 0 j) ∧
        ∀ j, written j → (t.setSt m).mem.get 0 j =
          if x.activeAt pm w ((j - a) / size) then
            BitVec.ofNat 8 (x.elemAt vd.val w ((j - a) / size) / 256 ^ ((j - a) % size)) else 0) ∧
    (s.vacts set.val [ra.val, rb.val] (encV 0x15 3 vd.val ra.val rb.val 0 false pm ty) →
      let writes := fun i : Nat => i < 64 ∧ (x.activeAt pm true i = true ∨ zeroing pm = true)
      (∀ i, writes i → ∃ m a, lanePlace i = some (m, a) ∧ (s.setSt m).err.get 0 (a / 8) ≤ 1) →
      answers (.vSts set vd ra rb pm ty) s fun t =>
        t = { s with sets := t.sets } ∧ stored t ∧
        ∀ k j, let on := fun i : Nat => writes i ∧ ∃ a, lanePlace i = some (k, a) ∧ a ≤ j ∧ j < a + 4
          ((∀ i, ¬ on i) → (t.setSt k).mem.get 0 j = (s.setSt k).mem.get 0 j) ∧
          ∀ i a, on i → (∀ i', i < i' → ¬ on i') → lanePlace i = some (k, a) →
            (t.setSt k).mem.get 0 j =
              if x.activeAt pm true i then BitVec.ofNat 8 (x.elemAt vd.val true i / 256 ^ (j - a)) else 0)

/-- VTBL and VRND: table loads, table evaluation of R184, and the Philox words of R187. For each operation that acts. VFNk and
VDFNk on a loaded slot: each active element of VD is the table's value at the element of VA (forward slots 0-3, derivative
slots 4-7); on an unloaded slot, from the stream, the set stops with ILLEGAL. VTLDFk and VTLDDk at a 64-byte aligned place in
set memory without a double-bit error: the slot holds those 4,096 bytes and is marked loaded, every other slot keeps its bytes
and mark. VRND: lane i holds word x0 of Philox-4x32-10 on the job seed, the element index sVB + i modulo 2^64, the step number
and the tensor ID sVA[31:0]. Inactive elements follow R119, the set moves on, and nothing else of the set or the module
changes. -/
def Obligations.FunctionTablesAndRandomBits : Prop :=
  ∀ (s : State) (set : Fin 768),
    let x := s.setSt set.val
    (∀ (k : Fin 4) (a : V1Args),
      ∀ e ∈ ([(.vFn set k a, k.val, k.val), (.vDfn set k a, 8 + k.val, 4 + k.val)] : List (Instr × Nat × Nat)),
        (s.vacts set.val [] (encV 0x16 e.2.1 a.vd.val a.va.val 0 0 false a.pm a.ty) → x.loaded.testBit e.2.2 = true →
          answers e.1 s fun t => s.onlySet t set.val ∧ x.vecResult (t.setSt set.val) a.vd.val a.pm true
            fun i => tableEval (x.tabs.read 0 (4096 * e.2.2) 4096) (x.elemAt a.va.val true i)) ∧
        (s.vacts set.val [] (encV 0x16 e.2.1 a.vd.val a.va.val 0 0 false a.pm a.ty) → x.fused = none →
          x.loaded.testBit e.2.2 = false → exec e.1 s = .next (s.fault set.val .illegal 2))) ∧
    (∀ (k : Fin 4) (ra : Fin 32) (pm : PredMode),
      ∀ e ∈ ([(.vTldf set k ra pm, 0x10 + k.val, k.val), (.vTldd set k ra pm, 0x18 + k.val, 4 + k.val)] :
          List (Instr × Nat × Nat)),
        s.vacts set.val [ra.val] (encV 0x16 e.2.1 0 ra.val 0 0 false pm 0) →
        ∀ m a, x.vplace set.val (x.reg ra.val).toNat 64 4096 = some (m, a) →
        (∀ w ∈ wordsOf a 4096, (s.setSt m).err.get 0 w ≠ 2) →
        answers e.1 s fun t => t = { s with sets := t.sets } ∧
          (∀ j, j ≠ set.val → t.setSt j = { s.setSt j with err := (t.setSt j).err, eccFixed := (t.setSt j).eccFixed }) ∧
          (let y := t.setSt set.val
           y = { x.advance with tabs := y.tabs, loaded := y.loaded, err := y.err, eccFixed := y.eccFixed }) ∧
          (t.setSt set.val).loaded.testBit e.2.2 = true ∧
          (∀ j, j ≠ e.2.2 → (t.setSt set.val).loaded.testBit j = x.loaded.testBit j) ∧
          ∀ j, (t.setSt set.val).tabs.get 0 j = if 4096 * e.2.2 ≤ j ∧ j < 4096 * (e.2.2 + 1)
            then (s.setSt m).mem.get 0 (a + (j - 4096 * e.2.2)) else x.tabs.get 0 j) ∧
    (∀ (vd ra rb : Fin 32) (pm : PredMode) (ty : BitVec 3),
      s.vacts set.val [ra.val, rb.val] (encV 0x17 0 vd.val ra.val rb.val 0 false pm ty) →
      answers (.vRnd set vd ra rb pm ty) s fun t => s.onlySet t set.val ∧
        x.vecResult (t.setSt set.val) vd.val pm true fun i =>
          philoxWord (leAt (s.slot x.slot).record 16 8) (((x.reg rb.val).toNat + i) % 2 ^ 64)
            (s.getF CTX_S_STEP_NO x.slot 0) ((x.reg ra.val).toNat % 2 ^ 32))

/-- VTAKE and VGIVE inside a running body take the next final producer row and give a consumer row; elsewhere they are ILLEGAL.
VTAKE as the next instruction of a running body, with the next producer row final: the active elements of VD are that row, the
row is gone, one more is taken, and the body moves on. VGIVE there, with TYPE FP32 or the consumer's packed format: one more
row is given, its inactive elements +0, FP32 values rounded to the consumer's ACT_FMT, cut to the consumer's row length. In
the stream, with no fused sequence, both stop the set with ILLEGAL; so does any word that R106 does not assign. -/
def Obligations.FusedForwarding : Prop :=
  ∀ (s : State) (set : Fin 768) (vd va : Fin 32) (pm : PredMode) (ty : BitVec 3) (word : BitVec 64),
    let x := s.setSt set.val
    (∀ fu row, x.fused = some fu → fu.busy = true → fu.ready.find fu.taken = some row → row.length = 64 →
      (∀ v ∈ row, v < 2 ^ 32) → s.vacts set.val [] (encV 0x18 0 vd.val 0 0 0 false pm ty) →
      answers (.vTake set vd pm ty) s fun t => s.onlySet t set.val ∧
        let fu' := { fu with ready := fu.ready.erase fu.taken, taken := fu.taken + 1 }
        t.setSt set.val = { x with v := (t.setSt set.val).v, fused := some fu'.step } ∧
        ∀ i < 64, (t.setSt set.val).elemAt vd.val true i =
          if x.activeAt pm true i then row.getD i 0 else if zeroing pm then 0 else x.elemAt vd.val true i) ∧
    (∀ fu, x.fused = some fu → fu.busy = true → ty.toNat = 0 ∨ ty.toNat = fu.giveFmt + 1 →
      s.vacts set.val [] (encV 0x18 1 0 va.val 0 0 false pm ty) →
      answers (.vGive set va pm ty) s fun t => s.onlySet t set.val ∧
        let n := if ty.toNat = 0 then 64 else 128
        let value := fun i => let e := if x.activeAt pm (isWide ty.toNat) i then x.elemAt va.val (isWide ty.toNat) i else 0
          if ty.toNat = 0 then vcvtOp (if fu.giveFmt < 2 then fu.giveFmt + 1 else fu.giveFmt + 4) (fmtFP32.decode e) else e
        let fu' := { fu with given := fu.given ++ [((List.range n).map value).take fu.giveLen] }
        t.setSt set.val = { x with fused := some fu'.step }) ∧
    (x.fused = none → s.throttled set.val = false → s.issues set.val [] →
      exec (.vTake set vd pm ty) s = .next (s.fault set.val .illegal 1) ∧
      exec (.vGive set va pm ty) s = .next (s.fault set.val .illegal 1)) ∧
    (x.fused = none → s.issues set.val [] → legalWord word = false →
      exec (.unassigned set word) s = .next (s.illegal set.val))

/-- Pushes: the 64 descriptor bytes are copied into the named queue; a full queue holds the instruction, a bad address stops it.
For TPUSH, FSEQ, PPUSH, RPUSH and FPUSH, issued by a set that can issue it, with the descriptor's set address in space 0b01 of
its own set memory, 64-byte aligned, its bytes free of double-bit errors and passing the checks of R130, and room in the
queue: a copy of the 64 bytes is the last entry of the set's tile queue, of its promenade slots, of the group's round queue
(group neither aborted nor lost) or of the context's freeze queue, the PC is 8 further, and no byte of set memory and no
scalar register changes. With the queue full nothing changes. With the address in another space or not aligned the set stops
with ACCESS. -/
def Obligations.PushesQueueTheDescriptor : Prop :=
  ∀ (s : State) (set : Fin 768) (ra rb : Fin 32) (imm : BitVec 32),
    let x := s.setSt set.val
    let ea := (x.reg ra.val + imm.signExtend 64).toNat
    let good := fun (uses : List Nat) (addr kind : Nat) (rule : List Byte → Bool) (d : List Byte) =>
      s.issues set.val uses ∧ x.place set.val addr = .sm set.val (addr % 2 ^ 21) ∧ addr / 2 ^ 62 = 1 ∧ addr % 64 = 0 ∧
      addr % 2 ^ 21 + 64 ≤ setMemBytes ∧ (∀ w ∈ wordsOf (addr % 2 ^ 21) 64, x.err.get 0 w ≠ 2) ∧
      d = x.mem.read 0 (addr % 2 ^ 21) 64 ∧ checkDesc d kind (rule d) = .pass
    let after := fun t : State => (t.setSt set.val).pc = x.pc + 8 ∧
      ∀ k, (t.setSt k).mem = (s.setSt k).mem ∧ (t.setSt k).regs = (s.setSt k).regs
    (∀ d, good [ra.val] ea 1 (fun d => tileRule d false) d →
      (x.queue.length < 64 → answers (.tpush set ra imm) s fun t => after t ∧ s.onlySet t set.val ∧
        (t.setSt set.val).queue = x.queue ++ [⟨x.nextId, d, set.val, ea % 2 ^ 21, none, none⟩]) ∧
      (64 ≤ x.queue.length → exec (.tpush set ra imm) s = .next s)) ∧
    (∀ d, good [ra.val, rb.val] (x.reg ra.val).toNat 1 (fun d => tileRule d true) d → imm.toNat ≤ 256 →
      (x.queue.length < 64 → answers (.fseq set ra rb imm) s fun t => after t ∧ s.onlySet t set.val ∧
        (t.setSt set.val).queue = x.queue ++ [⟨x.nextId, d, set.val, (x.reg ra.val).toNat % 2 ^ 21,
          some (imm.toNat, (x.reg rb.val).toNat), none⟩]) ∧
      (64 ≤ x.queue.length → exec (.fseq set ra rb imm) s = .next s)) ∧
    (∀ d, good [ra.val] ea 2 promRule d →
      (x.proms.length < 16 → answers (.ppush set ra imm) s fun t => after t ∧ s.onlySet t set.val ∧
        ∃ q, (t.setSt set.val).proms = x.proms ++ [q] ∧ q.id = x.nextId ∧ q.desc = d ∧ q.addr = ea % 2 ^ 21 ∧
          q.started = false ∧ q.status = 0) ∧
      (16 ≤ x.proms.length → exec (.ppush set ra imm) s = .next s)) ∧
    (∀ d, good [ra.val] ea 3 roundRule d → let g := leAt d 8 1
      s.getF RND_G_STATE g 0 ≠ 3 → s.getF RND_G_STATE g 0 ≠ 4 →
      ((s.group g).queue.length < 8 → answers (.rpush set ra imm) s fun t => after t ∧
        (t.group g).queue = (s.group g).queue ++ [⟨d, ea % 2 ^ 21, set.val, x.slot, s.getF CTX_S_STEP_NO x.slot 0⟩] ∧
        (t.group g).run = (s.group g).run ∧ ∀ h, h ≠ g → t.group h = s.group h) ∧
      (8 ≤ (s.group g).queue.length → exec (.rpush set ra imm) s = .next s)) ∧
    (∀ d, good [ra.val] ea 4 freezeRule d →
      ((s.frzSlot x.slot).queue.length < 8 → answers (.fpush set ra imm) s fun t => after t ∧
        t.frzSlot x.slot = { s.frzSlot x.slot with queue := (s.frzSlot x.slot).queue ++
          [⟨d, ea % 2 ^ 21, set.val, x.slot, s.getF CTX_S_STEP_NO x.slot 0⟩] } ∧
        ∀ i, i ≠ x.slot → t.frzSlot i = s.frzSlot i) ∧
      (8 ≤ (s.frzSlot x.slot).queue.length → exec (.fpush set ra imm) s = .next s)) ∧
    (∀ e ∈ ([.tpush set ra imm, .ppush set ra imm, .rpush set ra imm, .fpush set ra imm] : List Instr),
      s.issues set.val [ra.val] → ea / 2 ^ 62 ≠ 1 ∨ ea % 64 ≠ 0 → exec e s = .next (s.fault set.val .access 1)) ∧
    (256 < imm.toNat → s.issues set.val [] → exec (.fseq set ra rb imm) s = .next (s.illegal set.val))

/-- SYNC: CSET, CADD and CADDR change one counter modulo 2^64, CWAIT holds the core until its counter suffices, CREAD reads.
Issued by a set that can issue it, with V = RA + IMM32 zero-extended: CSET stores V in cCTR; CADD adds V, with RELEASE only
once every earlier store and promenade write of the set is visible and unchanged before; CADDR adds IMM32 to cCTR of the set
that serves routine set RA of the context, which a satisfied wait there ends, and stops with ACCESS where none serves it;
CWAIT with cCTR at or above V goes on, and else the core waits for it, its PC past the instruction; CREAD puts cCTR in sRA. No
other counter, no set memory and no other register changes. Rests on the model's choices of log entry 48. -/
def Obligations.CountersAddWaitAndRead : Prop :=
  ∀ (s : State) (set : Fin 768) (ctr : Fin 64) (ra : Fin 32) (imm : BitVec 32) (release : Bool),
    let x := s.setSt set.val
    let v := x.reg ra.val + imm.setWidth 64
    let ready := s.issues set.val [ra.val]
    let visible := release = false ∨ s.released set.val = true
    (ready → answers (.cset set ctr ra imm) s fun t => s.onlySet t set.val ∧
      let y := t.setSt set.val
      y = { x with c := y.c, pc := x.pc + 8 } ∧ ∀ k, y.counter k = if k = ctr.val then v else x.counter k) ∧
    (ready → visible → answers (.cadd set ctr ra imm release) s fun t => s.onlySet t set.val ∧
      let y := t.setSt set.val
      y = { x with c := y.c, pc := x.pc + 8 } ∧
      ∀ k, y.counter k = if k = ctr.val then x.counter k + v else x.counter k) ∧
    (ready → ¬ visible → exec (.cadd set ctr ra imm release) s = .next s ∧
      exec (.caddr set ctr ra imm release) s = .next s) ∧
    (ready → visible → ∀ m < 1024, (x.reg ra.val).toNat ≤ 0x3FF →
      s.serves x.slot (x.reg ra.val).toNat = some m → (s.setSt m).slot = x.slot → (s.setSt m).run ≠ .unbound →
      (s.setSt m).lentFrom ≠ some x.slot →
      answers (.caddr set ctr ra imm release) s fun t => t = { s with sets := t.sets } ∧
        (∀ k, k ≠ m → k ≠ set.val → t.setSt k = s.setSt k) ∧
        (∀ n k, (t.setSt n).counter k = if n = m ∧ k = ctr.val then (s.setSt n).counter k + imm.setWidth 64
          else (s.setSt n).counter k) ∧
        (∀ n, (t.setSt n).regs = (s.setSt n).regs ∧ (t.setSt n).mem = (s.setSt n).mem ∧
          (t.setSt n).pc = if n = set.val then x.pc + 8 else (s.setSt n).pc) ∧
        ∀ u, (s.setSt m).wait = some (ctr.val, u) → (s.setSt m).run = .waiting →
          (t.setSt m).run = if u ≤ (s.setSt m).counter ctr.val + imm.setWidth 64 then .running else .waiting) ∧
    (ready → visible → s.serves x.slot (x.reg ra.val).toNat = none →
      exec (.caddr set ctr ra imm release) s = .next (s.fault set.val .access 1)) ∧
    (ready → s.replaying x.slot = false → answers (.cwait set ctr ra imm) s fun t => s.onlySet t set.val ∧
      t.setSt set.val = if v ≤ x.counter ctr.val then x.next
        else { x.next with run := .waiting, wait := some (ctr.val, v) }) ∧
    (ready → answers (.cread set ctr ra) s fun t => s.onlySet t set.val ∧
      x.onlyReg (t.setSt set.val) ra.val (x.counter ctr.val) (x.pc + 8))

/-- CTRL: NOP, END, STEP, BUBBLE and BUBBLEEND. Issued by a set that can issue it: NOP only advances the PC. END makes the set
idle (a set of its own context; a guest's set goes back to its owner). STEP with a new number, while no replay runs: the
context's step number is RA[31:0], the active exponent table is 0 again, the flags of R472 of the slot clear, and the set's PC
is 8 further. BUBBLE enters a bubble of the context's table, resuming behind it, and BUBBLEEND leaves the bubble the set is
in; a number the table does not hold stops the set with ILLEGAL. Rests on the model's choices of log entry 154. -/
def Obligations.StreamControl : Prop :=
  ∀ (s : State) (set : Fin 768) (ra : Fin 32) (journal : Bool) (number : BitVec 16),
    let x := s.setSt set.val
    (s.issues set.val [] → answers (.iNop set) s fun t => s.onlySet t set.val ∧ t.setSt set.val = x.next) ∧
    (s.issues set.val [] → x.lentFrom = none → answers (.iEnd set) s fun t => s.onlySet t set.val ∧
      t.setSt set.val = { x.next with run := .idle }) ∧
    (s.issues set.val [] → x.lentFrom ≠ none →
      exec (.iEnd set) s = .next ((s.putSet set.val { x.next with run := .idle }).restoreOwner set.val)) ∧
    (s.issues set.val [ra.val] → x.slot < 32 → s.enc.replay = none → s.get HNG_TESTING = 0 →
      (s.slot x.slot).stepped = false ∨ (x.reg ra.val).toNat % 2 ^ 32 ≠ s.getF CTX_S_STEP_NO x.slot 0 →
      answers (.iStep set ra journal) s fun t => t.setSt set.val = x.next ∧ (∀ k, k ≠ set.val → t.setSt k = s.setSt k) ∧
        t.getF CTX_S_STEP_NO x.slot 0 = (x.reg ra.val).toNat % 2 ^ 32 ∧ t.getF CTX_S_ACTIVE_TABLE x.slot 0 = 0 ∧
        t.slot x.slot = { s.slot x.slot with stepped := true, jbit := journal } ∧
        t.hng.updDone.testBit x.slot = false ∧ t.hng.updTorn.testBit x.slot = false ∧ t.hng.frzLost.testBit x.slot = false ∧
        t.mem = s.mem ∧ t.tierC = s.tierC) ∧
    (s.issues set.val [ra.val] → (s.slot x.slot).stepped = true → (s.slot x.slot).jbit ≠ journal →
      (x.reg ra.val).toNat % 2 ^ 32 = s.getF CTX_S_STEP_NO x.slot 0 →
      exec (.iStep set ra journal) s = .next (s.illegal set.val)) ∧
    (s.issues set.val [] → (s.bubbleEntry x.slot number.toNat).isSome = true →
      (answers (.iBubble set number) s fun t => s.onlySet t set.val ∧
        t.setSt set.val = { x.next with bubble := some (number.toNat, x.pc.toNat + 8) }) ∧
      answers (.iBubbleEnd set number) s fun t => s.onlySet t set.val ∧
        t.setSt set.val = { x.next with
          bubble := if (x.bubble.map Prod.fst) = some number.toNat then none else x.bubble }) ∧
    (s.issues set.val [] → s.bubbleEntry x.slot number.toNat = none →
      exec (.iBubble set number) s = .next (s.illegal set.val) ∧
      exec (.iBubbleEnd set number) s = .next (s.illegal set.val))

/-- Mailbox channels: MSEND, MRECV, IN_WORD, OUT_POP, the two timeouts and the binding write move words between their queues.
MSEND by the set end with room appends RA[31:0] to the from-set queue and goes on, and stalls while 16 words wait; MRECV takes
the oldest to-set word into RD, a held word entering behind, and stalls while there is none; either by another set stops it
with ACCESS. IN_WORD appends to the to-set queue, is held when 16 words wait, is discarded with TO_SET_TIMEOUT when one is
held, and counts in UNBOUND_WORDS on a channel that is not valid. OUT_POP removes the head of the from-set queue, or sets
UNDERRUN when it is empty. The held-word timeout discards the held word and sets TO_SET_TIMEOUT; the MSEND timeout sets
FROM_SET_TIMEOUT and stops the set with TIMEOUT. A binding write empties the channel and clears its flags. Every other channel
keeps its queues. (Cases with no core stalled at the channel.) Rests on the model's choices of log entries 110, 111. -/
def Obligations.MailboxChannels : Prop :=
  ∀ (s : State) (set : Fin 768) (r : Fin 32) (ch : BitVec 8) (p : Path) (c : Fin 64) (word : Word),
    let x := s.setSt set.val
    let n := ch.toNat
    let others := fun (k : Nat) (t : State) => ∀ j, j ≠ k → t.chan j = s.chan j
    (s.issues set.val [r.val] → s.chanMine set.val n = true →
      ((s.chan n).fromSet.length < 16 → answers (.iMsend set r ch) s fun t => others n t ∧ s.onlySet { t with
          mbx := s.mbx, regs := s.regs, out := s.out } set.val ∧
        t.chan n = { s.chan n with fromSet := (s.chan n).fromSet ++ [BitVec.ofNat 32 (x.reg r.val).toNat] } ∧
        t.getF MBX_C_FROM_SET_COUNT n 0 = (s.chan n).fromSet.length + 1 ∧ t.setSt set.val = x.next) ∧
      (16 ≤ (s.chan n).fromSet.length → answers (.iMsend set r ch) s fun t => s.onlySet t set.val ∧
        t.setSt set.val = { x with stall := some (.msend n ((x.reg r.val).toNat % 2 ^ 32)) }) ∧
      (s.replaying x.slot = false → s.journalFull x.slot = false → ∀ w ws, (s.chan n).toSet = w :: ws →
        answers (.iMrecv set r ch) s fun t => others n t ∧ (∀ k, k ≠ set.val → t.setSt k = s.setSt k) ∧
          t.chan n = { s.chan n with toSet := ws ++ (s.chan n).held.toList, held := none } ∧
          x.onlyReg (t.setSt set.val) r.val (w.setWidth 64) (x.pc + 8)) ∧
      (s.replaying x.slot = false → (s.chan n).toSet = [] → answers (.iMrecv set r ch) s fun t => s.onlySet t set.val ∧
        t.setSt set.val = { x with stall := some (.mrecv n r.val) })) ∧
    (s.issues set.val [r.val] → s.chanMine set.val n = false →
      exec (.iMsend set r ch) s = .next (s.fault set.val .access 1) ∧
      exec (.iMrecv set r ch) s = .next (s.fault set.val .access 1)) ∧
    (s.reached p (MBX_C_IN_WORD.addr c.val 0) →
      (s.getF MBX_C_VALID c.val 0 = 0 → answers (.inWord p c word) s fun t => t.mbx = s.mbx ∧ t.sets = s.sets ∧
        t.get MBX_UNBOUND_WORDS = min MBX_UNBOUND_WORDS.top (s.get MBX_UNBOUND_WORDS + 1)) ∧
      (s.getF MBX_C_VALID c.val 0 = 1 → s.nobodyStalls c.val →
        (∀ i, s.slotOf (s.getF MBX_C_CONTEXT c.val 0) = some i → s.partFenced i = false) →
        answers (.inWord p c word) s fun t => t.sets = s.sets ∧ others c.val t ∧
          (if (s.chan c.val).toSet.length < 16 then
             t.chan c.val = { s.chan c.val with toSet := (s.chan c.val).toSet ++ [word] }
           else if (s.chan c.val).held = none then t.chan c.val = { s.chan c.val with held := some word }
           else t.chan c.val = s.chan c.val ∧ t.getF MBX_C_TO_SET_TIMEOUT c.val 0 = 1))) ∧
    (s.reached p (MBX_C_OUT_POP.addr c.val 0) → s.nobodyStalls c.val →
      answers (.outPop p c) s fun t => t.sets = s.sets ∧ others c.val t ∧
        t.chan c.val = { s.chan c.val with fromSet := (s.chan c.val).fromSet.tail } ∧
        ((s.chan c.val).fromSet = [] → t.getF MBX_C_UNDERRUN c.val 0 = 1)) ∧
    (s.reached p (MBX_C_CONTEXT.addr c.val 0) → s.nobodyStalls c.val →
      answers (.channelBindingWrite p c word) s fun t => t.sets = s.sets ∧ others c.val t ∧ t.chan c.val = Channel.init ∧
        t.getF MBX_C_TO_SET_COUNT c.val 0 = 0 ∧ t.getF MBX_C_FROM_SET_COUNT c.val 0 = 0 ∧
        t.getF MBX_C_TO_SET_TIMEOUT c.val 0 = 0 ∧ t.getF MBX_C_FROM_SET_TIMEOUT c.val 0 = 0 ∧
        t.getF MBX_C_UNDERRUN c.val 0 = 0 ∧ t.getF MBX_C_VALID c.val 0 = bits word.toNat MBX_C_VALID.hi MBX_C_VALID.lo ∧
        t.getF MBX_C_CONTEXT c.val 0 = bits word.toNat MBX_C_CONTEXT.hi MBX_C_CONTEXT.lo) ∧
    (s.ready = true → (s.chan c.val).held ≠ none →
      answers (.heldWordTimeout c) s fun t => t.sets = s.sets ∧ others c.val t ∧
        t.chan c.val = { s.chan c.val with held := none } ∧ t.getF MBX_C_TO_SET_TIMEOUT c.val 0 = 1) ∧
    (s.unitRuns set.val = true → ∀ k w, x.stall = some (.msend k w) →
      exec (.msendTimeout set) s = .next
        (((s.setF MBX_C_FROM_SET_TIMEOUT k 0 1).chanVector k).fault set.val .timeout 1))

/-- Doorbells: RING and a far-end ring add to the bound counter or to COUNT; a command held during start acts at ready. RING by a
set of the doorbell's context, every earlier write of the set visible and no replay running: with DIR 0 it adds 1 to the
counter of the set that serves the bound routine set; with DIR 1 it adds 1 to the 31-bit COUNT and sets PENDING; the PC is 8
further. A doorbell that is not valid or of another context stops the set with ACCESS. A far-end write of a value adds the
value to the bound counter, counts in UNBOUND_RINGS on a doorbell that is not valid, and does nothing on one of DIR 1. While
the module starts, a far-end ring or word of a path that is up is kept, in order, for ready. Rests on the model's choices of
log entries 48, 112. -/
def Obligations.DoorbellsAddToTheirCounter : Prop :=
  ∀ (s : State) (set : Fin 768) (bell : BitVec 8) (p : Path) (d : Fin 256) (value word : Word) (c : Fin 64),
    let x := s.setSt set.val
    let k := bell.toNat
    let adds := fun (slot m ctr : Nat) (v : Nat) (t : State) =>
      (t.setSt m).counter ctr = (s.setSt m).counter ctr + BitVec.ofNat 64 v ∧
      (∀ j, j ≠ ctr → (t.setSt m).counter j = (s.setSt m).counter j) ∧ (∀ n, n ≠ m → (t.setSt n).c = (s.setSt n).c) ∧
      t.slot slot = s.slot slot
    let serving := fun (slot routine m : Nat) => s.serves slot routine = some m ∧ m < 1024 ∧ (s.setSt m).slot = slot ∧
      (s.setSt m).run ≠ .unbound ∧ (s.setSt m).lentFrom ≠ some slot
    (s.issues set.val [] → s.getF MBX_D_VALID k 0 = 1 → s.getF MBX_D_CONTEXT k 0 = s.ctxOf x.slot →
      s.slotOf (s.getF MBX_D_CONTEXT k 0) = some x.slot → s.released set.val = true → s.replaying x.slot = false →
      s.journalFull x.slot = false →
      (s.getF MBX_D_DIR k 0 = 0 → ∀ m, serving x.slot (s.getF MBX_D_ROUTINE_SET k 0) m →
        answers (.iRing set bell) s fun t => adds x.slot m (s.getF MBX_D_COUNTER k 0) 1 t ∧
          (t.setSt set.val).pc = x.pc + 8) ∧
      (s.getF MBX_D_DIR k 0 = 1 → answers (.iRing set bell) s fun t =>
        t.getF MBX_D_COUNT k 0 = (s.getF MBX_D_COUNT k 0 + 1) % 2 ^ 31 ∧ t.getF MBX_D_PENDING k 0 = 1 ∧
        t.setSt set.val = x.next ∧ ∀ n, n ≠ set.val → t.setSt n = s.setSt n)) ∧
    (s.issues set.val [] → s.getF MBX_D_VALID k 0 = 0 ∨ s.getF MBX_D_CONTEXT k 0 ≠ s.ctxOf x.slot →
      exec (.iRing set bell) s = .next (s.fault set.val .access 1)) ∧
    (s.reached p (MBX_D_RING.addr d.val 0) →
      (s.getF MBX_D_VALID d.val 0 = 0 → answers (.ringWrite p d value) s fun t => t.sets = s.sets ∧
        t.get MBX_UNBOUND_RINGS = min MBX_UNBOUND_RINGS.top (s.get MBX_UNBOUND_RINGS + 1)) ∧
      (s.getF MBX_D_VALID d.val 0 = 1 → s.getF MBX_D_DIR d.val 0 = 1 →
        exec (.ringWrite p d value) s = .next (s.touchPath p)) ∧
      (s.getF MBX_D_VALID d.val 0 = 1 → s.getF MBX_D_DIR d.val 0 = 0 →
        ∀ slot m, s.slotOf (s.getF MBX_D_CONTEXT d.val 0) = some slot → s.partFenced slot = false →
        s.journalFull slot = false → serving slot (s.getF MBX_D_ROUTINE_SET d.val 0) m →
        answers (.ringWrite p d value) s fun t => adds slot m (s.getF MBX_D_COUNTER d.val 0) value.toNat t)) ∧
    (s.starting = true → s.pathUp p = true → s.pathOk p = true →
      (answers (.ringWrite p d value) s fun t =>
        t = { s with boot := { s.boot with held := s.boot.held ++ [.ring p d.val value] } }) ∧
      answers (.inWord p c word) s fun t =>
        t = { s with boot := { s.boot with held := s.boot.held ++ [.inWord p c.val word] } })

/-- PCIe ports: PERST and link training change PCIE_UP; a window write stores its bytes in the context, a window read returns
them. A fall of PERSTk_N brings port k's link down and keeps it in Detect; after a rise it may train again. PCIE_LINK_UP
brings the link up when the port may train (PERSTk_N high, its die powered, no module fence, enabled by the image or in
recovery hold), else nothing changes. A window write on a live link of a ready module, through a valid writable window whose
address leads in one part to a tier of this module that takes it, stores its bytes there and nothing else; through no such
window it is discarded, counted in HOST_DROPS and captured while CAP_VALID is 0. A window read so served returns those bytes;
before ready it completes with Unsupported Request, and through no valid window with Completer Abort. No set changes. Rests on
the model's choices of log entries 4, 16, 17, 109. -/
def Obligations.PciePortsAndWindows : Prop :=
  ∀ (s : State) (port : Fin 2) (offset : BitVec 34) (bytes : List Byte) (length : Fin 4097),
    let k := port.val
    let up := bit (s.get MBX_PCIE_UP) k
    let rest := fun t : State => t = { s with pins := t.pins, regs := t.regs, dcd := t.dcd } ∧ s.wordsBut t [MBX_PCIE_UP.addr 0 0] ∧
      bit (t.get MBX_PCIE_UP) (1 - k) = bit (s.get MBX_PCIE_UP) (1 - k) ∧ t.get MBX_ETH_UP = s.get MBX_ETH_UP
    (answers (.perstFall port) s fun t => rest t ∧ bit (t.get MBX_PCIE_UP) k = false ∧ t.mayTrain k = false ∧
      (if k = 0 then t.pins.perst1 = s.pins.perst1 else t.pins.perst0 = s.pins.perst0)) ∧
    (answers (.perstRise port) s fun t => t = { s with pins := t.pins } ∧
      (if k = 0 then t.pins = { s.pins with perst0 := true } else t.pins = { s.pins with perst1 := true })) ∧
    (s.mayTrain k = true → answers (.pcieLinkUp port) s fun t => rest t ∧ t.pins = s.pins ∧ bit (t.get MBX_PCIE_UP) k = true) ∧
    (s.mayTrain k = false → exec (.pcieLinkUp port) s = .next s) ∧
    (up = true → s.ready = true → ∀ slot a, s.windowAt k offset.toNat true = some (slot, a) → s.replaying slot = false →
      s.journalFull slot = false →
      let r := s.resolve (portDie k) slot a .w
      onePart r bytes.length →
      (r.2.2.2.serveWrite r.2.2.2.self (r.2.2.2.ctxOf slot) r.2.1.space 2 r.2.1.off bytes).1 = .done →
      answers (.windowWrite port offset bytes) s fun t => t.sets = s.sets ∧ s.storesAt t r.2.1.space r.2.1.off bytes) ∧
    (up = true → s.ready = true → s.windowAt k offset.toNat true = none →
      answers (.windowWrite port offset bytes) s fun t => t = { s with regs := t.regs } ∧
        t.get MBX_HOST_DROPS = min MBX_HOST_DROPS.top (s.get MBX_HOST_DROPS + 1) ∧ t.get MBX_CAP_VALID = 1 ∧
        (s.get MBX_CAP_VALID ≠ 1 → t.get MBX_CAP_PORT = k ∧ t.get MBX_CAP_STATUS = 3 ∧ t.get MBX_CAP_OFFSET = offset.toNat / 4)) ∧
    (up = false → exec (.windowWrite port offset bytes) s = .next s ∧ exec (.windowRead port offset length) s = .next s) ∧
    (up = true → s.ready = false →
      exec (.windowWrite port offset bytes) s = .next s ∧
      exec (.windowRead port offset length) s = .next (s.emitOut (.hostReply k .unsupportedRequest))) ∧
    (up = true → s.ready = true → s.windowAt k offset.toNat false = none →
      exec (.windowRead port offset length) s = .next (s.emitOut (.hostReply k .completerAbort))) ∧
    (up = true → s.ready = true → ∀ slot a, s.windowAt k offset.toNat false = some (slot, a) →
      let r := s.resolve (portDie k) slot a .r
      onePart r length.val →
      (r.2.2.2.serveRead r.2.2.2.self (r.2.2.2.ctxOf slot) r.2.1.space 2 r.2.1.off length.val).1 = .done →
      answers (.windowRead port offset length) s fun t => t.sets = s.sets ∧ t.mem.a = s.mem.a ∧ t.mem.b = s.mem.b ∧
        t.out.head? = some (.hostReply k (.data ((s.tier r.2.1.space).read 0 r.2.1.off length.val))))

/-- Service ports: link state, the queue pair of an export channel, inbound writes placed or refused, acknowledgements, timeouts.
ETH_LINK_CHANGE sets ETH_STATE and the port's ETH_UP bit (training only when ready, powered and not fenced). A write of an
export channel's first word moves its pair to VALID, takes START_PSN or 0 as the PSN, forgets rate reductions, and ends the
channel's outstanding writes. An inbound write on a ready pair with the channel's key that the window admits stores its bytes
(an immediate rings the channel's doorbell when DB_VALID is 1); any other is answered with a NAK and the pair enters the error
state; on a channel that is not valid it is dropped and counted in RX_DROPS, and on a pair in error nothing happens. An
acknowledgement ends the operation, a NAK or a timeout ends it with ACCESS or TIMEOUT and the pair enters the error state, a
timeout counting 7 retransmissions. A congestion notification reduces the rate of a ready pair once more. Rests on the model's
choices of log entries 4, 73, 109, 113. -/
def Obligations.ServicePortsAndExportChannels : Prop :=
  ∀ (s : State) (port : Fin 2) (up : Fin 4) (p : Path) (channel : Fin 64) (word key : Word) (psn : BitVec 24) (isWrite nak : Bool)
      (addr : BitVec 64) (bytes : List Byte) (imm : Option Word),
    let c := channel.val
    let inbound := Instr.inboundRdmaWrite port channel psn key isWrite addr bytes imm
    let qp := MBX_T_QP_STATE.addr c 0
    let isRead := fun q : RdmaPending => match q.op with | .read _ _ _ => True | _ => False
    let noted := fun (st : Nat) (q : RdmaPending) (t : State) => t.frzSlot q.slot = { s.frzSlot q.slot with
      exporting := (s.frzSlot q.slot).exporting.map fun x => if x.status = 0 then { x with status := st } else x }
    (up = 0 ∨ (s.ready = true ∧ s.pwr.mode = .on ∧ s.get HNG_MODULE_FENCED = 0 ∧ s.dieOn (serviceDie port.val) = true) →
      answers (.ethLinkChange port up) s fun t => t = { s with regs := t.regs } ∧
        s.wordsBut t [MBX_K_ETH_STATE.addr port.val 0, MBX_ETH_UP.addr 0 0] ∧ t.getF MBX_K_ETH_STATE port.val 0 = up.val ∧
        bit (t.get MBX_ETH_UP) port.val = decide (2 ≤ up.val)) ∧
    (s.reached p (MBX_T_VALID.addr c 0) → (∀ q ∈ s.mbx.rdma, q.channel = c → ¬ isRead q) →
      answers (.exportChannelValid p channel word) s fun t => t.sets = s.sets ∧ t.mem = s.mem ∧
        t.getF MBX_T_VALID c 0 = word.toNat % 2 ∧ t.getF MBX_T_QP_STATE c 0 = word.toNat % 2 ∧
        t.mbx.rdma = s.mbx.rdma.filter (fun q => decide (q.channel ≠ c)) ∧ t.mbx.slowed.get 0 c = 0 ∧
        t.mbx.psn.get 0 c = (if word.toNat % 2 = 1 then s.getF MBX_T_START_PSN c 0 else 0)) ∧
    (s.ethUp port.val = true → s.getF MBX_T_VALID c 0 = 0 → answers inbound s fun t => t = { s with regs := t.regs } ∧
      s.wordsBut t [MBX_K_RX_DROPS.addr port.val 0] ∧
      t.getF MBX_K_RX_DROPS port.val 0 = min MBX_K_RX_DROPS.top (s.getF MBX_K_RX_DROPS port.val 0 + 1)) ∧
    (s.ethUp port.val = true → s.getF MBX_T_VALID c 0 = 1 → s.getF MBX_T_QP_STATE c 0 ≠ 1 → exec inbound s = .next s) ∧
    (s.ethUp port.val = true → s.getF MBX_T_VALID c 0 = 1 → s.getF MBX_T_QP_STATE c 0 = 1 → s.storageWaits c = false →
      (isWrite = false ∨ key.toNat ≠ 0x480000 + c ∨ s.storagePlace port.val c addr.toNat bytes = none →
        answers inbound s fun t => t = { s with regs := t.regs, out := .rdma c (.nak psn.toNat) :: s.out } ∧
          s.wordsBut t [qp] ∧ t.getF MBX_T_QP_STATE c 0 = 2) ∧
      (isWrite = true → key.toNat = 0x480000 + c → s.getF MBX_T_INBOUND c 0 = 1 →
        s.get64 MBX_T_LOCAL_BASE_LO MBX_T_LOCAL_BASE_HI c ≤ addr.toNat →
        addr.toNat + bytes.length ≤ s.get64 MBX_T_LOCAL_BASE_LO MBX_T_LOCAL_BASE_HI c + 2 ^ 21 * s.getF MBX_T_LOCAL_PAGES c 0 →
        ∀ slot, s.slotOf (s.getF MBX_T_CONTEXT c 0) = some slot → s.partFenced slot = false →
        let r := s.resolve (serviceDie port.val) slot addr.toNat .w
        onePart r bytes.length →
        (r.2.2.2.serveWrite r.2.2.2.self (r.2.2.2.ctxOf slot) r.2.1.space 2 r.2.1.off bytes).1 = .done →
        answers inbound s fun t => s.storesAt t r.2.1.space r.2.1.off bytes ∧ t.getF MBX_T_QP_STATE c 0 = 1 ∧
          (imm = none ∨ s.getF MBX_T_DB_VALID c 0 = 0 → t.sets = s.sets))) ∧
    (∀ q, s.rdmaOf c psn.toNat = some q →
      (s.getF MBX_T_QP_STATE c 0 = 1 → ¬ isRead q → answers (.rdmaAck channel psn nak bytes) s fun t =>
        t.mbx.rdma = s.mbx.rdma.filter (fun x => decide (x ≠ q)) ∧ t.sets = s.sets ∧
        (nak = false → t = { s with mbx := { s.mbx with rdma := t.mbx.rdma } }) ∧
        (nak = true → s.wordsBut t [qp] ∧ t.getF MBX_T_QP_STATE c 0 = 2 ∧ noted 3 q t)) ∧
      (s.getF MBX_T_QP_STATE c 0 = 1 → isRead q → nak = false →
        ∃ o n k, q.op = .read o n k ∧ exec (.rdmaAck channel psn nak bytes) s = .next
          ({ s with mbx := { s.mbx with rdma := s.mbx.rdma.filter fun x => decide (x ≠ q) } }.restoreGot q.slot .done
            (padTo k 0 bytes))) ∧
      (¬ isRead q → answers (.rdmaTimeout channel psn) s fun t =>
        t.mbx.rdma = s.mbx.rdma.filter (fun x => decide (x ≠ q)) ∧ t.sets = s.sets ∧ t.getF MBX_T_QP_STATE c 0 = 2 ∧ noted 2 q t ∧
        t.getF MBX_K_RETRANSMITS (s.getF MBX_T_PORT c 0 % 2) 0 =
          min MBX_K_RETRANSMITS.top (s.getF MBX_K_RETRANSMITS (s.getF MBX_T_PORT c 0 % 2) 0 + 7))) ∧
    (s.getF MBX_T_QP_STATE c 0 = 1 → answers (.congestionNotificationPacket channel) s fun t =>
      t = { s with mbx := { s.mbx with slowed := t.mbx.slowed } } ∧ t.mbx.slowed.get 0 c = s.mbx.slowed.get 0 c + 1 ∧
      ∀ j, j ≠ c → t.mbx.slowed.get 0 j = s.mbx.slowed.get 0 j)

/-- A register write: every field of the word follows its access code, no other word changes, and an unreached path changes
nothing. A write by a path that reaches the word, of a word that is neither half of a 64-bit pair nor a command, leaves every
field of the word as its access code says: RW takes the value (under the limit its Meaning puts on it), RO and WO keep it, a 1
clears a W1C bit and sets a W1S bit, and RWL takes the value only until start has ended; every other word and everything else
but the path's entry is unchanged. In the MIS block a write changes nothing while PERMIT is 0. An access through a path that
does not reach the word takes the path's entry and does nothing else; through a path that is down, or without a free entry, it
does nothing at all. (Words a command reads: the statements of those commands.) Rests on the model's choices of log entry 76. -/
def Obligations.RegisterWritesFollowTheAccessCodes : Prop :=
  ∀ (s : State) (p : Path) (addr : CtlAddr) (value : Word),
    let a := addr.toNat
    let v := value.toNat
    (s.reached p a → commandWord a = false → a % 4 = 0 → pairLow a = false → pairHigh a = false →
      answers (.registerWrite p addr value) s fun t => t = { s with regs := t.regs, paths := t.paths } ∧ t.path p = s.path p ∧
        (∀ q, q ≠ p → t.path q = s.path q) ∧ s.wordsBut t [a] ∧ s.fieldsWritten t a v) ∧
    (s.reached p a → a / 0x10000 = 0xF → a % 4 = 0 →
      (s.get MIS_PERMIT = 0 → exec (.registerWrite p addr value) s = .next (s.touchPath p)) ∧
      (s.get MIS_PERMIT = 1 → MIS_I_BYTE.at a = false →
        answers (.registerWrite p addr value) s fun t => t.path p = s.path p ∧ s.wordsBut t [a] ∧ s.fieldsWritten t a v)) ∧
    (s.pathUp p = true → s.pathOk p = true → s.reaches p a = false → s.holdsCmd p = false ∨ startWrite p a v = none →
      exec (.registerWrite p addr value) s = .next (s.touchPath p)) ∧
    (s.pathUp p = false ∨ s.pathOk p = false → exec (.registerWrite p addr value) s = .next s)

/-- 64-bit values: a low read latches the high word for the next high read; a low write is held until the high write updates both.
Each path keeps one latch and one held word. A read of the low word of a 64-bit value returns its current value and latches
the value's high word, replacing what was latched; the first read of that high word returns the latched value and releases the
latch; every other read of a high word returns its current value. A write of a low word is held aside, replacing what was
held; a write of the high word of the same value then writes both words at once and releases the held word; without a held low
word of that value it writes the high word and leaves the low word unchanged. (Pairs of plain registers: a routing entry is
checked as a whole first, R356, and a group entry goes to its shadow, R364; their rows have statements of their own.) -/
def Obligations.PairsOfWordsActAsOneValue : Prop :=
  ∀ (s : State) (p : Path) (addr : CtlAddr) (value : Word),
    let a := addr.toNat
    let x := s.path p
    let plain := fun b => commandWord b = false ∧ b % 4 = 0
    s.reached p a →
    (pairLow a = true →
      exec (.pairLowRead p addr) s = .next ((s.setPath p { x with latch := some (a + 4, BitVec.ofNat 32 (s.wordSeen p (a + 4))) }).emitOut
        (.readData p a (s.wordSeen p a)))) ∧
    (pairHigh a = true → pairLow a = false →
      (∀ w, x.latch = some (a, w) →
        exec (.pairHighRead p addr) s = .next ((s.setPath p { x with latch := none }).emitOut (.readData p a w.toNat))) ∧
      ((∀ w, x.latch ≠ some (a, w)) →
        exec (.pairHighRead p addr) s = .next ((s.touchPath p).emitOut (.readData p a (s.wordSeen p a))))) ∧
    (pairLow a = true → exec (.pairLowWrite p addr value) s = .next (s.setPath p { x with held := some (a, value) })) ∧
    (pairHigh a = true → pairLow a = false → plain (a - 4) → plain a →
      (∀ w, x.held = some (a - 4, w) →
        answers (.pairHighWrite p addr value) s fun t => t = { s with regs := t.regs, paths := t.paths } ∧
          t.path p = { x with held := none } ∧ s.wordsBut t [a - 4, a] ∧ s.fieldsWritten t (a - 4) w.toNat ∧
          s.fieldsWritten t a value.toNat) ∧
      ((∀ w, x.held ≠ some (a - 4, w)) →
        answers (.pairHighWrite p addr value) s fun t => t = { s with regs := t.regs, paths := t.paths } ∧
          t.path p = x ∧ s.wordsBut t [a] ∧ s.fieldsWritten t a value.toNat))

/-- An unassigned control-space address reads zero, discards writes, and completes with DONE on every path. A read of an
unassigned address of the control space by a path that reaches it returns zero, and a write to it is discarded: but for the
path's entry and the data driven outwards, nothing changes. The same holds of a control-space request that arrives over the
fabric: it is served with DONE, with data of zero for a load. -/
def Obligations.UnassignedAddressesReadZero : Prop :=
  ∀ (s : State) (p : Path) (addr : CtlAddr) (value : Word),
    let a := addr.toNat
    unassigned a = true → s.reached p a →
    exec (.pairHighRead p addr) s = .next ((s.touchPath p).emitOut (.readData p a 0)) ∧
    answers (.registerWrite p addr value) s (fun t => t = { s with regs := t.regs, paths := t.paths } ∧ t.path p = s.path p ∧
      s.wordsBut t []) ∧
    ∀ src ctx, p = .fabric src → a % 4 = 0 → s.get HNG_MODULE_FENCED = 0 →
      (s.ctlIn src.toNat ctx a none).1 = .done ∧ (s.ctlIn src.toNat ctx a none).2.1 = [0, 0, 0, 0] ∧
      (s.ctlIn src.toNat ctx a (some value.toNat)).1 = .done

/-- PATH_ENTRY_EXPIRY: a fabric source's entry is freed with its state, unless the source owns the staging buffer. An expiry of a
source module that does not own the staging buffer removes its entry, so that its path reads as fresh (latch, held word,
cursor, view, nonce and report at their Defaults), and leaves every other path and everything else unchanged. The entry of the
owner stays. Rests on the model's choices of log entries 4, 14. -/
def Obligations.IdlePathEntriesAreFreed : Prop :=
  ∀ (s : State) (src : BitVec 12),
    (s.boot.owner ≠ some (.fabric src) → answers (.pathEntryExpiry src) s fun t =>
      t = { s with paths := { s.paths with fabric := t.paths.fabric } } ∧ t.path (.fabric src) = PathState.init ∧
      ∀ q, q ≠ .fabric src → t.path q = s.path q) ∧
    (s.boot.owner = some (.fabric src) → exec (.pathEntryExpiry src) s = .next s)

/-- Memory channels: a grant slot serves the request that the rule of R221 names; promotion and window ends change only their
channel. In a grant slot of a unit in service that is not lost, with fewer than 64 grants in the window, the arrivals join the
queue (an older request to the same line takes the higher class) and the request served is: the oldest promoted one unless the
last grant was promoted; else the oldest of class 0 that waits behind no older request to its line; else the oldest of class 3
while the reserve lasts; else the oldest of the highest waiting class. It leaves the queue, the grant is counted (and against
the reserve, and in AGED, where it says so), and no byte of memory changes. With nothing waiting, and once the window is full,
the arrivals only wait. PROMOTION marks the head of its class; a window end clears both counts. Tier C has no channels:
nothing changes. Rests on the model's choices of log entries 4, 129, 144, 147. -/
def Obligations.ChannelsGrantByClass : Prop :=
  ∀ (s : State) (tier : Tier) (unit : Fin 16) (channel : Fin 32) (arrivals : List (Fin 4 × Nat)) (upset : Upset) (cls : Fin 4),
    let grant := Instr.channelGrant tier unit channel arrivals upset
    let fixed := fun (k : Nat) (t : State) => t = { s with mem := { s.mem with chans := t.mem.chans } } ∧
      ∀ j, j ≠ k → t.mem.chans.get Chan.init j = s.mem.chans.get Chan.init j
    (tier = .c → exec grant s = .next s ∧ exec (.promotion tier unit channel cls) s = .next s ∧
      exec (.reserve3WindowEnd tier unit channel) s = .next s) ∧
    ∀ n, tierNum tier = some n →
      let k := chanKey n unit.val channel.val
      let c := s.mem.chans.get Chan.init k
      let q := arrivals.foldl (fun (c : Chan) a => { c with queue :=
        (c.queue.map fun r => if r.line = a.2 then { r with cls := min r.cls a.1.val } else r) ++ [⟨a.1.val, a.2, false⟩] }) c
      let first := fun p : LineReq → Bool => q.queue.find? p
      let head := fun n : Nat => (fronts [] q.queue).find? fun r => decide (r.cls = n)
      let aged := if q.lastPromoted then none else first LineReq.promoted
      let pick := aged <|> head 0 <|> (if q.used3 < s.get MEM_RESERVE3 then head 3 else none) <|> head 1 <|> head 2 <|> head 3
      let reserved := aged = none ∧ head 0 = none ∧ q.used3 < s.get MEM_RESERVE3 ∧ head 3 ≠ none
      (s.ready = true → s.unitLost n unit.val = false → unit.val ∈ s.unitsIn n →
        (c.grants < 64 → ∀ r, pick = some r → answers grant s fun t => t.mem.a = s.mem.a ∧ t.mem.b = s.mem.b ∧
          (t.unitLost n unit.val = false → (t.mem.chans.get Chan.init k).queue = q.queue.erase r ∧
            (t.mem.chans.get Chan.init k).grants = c.grants + 1 ∧ (t.mem.chans.get Chan.init k).lastPromoted = r.promoted ∧
            (reserved → (t.mem.chans.get Chan.init k).used3 = c.used3 + 1) ∧
            (¬ reserved → (t.mem.chans.get Chan.init k).used3 = c.used3)) ∧
          (r.promoted = true → 1 ≤ r.cls → r.cls ≤ 3 →
            t.getF MEM_AGED (r.cls - 1) 0 = (s.getF MEM_AGED (r.cls - 1) 0 + 1) % 2 ^ 32)) ∧
        (64 ≤ c.grants ∨ pick = none → answers grant s fun t => fixed k t ∧ t.mem.chans.get Chan.init k = q)) ∧
      (cls.val ≠ 0 → ∀ r, ((fronts [] c.queue).find? fun r => decide (r.cls = cls.val)) = some r →
        answers (.promotion tier unit channel cls) s fun t => fixed k t ∧
          t.mem.chans.get Chan.init k = { c with queue := c.queue.map fun x => if x = r then { x with promoted := true } else x }) ∧
      (64 ≤ c.grants → answers (.reserve3WindowEnd tier unit channel) s fun t => fixed k t ∧
        t.mem.chans.get Chan.init k = { c with grants := 0, used3 := 0 }) ∧
      (c.grants < 64 → exec (.reserve3WindowEnd tier unit channel) s = .next s)

/-- Memory errors: write-backs, correction records, patrol, lost units, tier C wear and read-only; no byte of memory changes. A
corrected line's write-back clears its correctable error and no other. A unit whose corrections reach a CE_RECORD_AT that is
not 0 is recorded once with MEM_CE_HIGH. A patrol read moves patrol on by one line, wrapping past tier B's last with
PATROL_PASSES raised. A unit in service that is lost while it holds requests empties its channels, reads as lost with
RETIRE_PENDING, answers every later read with TIMEOUT and causes a warm reset. At LIFE_USED_BP of WEAR_WARN_BP a mounted tier
C writes one wear record. When its spare blocks fall to 2 % tier C becomes read-only, every later write completes with
NO_RESOURCE, and a record is written. None of these changes a byte of tiers A and B. Rests on the model's choices of log
entries 4, 143, 144, 147. -/
def Obligations.MemoryUnitsReportAndRecover : Prop :=
  ∀ (s : State) (tier : Tier) (unit : Fin 16) (kind : Fin 4) (upset : Upset) (spare : Fin 101),
    let bytes := fun t : State => t.mem.a = s.mem.a ∧ t.mem.b = s.mem.b ∧ t.tierC.bytes = s.tierC.bytes
    (∀ n l ws, s.mem.writebacks = (n, l) :: ws → n < 2 → answers .correctedWriteback s fun t =>
      bytes t ∧ t = { s with mem := t.mem } ∧ t.mem.writebacks = ws ∧
      ∀ m < 2, ∀ j, t.lineErr m j = if m = n ∧ j = l ∧ s.lineErr n l = 1 then 0 else s.lineErr m j) ∧
    (let k := 16 * kind.val + unit.val
     let n := s.ceCount kind.val unit.val
     let code := if kind.val = 1 then 4 else if kind.val = 2 then 5 else 3
     let due := unit.val < ceUnits kind.val ∧ s.get MEM_CE_RECORD_AT ≠ 0 ∧ s.get MEM_CE_RECORD_AT ≤ n ∧
       s.mem.ceRecorded.get false k = false
     (due → answers (.ceRecordThreshold kind unit) s fun t => bytes t ∧ t.regs = s.regs ∧
       s.recorded t .data RT_MEM_CE_HIGH code unit.val 0 [kind.val, n] ∧ t.mem.ceRecorded.get false k = true) ∧
     (¬ due → exec (.ceRecordThreshold kind unit) s = .next s)) ∧
    (let lines := s.tierSize 0 / 64 + s.tierSize 1 / 64
     let p := if s.mem.patrol < lines then s.mem.patrol else 0
     s.ready = true → s.pwr.mode = .on → s.get MEM_PATROL_S ≠ 0 → lines ≠ 0 → answers (.patrolRead upset) s fun t =>
       bytes t ∧ t.mem.patrol = (p + 1) % lines ∧ t.get MEM_PATROL_PASSES =
         if p + 1 = lines then (s.get MEM_PATROL_PASSES + 1) % 2 ^ 32 else s.get MEM_PATROL_PASSES) ∧
    (∀ n, tierNum tier = some n → unit.val ∈ s.unitsIn n → s.unitLost n unit.val = false →
      ((∃ c < 32, (s.mem.chans.get Chan.init (chanKey n unit.val c)).queue ≠ []) →
        answers (.unitLost tier unit) s fun t => bytes t ∧ t.unitLost n unit.val = true ∧
          (∀ c < 32, t.mem.chans.get Chan.init (chanKey n unit.val c) = Chan.init) ∧
          (if n = 0 then t.getF MEM_STACK_RETIRE_PENDING unit.val 0 = 1 ∧ t.getF MSC_LOST unit.val 0 = 1
            else bit (t.getF MEM_CTRL_STATUS unit.val 0) 25 = true) ∧
          (∀ cl line, t.unitOf n (64 * line) = unit.val → t.readLine n cl line = (.timeout, t)) ∧
          ∃ j ∈ t.hng.jobs, j.level = 4) ∧
      ((∀ c < 32, (s.mem.chans.get Chan.init (chanKey n unit.val c)).queue = []) →
        exec (.unitLost tier unit) s = .next s)) ∧
    (let due := s.get MEM_WEAR_WARN_BP ≤ s.get MEM_LIFE_USED_BP ∧ s.tierC.warned = false ∧ s.get MEM_C_STATE ≠ 0
     (due → answers .wearWarning s fun t => bytes t ∧ t.regs = s.regs ∧ t.tierC = { s.tierC with warned := true } ∧
       s.recorded t .data RT_TIER_C_WEAR 5 0 0 [s.get MEM_LIFE_USED_BP, s.get MEM_SPARE_LEFT]) ∧
     (¬ due → exec .wearWarning s = .next s)) ∧
    (let left := min spare.val (s.get MEM_SPARE_LEFT)
     s.get MEM_C_STATE ≠ 0 → answers (.tierCReadonly spare) s fun t => bytes t ∧ t.get MEM_SPARE_LEFT = left ∧
       s.wordsBut t [MEM_SPARE_LEFT.addr 0 0, MEM_C_STATE.addr 0 0] ∧
       (if left ≤ 2 ∧ s.get MEM_C_STATE = 1 then
          t.get MEM_C_STATE = 2 ∧ s.recorded t .data RT_TIER_C_READONLY 5 0 0 [s.get MEM_LIFE_USED_BP, left] ∧
          ∀ block bs who, t.tcWrite block bs who = (.noResource, t)
        else t.get MEM_C_STATE = s.get MEM_C_STATE ∧ t.dcd = s.dcd))

/-- LOAD, READ_BLOCK, CTL_LOAD and PIECE_READ from another module are served once and answered with the bytes read. A read of
another module that arrives in its EPOCH with a fresh number, with no other arrival held, is answered on the VC of its class
with the status of the read at its destination and, with DONE, the bytes there: 1 to 8 bytes of a tier for LOAD (ILLEGAL for
another size), up to 4,096 for READ_BLOCK, the word of a control-space address for CTL_LOAD where context 0's table admits the
source (ACCESS where not), tier C blocks of the context's areas for PIECE_READ when none is unreadable (FENCED, NO_RESOURCE,
ACCESS where R427 says). A space not served completes with ACCESS. The number is then recorded with that answer; no byte of
memory and no set changes. Rests on the model's choices of log entries 79, 80. -/
def Obligations.FabricReadsAreAnswered : Prop :=
  ∀ (s : State) (src : BitVec 12) (seq ctx : BitVec 16) (epoch size : BitVec 8) (space : BitVec 2) (off : BitVec 48) (len : BitVec 32)
      (area : Fin 4) (first blocks : BitVec 30) (n : Nat),
    let ep := s.epoch % 256
    let p := Path.fabric src
    let fresh := fun vc : Nat => s.hears vc = true ∧ epoch.toNat = ep ∧
      (s.rxPair src.toNat vc).takes vc seq.toNat = .fresh n ∧ s.fab.held = [] ∧ ∀ e ∈ (s.rxPair src.toNat vc).got, e.seq ≠ n
    let answered := fun (vc st : Nat) (data : List Byte) (t : State) =>
      t.out.head? = some (.response src.toNat (answerVc vc) false ctx.toNat seq.toNat st ep data) ∧
      (t.rxPair src.toNat vc).takes (if vc = 6 then 1 else vc) seq.toNat = .again ⟨n, st, data⟩
    let kept := fun t : State => t.mem.a = s.mem.a ∧ t.mem.b = s.mem.b ∧ t.tierC.bytes = s.tierC.bytes ∧ t.sets = s.sets
    (fresh 1 → ∀ e ∈ ([(.load src epoch seq ctx space off size, 0, size.toNat),
        (.readBlock src epoch seq ctx space off len, 2, min 4096 len.toNat)] : List (Instr × Nat × Nat)),
      let served := s.serveRead src.toNat ctx.toNat space.toNat e.2.1 off.toNat e.2.2
      (2 ≤ space.toNat → answers e.1 s fun t => answered 1 3 [] t ∧ kept t) ∧
      (space.toNat < 2 → s.replayOwned space.toNat off.toNat e.2.2 = false → e.2.1 = 2 ∨ (1 ≤ e.2.2 ∧ e.2.2 ≤ 8) →
        answers e.1 s fun t => kept t ∧
          answered 1 served.1.num (if served.1 = .done then (s.tier space.toNat).read 0 off.toNat e.2.2 else []) t) ∧
      (space.toNat < 2 → s.replayOwned space.toNat off.toNat e.2.2 = false → e.2.1 = 0 → e.2.2 = 0 ∨ 8 < e.2.2 →
        answers e.1 s fun t => answered 1 11 [] t ∧ kept t)) ∧
    (fresh 0 → s.get HNG_MODULE_FENCED = 0 → off.toNat < 0x4000000 → off.toNat % 4 = 0 →
      (s.ctx0Admits src.toNat 2 = false → answers (.ctlLoad src epoch seq ctx off) s fun t => answered 0 3 [] t ∧ kept t) ∧
      (s.reached p off.toNat → pairLow off.toNat = false → pairHigh off.toNat = false →
        answers (.ctlLoad src epoch seq ctx off) s fun t => answered 0 0 (toBytes 4 (s.wordSeen p off.toNat)) t ∧ kept t)) ∧
    (s.hears 6 = true → epoch.toNat = ep → (s.rxPair src.toNat 6).takes 1 seq.toNat = .fresh n →
      (∀ e ∈ (s.rxPair src.toNat 6).got, e.seq ≠ n) →
      let c := Instr.pieceRead src epoch seq ctx area first blocks
      let f := first.toNat
      let m := blocks.toNat
      (s.slotOf ctx.toNat = none → answers c s fun t => answered 6 3 [] t ∧ kept t) ∧
      ∀ i, s.slotOf ctx.toNat = some i →
        (s.fencedSlot i = true → answers c s fun t => answered 6 1 [] t ∧ kept t) ∧
        (s.fencedSlot i = false → s.tcMounted = false → answers c s fun t => answered 6 12 [] t ∧ kept t) ∧
        (s.fencedSlot i = false → s.tcMounted = true →
          (s.areaSize i area.val < f + m → answers c s fun t => answered 6 3 [] t ∧ kept t) ∧
          (f + m ≤ s.areaSize i area.val → s.areaFirst i area.val + s.areaSize i area.val ≤ s.getF CTX_S_EXT_BLOCKS i 0 →
            (∀ k < m, s.tierC.bad.get false (s.areaBlock i area.val f + k) = false) →
            answers c s fun t => kept t ∧
              answered 6 0 (s.tierC.bytes.read 0 (4096 * s.areaBlock i area.val f) (4096 * m)) t)))

/-- STORE, WRITE_BLOCK, REMOTE_FILL, AMO and CTL_STORE from another module act once and are answered with their status. A write of
another module that arrives in its EPOCH with a fresh number, with no other arrival held and room in the journal, is
acknowledged with the status of the write at its destination; with DONE the bytes there are the request's (1 to 8 of the value
for STORE, up to 4,096 for WRITE_BLOCK, the 8-byte pattern repeated for REMOTE_FILL, the atomic's new word for AMO, whose old
word is the data of its answer unless it is posted), and every other byte of tiers A and B is unchanged. CTL_STORE of a plain
word that the source's path reaches leaves each field as its access code says. A space not served completes with ACCESS. No
set changes. Rests on the model's choices of log entry 79. -/
def Obligations.FabricWritesAreAcknowledged : Prop :=
  ∀ (s : State) (src : BitVec 12) (seq ctx : BitVec 16) (epoch size func : BitVec 8) (space : BitVec 2) (off : BitVec 48)
      (value operand compare : DWord) (data : List Byte) (len : BitVec 32) (word : Word) (posted : Bool) (n : Nat),
    let ep := s.epoch % 256
    let p := Path.fabric src
    let fresh := fun (vc : Nat) (op : ReqOp) => s.hears vc = true ∧ epoch.toNat = ep ∧
      (s.rxPair src.toNat vc).takes vc seq.toNat = .fresh n ∧ s.fab.held = [] ∧
      s.inputWaits ⟨src.toNat, vc, seq.toNat, ctx.toNat, space.toNat, off.toNat, op⟩ = false
    let answered := fun (vc : Nat) (ack : Bool) (st : Nat) (d : List Byte) (t : State) =>
      t.out.head? = some (.response src.toNat (answerVc vc) ack ctx.toNat seq.toNat st ep d)
    let fill := (List.range (min 4096 len.toNat)).map fun i => BitVec.ofNat 8 (value.toNat / 256 ^ (i % 8))
    (∀ e ∈ ([(.store src epoch seq ctx space off size value, 1, .store (toBytes size.toNat value.toNat),
          (List.range size.toNat).map fun i => BitVec.ofNat 8 (value.toNat / 256 ^ i)),
        (.writeBlock src epoch seq ctx space off data, 7, .writeBlock (data.take 4096), data.take 4096),
        (.remoteFill src epoch seq ctx space off value len, 7, .fill value.toNat (min 4096 len.toNat), fill)] :
        List (Instr × Nat × ReqOp × List Byte)), fresh e.2.1 e.2.2.1 →
      let st := (s.serveWrite src.toNat ctx.toNat space.toNat 2 off.toNat e.2.2.2).1
      (2 ≤ space.toNat → answers e.1 s fun t => answered e.2.1 true 3 [] t ∧ t.mem = s.mem ∧ t.sets = s.sets) ∧
      (space.toNat < 2 → s.replayOwned space.toNat off.toNat e.2.2.2.length = false →
        e.2.1 = 7 ∨ (1 ≤ size.toNat ∧ size.toNat ≤ 8) →
        answers e.1 s fun t => answered e.2.1 true st.num [] t ∧ t.sets = s.sets ∧
          (st = .done → s.storesAt t space.toNat off.toNat e.2.2.2))) ∧
    (let r := s.serveAmo src.toNat ctx.toNat 0 (if posted then 2 else 0) func.toNat off.toNat operand.toNat compare.toNat
     let k := amoSize func.toNat
     let old := ofBytes (s.mem.a.read 0 off.toNat k)
     fresh 1 (.amo func.toNat operand.toNat compare.toNat) → space.toNat = 0 → func.toNat ≤ 11 →
      s.replayOwned 0 off.toNat k = false →
      answers (.amo src epoch seq ctx space off func operand compare posted) s fun t => t.sets = s.sets ∧
        answered 1 posted r.1.num (if posted = true ∨ r.1 ≠ .done then [] else toBytes 8 old) t ∧
        (r.1 = .done → s.storesAt t 0 off.toNat (toBytes k (amoValue func.toNat old operand.toNat compare.toNat)))) ∧
    (s.hears 0 = true → epoch.toNat = ep → (s.rxPair src.toNat 0).takes 0 seq.toNat = .fresh n → s.fab.held = [] →
      s.get HNG_MODULE_FENCED = 0 → s.reached p off.toNat → off.toNat < 0x4000000 → off.toNat % 4 = 0 →
      commandWord off.toNat = false → pairLow off.toNat = false → pairHigh off.toNat = false →
      answers (.ctlStore src epoch seq ctx off word) s fun t => answered 0 true 0 [] t ∧ t.mem = s.mem ∧ t.sets = s.sets ∧
        s.wordsBut t [off.toNat] ∧ s.fieldsWritten t off.toNat word.toNat)

/-- Window additions: each element takes its addend, converted for the block's exponent, and one out of range leaves it and flags.
A row of addends into a window block whose lines lie on this module, pass the owner's checks and can be read, under an entry
of the active exponent table that R197 admits, adds to each element its addend converted to the window's unit, modulo the
element's width; an addend out of range leaves its element and sets the step's OVERRANGE flag. Every byte outside the block is
unchanged, as is every set. For a request of another module the answer is DONE, or OVERRANGE. A row of another length, of a
powered-off die, of a free or fenced slot, or with a W48 pattern that R163 does not produce, adds nothing. XLATE_FILL fills a
miss of a die's cache with the entry of the span that holds the address, counting the miss. Rests on the model's choices of
log entries 4, 83, 135, 136. -/
def Obligations.WindowAdditionsAddEachAddend : Prop :=
  ∀ (s : State) (die : Fin 4) (slot : Fin 32) (wa : Bool) (addr : BitVec 56) (expIndex : BitVec 16) (srcFmt : Fin 3)
      (addends : List (BitVec 48)) (src : BitVec 12) (epoch : BitVec 8) (seq ctx : BitVec 16) (off : BitVec 48) (row : List Byte),
    let w : Window := if wa then .wa160 else .bw48
    let xs := addends.map fun b => srcValue srcFmt.val (b.toNat % 2 ^ (8 * srcSize srcFmt.val))
    let b := s.blockLines die.val slot.val addr.toNat (w.block / 64)
    let formed := s.dieOn die.val = true ∧ s.getF CTX_S_STATE slot.val 0 ≠ 0 ∧ s.fencedSlot slot.val = false ∧
      addends.length = 64 ∧ ∀ x ∈ xs, x ≠ none
    let lines := fun (u : State) (offs : List Nat) => offs.flatMap fun o => u.mem.a.read 0 o 64
    let apart := fun offs : List Nat => offs.Pairwise fun a b => a + 64 ≤ b ∨ b + 64 ≤ a
    let adds := fun (i beta headroom : Nat) (offs : List Nat) (ys : List FP) (t : State) =>
      t.sets = s.sets ∧ t.mem.b = s.mem.b ∧
      (∀ a, (∀ o ∈ offs, a < o ∨ o + 64 ≤ a) → t.mem.a.get 0 a = s.mem.a.get 0 a) ∧
      elemsOf w.size (lines t offs) = List.zipWith (fun old y => match windowAddend w beta headroom y with
        | some v => windowAddOne w old v
        | none => old) (elemsOf w.size (lines s offs)) ys ∧
      ((∃ y ∈ ys, windowAddend w beta headroom y = none) → t.getF CTX_S_STEP_OVERRANGE i 0 = 1)
    let good := fun (u : State) (from_ c i a : Nat) (offs : List Nat) (ys : List FP) (k : Nat) (e : ExpEntry) (beta : Nat) =>
      apart offs ∧ (u.guardLines from_ c offs).1 = .done ∧ (u.expEntry i expIndex.toNat).1 = .done ∧
      (u.expEntry i expIndex.toNat).2.1 = some e ∧ e.index w a = (.done, k) ∧
      ((u.expEntry i expIndex.toNat).2.2.blockExp i e k).1 = .done ∧ ((u.expEntry i expIndex.toNat).2.2.blockExp i e k).2.1 = beta ∧
      let r := ((u.expEntry i expIndex.toNat).2.2.blockExp i e k).2.2.addRow w offs (ys.map (windowAddend w beta e.headroom)) none 0
      r.1 = .done ∨ r.1 = .overrange
    (formed → b.1 = .done → b.2.1 = b.2.2.2.self → ∀ k e beta,
      good b.2.2.2 b.2.2.2.self (b.2.2.2.ctxOf slot.val) slot.val addr.toNat b.2.2.1 (xs.filterMap id) k e beta →
      answers (.windowAddition die slot wa addr expIndex srcFmt addends) s
        (adds slot.val beta e.headroom b.2.2.1 (xs.filterMap id))) ∧
    (¬ formed → exec (.windowAddition die slot wa addr expIndex srcFmt addends) s = .next s) ∧
    (let offs := (List.range (w.block / 64)).map fun i => off.toNat + 64 * i
     let ys := (elemsOf (srcSize srcFmt.val) row).map (srcValue srcFmt.val)
     let c := Instr.windowAdd src epoch seq ctx 0 off wa (BitVec.ofNat 4 srcFmt.val) expIndex row
     s.hears 3 = true → epoch.toNat = s.epoch % 256 → ∀ n, (s.rxPair src.toNat 3).takes 3 seq.toNat = .fresh n → s.fab.held = [] →
      s.inputWaits ⟨src.toNat, 3, seq.toNat, ctx.toNat, 0, off.toNat, .windowAdd expIndex.toNat wa srcFmt.val row⟩ = false →
      s.replayOwned 0 off.toNat w.block = false → row.length = 64 * srcSize srcFmt.val → (∀ y ∈ ys, y ≠ none) →
      ∀ i a k e beta, s.ownerSlot 0 off.toNat = some i → s.unresolve i 0 off.toNat = some a →
      good s src.toNat ctx.toNat i a offs (ys.filterMap id) k e beta →
      answers c s fun t => adds i beta e.headroom offs (ys.filterMap id) t ∧ ∃ st, (st = 0 ∨ st = 8) ∧
        t.out.head? = some (.response src.toNat 2 true ctx.toNat seq.toNat st (s.epoch % 256) [])) ∧
    (s.dieOn die.val = true → s.getF CTX_S_STATE slot.val 0 ≠ 0 → die.val < s.fab.xlate.length →
      let cache := s.fab.xlate.getD die.val []
      (cacheFind cache slot.val addr.toNat = none → ∀ i, s.spanSearch slot.val addr.toNat = some i →
        ((s.wrap FAB_XLATE_MISSES 0 0 1).memRead 0 0 (s.spanAt slot.val i) 32).1 = .done →
        answers (.xlateFill die slot addr) s fun t => t.sets = s.sets ∧ t.mem.a = s.mem.a ∧
          t.get FAB_XLATE_MISSES = (s.get FAB_XLATE_MISSES + 1) % 2 ^ 32 ∧
          t.fab.xlate.getD die.val [] = ((slot.val, s.mem.a.read 0 (s.spanAt slot.val i) 32) :: cache).take 1024) ∧
      (cacheFind cache slot.val addr.toNat ≠ none → exec (.xlateFill die slot addr) s = .next s))

/-- Requests arrive exactly once, in their EPOCH and in order; answers, acknowledgements and timeouts end the request they name.
For every kind of request: one not heard changes nothing; one of another EPOCH is counted and answered with PEER_LOST; one
seen before is counted and answered as before, without acting; one below the window is counted and not answered; one ahead of
a missing number on an ordered VC is held. No byte of memory or set changes in these. An answer of an outstanding load fills
its register and ends the request; of a posted request it ends it; with PEER_LOST the pair is closed and the EPOCH learnt; one
for a request that a drain ended counts as late; any other does nothing. A timeout ends its request, counted, with the pair
closed. A VC0 datagram of a two-network module acts as the request or answer it holds. Rests on the model's choices of log
entries 4, 78, 105. -/
def Obligations.FabricNumbersAndAnswers : Prop :=
  ∀ (s : State) (src : BitVec 12) (seq ctx rseq : BitVec 16) (epoch size func : BitVec 8) (space : BitVec 2) (off : BitVec 48)
      (value operand compare : DWord) (data : List Byte) (len : BitVec 32) (word : Word) (posted wa : Bool) (fmt : BitVec 4)
      (expIndex : BitVec 16) (vc : Fin 8) (status : BitVec 6) (port : Fin 2),
    let arr := fun (vc sp : Nat) (op : ReqOp) => (⟨src.toNat, vc, seq.toNat, ctx.toNat, sp, off.toNat, op⟩ : Arrival)
    let still := fun t : State => t.mem.a = s.mem.a ∧ t.mem.b = s.mem.b ∧ t.sets = s.sets
    (∀ e ∈ ([(.load src epoch seq ctx space off size, arr 1 space.toNat (.load size.toNat), false),
        (.store src epoch seq ctx space off size value, arr 1 space.toNat (.store (toBytes size.toNat value.toNat)), true),
        (.amo src epoch seq ctx space off func operand compare posted,
          arr 1 space.toNat (.amo func.toNat operand.toNat compare.toNat), posted),
        (.readBlock src epoch seq ctx space off len, arr 1 space.toNat (.readBlock (min 4096 len.toNat)), false),
        (.writeBlock src epoch seq ctx space off data, arr 7 space.toNat (.writeBlock (data.take 4096)), true),
        (.remoteFill src epoch seq ctx space off value len, arr 7 space.toNat (.fill value.toNat (min 4096 len.toNat)), true),
        (.windowAdd src epoch seq ctx space off wa fmt expIndex data,
          arr 3 space.toNat (.windowAdd expIndex.toNat wa fmt.toNat data), true),
        (.ctlLoad src epoch seq ctx off, arr 0 2 .ctlLoad, false),
        (.ctlStore src epoch seq ctx off word, arr 0 2 (.ctlStore word.toNat), true)] : List (Instr × Arrival × Bool)),
      let a := e.2.1
      let x := s.rxPair a.src a.vc
      let reply := fun (st : Nat) (d : List Byte) (t : State) => t.out.head? = some (.response a.src (answerVc a.vc) e.2.2 a.ctx a.seq st
        (s.epoch % 256) (if e.2.2 then [] else d))
      (s.hears a.vc = false → exec e.1 s = .next s) ∧
      (s.hears a.vc = true → epoch.toNat ≠ s.epoch % 256 → s.fab.held = [] → answers e.1 s fun t => still t ∧ reply 9 [] t ∧
        t.get FAB_EPOCH_MISMATCH = min FAB_EPOCH_MISMATCH.top (s.get FAB_EPOCH_MISMATCH + 1)) ∧
      (s.hears a.vc = true → epoch.toNat = s.epoch % 256 →
        (∀ r, x.takes a.vc a.seq = .again r → answers e.1 s fun t => still t ∧ reply r.status r.data t ∧
          t.get FAB_DUPLICATES = (s.get FAB_DUPLICATES + 1) % 2 ^ 32) ∧
        (x.takes a.vc a.seq = .stale → answers e.1 s fun t => still t ∧ t.out = s.out ∧
          t.get FAB_STALE = min FAB_STALE.top (s.get FAB_STALE + 1)) ∧
        (∀ n, x.takes a.vc a.seq = .early n →
          (∀ h ∈ s.fab.held, ¬ (h.src = a.src ∧ h.vc = a.vc ∧ h.seq = a.seq)) →
          exec e.1 s = .next { s with fab := { s.fab with held := s.fab.held ++ [a] } }))) ∧
    (vc.val ≠ 0 → s.hears vc.val = true → s.answerWaits src.toNat vc.val rseq.toNat = false →
      ∀ e ∈ ([(.response src vc rseq seq status epoch data, data), (.ack src vc rseq status epoch, [])] :
        List (Instr × List Byte)),
      (∀ q i, s.sentOn src.toNat vc.val rseq.toNat = some q → s.slotOf q.ctx = some i →
        (∀ n, q.waiter = .posted n → status = 0 → answers e.1 s fun t =>
          t = { s with fab := { s.fab with sent := s.fab.sent.filter fun p => decide (p ≠ q) }, enc := t.enc }) ∧
        (∀ n rd size sext pc, q.waiter = .reg n rd size sext pc → status = 0 → s.homeOf i n = n → n < 1024 → (s.setSt n).slot = i →
          (s.setSt n).run ≠ .unbound → answers e.1 s fun t => t.fab.sent = s.fab.sent.filter (fun p => decide (p ≠ q)) ∧
            t.mem = s.mem ∧ (∀ k, k ≠ n → t.setSt k = s.setSt k) ∧
            (s.setSt n).onlyReg (t.setSt n) rd (loadValue size sext e.2) (s.setSt n).pc) ∧
        (∀ n, q.waiter = .posted n → status.toNat = 9 → answers e.1 s fun t =>
          t.fab.epochs.get 0 src.toNat = epoch.toNat ∧ t.pairClosed q.ctx src.toNat vc.val = true ∧ q ∉ t.fab.sent)) ∧
      (s.sentOn src.toNat vc.val rseq.toNat = none →
        let late := s.fab.gone.find? fun q => decide (q.dest = src.toNat ∧ q.vc = vc.val ∧ q.seq = rseq.toNat)
        (∀ q, late = some q → answers e.1 s fun t => still t ∧ t.fab.gone = s.fab.gone.erase q ∧
          t.get HNG_LATE_RESPONSES = min HNG_LATE_RESPONSES.top (s.get HNG_LATE_RESPONSES + 1)) ∧
        (late = none → exec e.1 s = .next s))) ∧
    ((s.sentOn src.toNat vc.val rseq.toNat = none → exec (.requestTimeout src vc rseq) s = .next s) ∧
      ∀ q n, s.sentOn src.toNat vc.val rseq.toNat = some q → q.waiter = .posted n ∨ (∃ rd size sext pc, q.waiter = .reg n rd size sext pc) →
        answers (.requestTimeout src vc rseq) s fun t => t.mem = s.mem ∧ q ∉ t.fab.sent ∧ t.pairClosed q.ctx q.dest q.vc = true ∧
          t.get FAB_TIMEOUTS = min FAB_TIMEOUTS.top (s.get FAB_TIMEOUTS + 1)) ∧
    (let f := flitOf data
     let m := data.drop 16
     let c := Instr.vc0Datagram port data
     let from_ := BitVec.ofNat 12 f.src
     let ep := BitVec.ofNat 8 f.epoch
     let num := BitVec.ofNat 16 f.e2e
     (s.get TOP_NETWORKS ≠ 2 ∨ s.ethUp port.val = false ∨ f.dest ≠ s.self → exec c s = .next s) ∧
     (s.get TOP_NETWORKS = 2 → s.ethUp port.val = true → f.vc = 0 → f.dest = s.self → 40 ≤ m.length →
      (leAt m 0 1 = 8 → bits (leAt m 8 8) 49 48 = 2 → exec c s = exec (.ctlLoad from_ ep num (BitVec.ofNat 16 (leAt m 2 2))
        (BitVec.ofNat 48 (leAt m 8 8))) s) ∧
      (leAt m 0 1 = 9 → bits (leAt m 8 8) 49 48 = 2 → exec c s = exec (.ctlStore from_ ep num (BitVec.ofNat 16 (leAt m 2 2))
        (BitVec.ofNat 48 (leAt m 8 8)) (BitVec.ofNat 32 (leAt m 24 4))) s) ∧
      (leAt m 0 1 = 0x80 → s.hears 0 = true → s.answerWaits f.src 0 (leAt m 20 2) = false →
        exec c s = exec (.response from_ 0 (BitVec.ofNat 16 (leAt m 20 2)) num (BitVec.ofNat 6 (leAt m 1 1))
          (BitVec.ofNat 8 (leAt m 24 1)) (m.drop 40)) s)))

/-- Start stages: a running stage completes with its effect and lets the next begin, or fails into recovery hold with code and
item. A stage that does not run ignores its event. A running stage that passes sets its STAGE_DONE bit and no other, and every
stage whose predecessors are over has begun; it also has its own effect: the image kept, its digest kept, the revocations
blown, the root clock locked, the dies powered, the memory in service counted, tiers A and B zeroed, the set tests taken,
READY (PHASE 1, STAGE 12, READY_CYCLES) at the end of TABLES. A stage that fails writes START_CODE, FAIL_STAGE and FAIL_ITEM,
holds every set in reset and enters recovery hold (PHASE 2). OPTICS_LOCK completes at its limit; the other limits fail as
R49's table says, but for stages whose own event carries the failure (log entry 25). Rests on the model's choices of log
entries 4, 24, 25. -/
def Obligations.StartStagesCompleteOrFail : Prop :=
  ∀ (s : State) (yes : Bool) (regulated : BitVec 4) (maps : List (Fin 3072 × Fin 32)) (stk slices : BitVec 12) (pkgs : BitVec 16)
      (results : List SetTest) (stage : Fin 13),
    let done := fun (k : Nat) (t : State) =>
      (∀ j < 12, bit (t.get CFG_STAGE_DONE) j = (decide (j = k - 1) || bit (s.get CFG_STAGE_DONE) j)) ∧
      ∀ j, 1 ≤ j → j ≤ 11 → (∀ i ∈ stageFollows j, t.stageOver i = true) → t.stageOver j = true ∨ bit t.boot.started (j - 1) = true
    let failed := fun (c : StartCode) (k item : Nat) (t : State) => t.get CFG_START_CODE = c.num ∧ t.get CFG_FAIL_STAGE = k ∧
      t.get CFG_FAIL_ITEM = item % 2 ^ 16 ∧ t.get MOD_PHASE = 2 ∧ t.sets = [] ∧ t.revoked = s.revoked ∧ t.boot.flash = s.boot.flash
    (∀ e ∈ ([(1, .callerBoot), (2, .imageRead yes), (3, .verify), (4, .parse), (5, .clocks yes), (6, .diePower regulated maps),
        (7, .memoryTrain stk pkgs yes), (8, .scrub slices), (9, .setTest results), (10, .opticsLock), (11, .tables),
        (stage.val, .stageTimeout stage)] : List (Nat × Instr)), s.stageRuns e.1 = false → exec e.2 s = .next s) ∧
    (s.pwr.mode = .powering → answers .pgoodRise s fun t => t.starting = true ∧ t.get CFG_STAGE = 1 ∧ t.pwr.mode = .on ∧ t.sets = [] ∧
      t.keys = s.keys ∧ t.revoked = s.revoked ∧ t.epoch = (s.epoch + 1) % 256 ∧ t.boot.flash = s.boot.flash) ∧
    (s.pwr.mode ≠ .powering → exec .pgoodRise s = .next s) ∧
    (s.stageRuns 1 = true → answers .callerBoot s fun t => done 1 t ∧ t.get PWR_REF_OK = 1) ∧
    (s.stageRuns 2 = true →
      let head := s.flashBytes 0x40
      let image := if imgLength head ≤ 0x8000000 then s.flashBytes (max 0x40 (imgLength head)) else head
      answers (.imageRead false) s (failed .flashRead 2 0) ∧
      (∀ c, headerCheck image = some c → answers (.imageRead true) s (failed c 2 0)) ∧
      (headerCheck image = none → answers (.imageRead true) s fun t => done 2 t ∧ t.boot.image = image)) ∧
    (s.stageRuns 3 = true →
      (∀ c item, verifyCheck s.boot.image s.fuses = (some c, item) → answers .verify s (failed c 3 item)) ∧
      ((verifyCheck s.boot.image s.fuses).1 = none → answers .verify s (done 3))) ∧
    (s.stageRuns 4 = true →
      let r := parseCheck s.boot.image s.pins.slotId s.fuses
      (∀ c item, r.err = some (c, item) → answers .parse s (failed c 4 item)) ∧
      (r.err = none → answers .parse s fun t => done 4 t ∧ t.keys = s.keys ∧
        t.revoked = s.revoked ||| (imgField s.boot.image 0x0F 0 1 % 16) ∧ t.get MOD_FLOOR = s.img 0x01 0 1 % 2 ^ 7 ∧
        t.get MOD_SLOT = imgSlot s.boot.image s.pins.slotId % 32)) ∧
    (s.stageRuns 5 = true → (answers (.clocks true) s fun t => done 5 t ∧ t.get PWR_ROOT_LOCKED = 1) ∧
      answers (.clocks false) s (failed .clockLock 5 0)) ∧
    (s.stageRuns 6 = true →
      let lost := fun d => bit s.units.dieBad d || !bit regulated.toNat d
      (((List.range 4).filter lost).length ≤ 1 → answers (.diePower regulated maps) s fun t => done 6 t ∧
        (∀ d < 4, bit t.units.dieBad d = lost d ∧ t.dieOn d = !lost d)) ∧
      (1 < ((List.range 4).filter lost).length →
        answers (.diePower regulated maps) s (failed .diePower 6 (((List.range 4).filter lost).headD 0)))) ∧
    (s.stageRuns 7 = true →
      let u := { s.units with stackBad := s.units.stackBad ||| stk.toNat, pkgBad := s.units.pkgBad ||| pkgs.toNat, trained := true }
      let after := { s with units := u }
      (s.img 0x0D 1 1 ≤ popCount 12 after.stacksOk → (s.img 0x0D 2 1 = 1 → after.ctrlsOk = 0xFFFF) →
        (s.img 0x0D 3 1 = 1 → yes = true) → answers (.memoryTrain stk pkgs yes) s fun t => done 7 t ∧ t.units = u ∧
          t.get MEM_A_STACKS = popCount 12 after.stacksOk ∧ t.get MEM_B_OK = after.ctrlsOk ∧
          t.get MEM_C_STATE = (if !yes then 0 else if s.get MEM_SPARE_LEFT ≤ 2 then 2 else 1)) ∧
      (popCount 12 after.stacksOk < s.img 0x0D 1 1 → ∃ item, answers (.memoryTrain stk pkgs yes) s (failed .tooFewStacks 7 item)) ∧
      (s.img 0x0D 1 1 ≤ popCount 12 after.stacksOk → (s.img 0x0D 2 1 = 1 → after.ctrlsOk = 0xFFFF) → s.img 0x0D 3 1 = 1 →
        answers (.memoryTrain stk pkgs false) s (failed .tierC 7 0))) ∧
    (s.stageRuns 8 = true → slices.toNat &&& s.stacksOk = 0 → s.memChecks 8 = none → answers (.scrub slices) s fun t =>
      done 8 t ∧ t.mem.a = [] ∧ t.mem.b = [] ∧ t.units = s.units) ∧
    (s.stageRuns 9 = true →
      let tested := results.foldl State.testSet s
      ((∀ d < 4, bit tested.diesOk d = true → s.img 0x0D 0 1 ≤ tested.setsOkOn d) →
        answers (.setTest results) s fun t => done 9 t ∧ t.units = tested.units ∧
          ∀ r, results = [r] → r.coreFail = true → s.setOk r.set.val = true → (t.setUnit r.set.val).retired = true) ∧
      (∀ d < 4, bit tested.diesOk d = true → tested.setsOkOn d < s.img 0x0D 0 1 →
        ∃ item, answers (.setTest results) s (failed .tooFewSets 9 item))) ∧
    (s.stageRuns 10 = true → answers .opticsLock s (done 10) ∧ answers (.stageTimeout 10) s (done 10)) ∧
    (s.stageRuns 11 = true → s.boot.held = [] → s.stageOver 9 = true → answers .tables s fun t => t.ready = true ∧ t.get CFG_STAGE = 12 ∧
      bit (t.get CFG_STAGE_DONE) 10 = true ∧ bit (t.get CFG_STAGE_DONE) 11 = true ∧
      t.get64 CFG_READY_CYCLES_LO CFG_READY_CYCLES_HI 0 = s.callerCycles % 2 ^ 64 ∧ t.get MOD_SETS_USABLE = s.setsOkCount % 2 ^ 10) ∧
    (∀ e ∈ ([(1, .stageTimeout), (2, .flashRead), (5, .clockLock), (11, .stageTimeout)] : List (Nat × StartCode)), stage.val = e.1 →
      s.stageRuns e.1 = true → answers (.stageTimeout stage) s (failed e.2 e.1 0)) ∧
    (stage.val = 6 → s.stageRuns 6 = true → answers (.stageTimeout stage) s (failed .diePower 6 (lowBit 4 s.diesOk))) ∧
    (stage.val ∈ [3, 4, 7, 8, 9] → exec (.stageTimeout stage) s = .next s)

/-- HOLD_CMD: OPEN, VERIFY, PROGRAM, CLOSE, RESTART and ENTER_HOLD act for the owner of the staging buffer and report in RESULT. A
HOLD_CMD that is heard (from a path that reaches CFG, with the buffer free or its own and BUSY 0; any other changes nothing):
OPEN in recovery hold makes the path owner, RESULT DONE. The owner's VERIFY sets BUSY and checks the staged copy; when done,
RESULT is DONE with STAGED_OK set unless the copy changed meanwhile, or ILLEGAL with the start code. PROGRAM with STAGED_OK
sets BUSY and erases the flash; when done the flash reads as the staged copy, RESULT DONE, or UNCORRECTABLE on a mismatch.
CLOSE frees the buffer. RESTART begins a cold start. From another path, or outside hold, each gives ILLEGAL. ENTER_HOLD needs
a ready module (else ILLEGAL) with only context 0 bound (else NO_RESOURCE) and enters recovery hold. Rests on the model's
choices of log entries 4, 26, 30. -/
def Obligations.RecoveryHoldCommands : Prop :=
  ∀ (s : State) (p : Path) (mismatch : Bool),
    let cmds := [Instr.holdOpen p, .holdVerify p, .holdProgram p, .holdClose p, .holdRestart p, .enterHold p]
    let heard := s.reached p 0x20040 ∧ s.mayStage p = true ∧ s.get CFG_BUSY = 0
    let acts := s.inHold = true ∧ s.boot.owner = some p
    let only := fun t : State => t = { s with regs := t.regs, paths := t.paths, boot := t.boot } ∧ t.path p = s.path p
    let result := fun (st : Nat) (t : State) => only t ∧ s.wordsBut t [0x20044] ∧ t.get CFG_RESULT = st ∧ t.get CFG_BUSY = 0
    (s.reached p 0x20040 → s.mayStage p = false ∨ s.get CFG_BUSY = 1 → ∀ c ∈ cmds, exec c s = .next (s.touchPath p)) ∧
    (heard →
      (s.inHold = true → answers (.holdOpen p) s fun t => result 0 t ∧ t.boot = { s.boot with owner := some p }) ∧
      (s.inHold = false → answers (.holdOpen p) s fun t => result 11 t ∧ t.boot = s.boot) ∧
      (¬ acts → ∀ c ∈ [Instr.holdVerify p, .holdProgram p, .holdClose p, .holdRestart p],
        answers c s fun t => result 11 t ∧ t.boot = s.boot) ∧
      (acts →
        (answers (.holdVerify p) s fun t => only t ∧ t.get CFG_BUSY = 1 ∧ t.get CFG_RESULT = s.get CFG_RESULT ∧ t.boot =
          { s.boot with verifying := some ⟨(fullCheck s.staged s.pins.slotId s.fuses).map fun e => e.1.num, false⟩ }) ∧
        (s.get CFG_STAGED_OK = 0 → answers (.holdProgram p) s fun t => result 11 t ∧ t.boot = s.boot) ∧
        (s.get CFG_STAGED_OK = 1 → answers (.holdProgram p) s fun t => only t ∧ t.get CFG_BUSY = 1 ∧ t.get CFG_PROGRESS = 0 ∧
          t.boot = { s.boot with programming := true, flash := [] }) ∧
        (answers (.holdClose p) s fun t => result 0 t ∧ t.boot = { s.boot with owner := none }) ∧
        (answers (.holdRestart p) s fun t => t.starting = true ∧ t.get CFG_STAGE = 1 ∧ t.boot.owner = none ∧
          t.boot.flash = s.boot.flash ∧ t.boot.staging = [] ∧ t.sets = [] ∧ t.revoked = s.revoked)) ∧
      (s.ready = false → answers (.enterHold p) s fun t => result 11 t ∧ t.boot = s.boot) ∧
      (s.ready = true → s.onlyContext0 = false → answers (.enterHold p) s fun t => result 12 t ∧ t.boot = s.boot) ∧
      (s.ready = true → s.onlyContext0 = true → answers (.enterHold p) s fun t => t.inHold = true ∧ t.get CFG_RESULT = 0 ∧
        t.sets = [] ∧ t.boot.owner = s.boot.owner ∧ t.boot.flash = s.boot.flash)) ∧
    (∀ v, s.boot.verifying = some v → answers .holdVerifyDone s fun t => t = { s with regs := t.regs, boot := t.boot } ∧
      t.boot = { s.boot with verifying := none } ∧ t.get CFG_BUSY = 0 ∧
      (v.found = none → t.get CFG_RESULT = 0 ∧ t.get CFG_STAGED_OK = (if v.changed then 0 else 1)) ∧
      (∀ c, v.found = some c → t.get CFG_RESULT = 11 ∧ t.get CFG_START_CODE = c % 256 ∧
        t.get CFG_STAGED_OK = s.get CFG_STAGED_OK)) ∧
    (s.boot.programming = true → answers (.programDone mismatch) s fun t => t = { s with regs := t.regs, boot := t.boot } ∧
      t.boot.programming = false ∧ t.flashBytes s.staged.length = s.staged ∧ t.get CFG_BUSY = 0 ∧ t.get CFG_PROGRESS = 100 ∧
      t.get CFG_RESULT = if mismatch then 4 else 0) ∧
    (s.boot.programming = false → exec (.programDone mismatch) s = .next s)

/-- A write to STAGE_WINDOW, STAGE_PAGE or STAGE_LENGTH clears STAGED_OK. A write of the staging window by the buffer's owner in
recovery hold stores its four bytes at the page and clears STAGED_OK; a write of STAGE_PAGE or STAGE_LENGTH by a path that may
write it (the buffer free or its own) takes the value and clears STAGED_OK; a verification in progress notes that the copy
changed. Writes by another path are discarded. -/
def Obligations.StagingWritesClearStagedOk : Prop :=
  ∀ (s : State) (p : Path) (word : Fin 1024) (value : Word),
    let only := fun t : State => t = { s with regs := t.regs, paths := t.paths, boot := t.boot } ∧ t.path p = s.path p ∧
      t.get CFG_STAGED_OK = 0 ∧ t.get CFG_RESULT = s.get CFG_RESULT ∧ t.get CFG_BUSY = s.get CFG_BUSY
    let noted := s.boot.verifying.map fun v => { v with changed := true }
    (s.reached p 0x21000 → s.inHold = true →
      (s.boot.owner = some p → answers (.stageWindowWrite p word value) s fun t => only t ∧ s.wordsBut t [0x20044] ∧
        let a := 4096 * s.get CFG_STAGE_PAGE + 4 * word.val
        t.boot = { s.boot with staging := t.boot.staging, verifying := noted } ∧
        ∀ i, t.boot.staging.get 0 i =
          if a ≤ i ∧ i < a + 4 then BitVec.ofNat 8 (value.toNat / 256 ^ (i - a)) else s.boot.staging.get 0 i) ∧
      (s.boot.owner ≠ some p → exec (.stageWindowWrite p word value) s = .next (s.touchPath p))) ∧
    (s.reached p 0x20048 → s.mayStage p = true → answers (.stagePageWrite p value) s fun t => only t ∧
      t.boot = { s.boot with verifying := noted } ∧ t.get CFG_STAGE_PAGE = value.toNat / 2 ^ 12 % 2 ^ 15) ∧
    (s.reached p 0x2004C → s.mayStage p = true → answers (.stageLengthWrite p value) s fun t => only t ∧
      t.boot = { s.boot with verifying := noted } ∧ t.get CFG_STAGE_LENGTH = value.toNat % 2 ^ 28) ∧
    (s.reached p 0x20048 → s.reached p 0x2004C → s.mayStage p = false →
      exec (.stagePageWrite p value) s = .next (s.touchPath p) ∧ exec (.stageLengthWrite p value) s = .next (s.touchPath p))

/-- Watchdogs, captures, drains and isolation turns: what fires is counted and queued at its level, and what ends lets the next
begin. A watchdog of an engine with work on a ready module counts; outside a domain being cleared it queues one capture, of
level 1 for a set that waits, else 2, or 2 against the suspect under test, which starts no reset while AUTO_ESCALATE is 0. A
capture that ends begins its reset (the fence of the slot set, the reset running), or, marked so, only leaves the queue. A
drain that times out ends with ABORTED what the fenced domains await and keeps it for late responses. The end of an isolation
turn tests the next suspect, or ends the test, unattributed when none was found. An engine that has no such work, and an event
of a kind that is not pending, change nothing. Rests on the model's choices of log entries 2, 4, 116, 117. -/
def Obligations.WatchdogsCapturesAndIsolation : Prop :=
  ∀ (s : State) (engine : BitVec 14) (kind : WatchKind) (truncated : Bool),
    let e := engine.toNat
    let x := s.setSt e
    (s.ready = false ∨ engineOk e = false ∨ s.watches e kind = false → exec (.watchdog engine kind) s = .next s) ∧
    (s.ready = true → engineOk e = true → s.watches e kind = true →
      (s.clearing e = true → answers (.watchdog engine kind) s fun t => t = { s with regs := t.regs } ∧
        s.wordsBut t [HNG_WATCHDOGS_FIRED.addr 0 0] ∧
        t.get HNG_WATCHDOGS_FIRED = min HNG_WATCHDOGS_FIRED.top (s.get HNG_WATCHDOGS_FIRED + 1)) ∧
      (s.clearing e = false → answers (.watchdog engine kind) s fun t => t.sets = s.sets ∧ t.mem = s.mem ∧
        t.get HNG_WATCHDOGS_FIRED = min HNG_WATCHDOGS_FIRED.top (s.get HNG_WATCHDOGS_FIRED + 1) ∧
        ∃ j, t.hng.jobs = s.hng.jobs ++ [j] ∧ j.phase = .capturing ∧ j.engine = e ∧
          j.noStart = decide (s.get HNG_AUTO_ESCALATE = 0) ∧
          (if s.get HNG_TESTING = 1 ∧ s.hng.testEng = e then j.level = 2 ∧ j.guilty = some (s.get HNG_UNDER_TEST)
           else if kind = .setWait then j.level = 1 ∧ j.slot = x.slot ∧ j.guilty = none else j.level = 2 ∧ j.guilty = none))) ∧
    (let found := s.hng.jobs.find? fun j => decide (j.phase = .capturing)
     (found = none → exec (.captureDone truncated) s = .next s) ∧
     ∀ j, found = some j →
      (j.noStart = true → answers (.captureDone truncated) s fun t => t.sets = s.sets ∧ t.mem.a = s.mem.a ∧
        t.hng.jobs = s.hng.jobs.filter fun k => decide (k ≠ j)) ∧
      (j.noStart = false → j.level = 1 ∨ j.level = 2 ∨ j.level = 3 → answers (.captureDone truncated) s fun t =>
        (j.level ≠ 2 → j.slot < 32 → bit (t.get HNG_FENCED_SLOTS) j.slot = true) ∧
        ∃ k ∈ t.hng.jobs, k.level = j.level ∧ k.slot = j.slot ∧ k.engine = j.engine ∧ k.phase = .running)) ∧
    (let pending := fun q : Sent => s.hng.jobs.any fun j => decide (j.phase = .running) && (match j.level with
       | 2 => if j.engine < 768 then decide (q.waiter.set? = some j.engine) else decide (j.engine / 1024 = 1) && !q.waiter.ofSet
       | 4 => false
       | _ => decide (q.ctx = s.ctxOf j.slot))
     answers .drainTimeout s fun t => (∀ q ∈ s.fab.sent, pending q = true → q ∈ t.fab.gone) ∧
       ((∀ q ∈ s.fab.sent, pending q = false) → t = s)) ∧
    (s.get HNG_TESTING = 0 → exec .isolateTurnEnd s = .next s) ∧
    (s.get HNG_TESTING = 1 →
      (∀ i rest, s.hng.turns = i :: rest → i < 32 → answers .isolateTurnEnd s fun t => t.get HNG_TESTING = 1 ∧
        t.get HNG_UNDER_TEST = i ∧ t = { s with regs := t.regs, hng := { s.hng with turns := rest } }) ∧
      (s.hng.turns = [] → answers .isolateTurnEnd s fun t => t.get HNG_TESTING = 0 ∧ t.hng.testEng = 0x3FFF ∧ t.sets = s.sets ∧
        t.get HNG_UNATTRIBUTED = if s.hng.found then s.get HNG_UNATTRIBUTED
          else min HNG_UNATTRIBUTED.top (s.get HNG_UNATTRIBUTED + 1)))

/-- RESET_CMD, completion, timeout, notices and Caller restarts: each level begins, ends or gives way to the next. A context,
engine, partition or warm reset is discarded when BUSY at that level or deeper, and gives RESULT ACCESS for a free slot or an
engine that does not exist. Else it begins: the slot's fence is set and the reset runs; a warm reset unbinds every set, clears
tiers A and B, raises EPOCH and reads PHASE 3, or, while the module starts, is held until later. A reset that is drained ends
with RESULT DONE, a context's fence and fault lifted, its count raised. One that passes its budget is counted and gives RESULT
TIMEOUT or the next level; a warm reset that does asks for a power cycle with the module fenced. Notices are resent up to
eight times and acknowledged up to a number. A Caller restart is counted; an error in retained memory clears its region. Rests
on the model's choices of log entries 4, 116, 120, 121, 128. -/
def Obligations.ResetLadderRunsAndEscalates : Prop :=
  ∀ (s : State) (slot : Fin 32) (engine : BitVec 14) (seq : Word) (p : Path) (region : Fin 4),
    let cmds := [(1, Instr.contextReset slot, slot.val), (2, .engineReset engine, 0), (3, .partitionReset slot, slot.val),
      (4, .warmReset, 0)]
    let free := fun level : Nat => ¬ (s.get HNG_BUSY = 1 ∧ level ≤ s.get HNG_LEVEL)
    let named := fun level : Nat => (level = 1 ∨ level = 3 → s.getF CTX_S_STATE slot.val 0 ≠ 0) ∧
      (level = 2 → engineOk engine.toNat = true)
    let warm := fun t : State => t.get MOD_PHASE = 3 ∧ t.get CFG_WARM = 1 ∧ t.epoch = (s.epoch + 1) % 256 ∧ t.mem.a = [] ∧
      t.mem.b = [] ∧ (∀ n, (t.setSt n).run = .unbound) ∧ t.boot.flash = s.boot.flash ∧ t.revoked = s.revoked
    let few := (s.hng.restarts.filter fun c => decide (s.callerCycles < c + 2250000000)).length < 2
    (∀ c ∈ cmds,
      (¬ free c.1 → exec c.2.1 s = .next s) ∧
      (free c.1 → ¬ named c.1 → s.get HNG_BUSY = 0 → answers c.2.1 s fun t => t = { s with regs := t.regs } ∧
        s.wordsBut t [HNG_RESULT.addr 0 0] ∧ t.get HNG_RESULT = 3) ∧
      (free c.1 → named c.1 → c.1 ≠ 4 → answers c.2.1 s fun t =>
        (c.1 ≠ 2 → bit (t.get HNG_FENCED_SLOTS) slot.val = true) ∧
        ∃ k ∈ t.hng.jobs, k.level = c.1 ∧ k.slot = c.2.2 ∧ k.phase = .running ∧
          k.engine = if c.1 = 2 then engine.toNat else 0x3FFF)) ∧
    (free 4 → s.starting = false → answers .warmReset s warm) ∧
    (free 4 → s.starting = true → exec .warmReset s = .next { s with boot := { s.boot with heldWarm := true } }) ∧
    (s.boot.heldWarm = true → s.starting = false → answers .heldWarmReset s fun t => warm t ∧ t.boot.heldWarm = false) ∧
    (s.boot.heldWarm = false ∨ s.starting = true → exec .heldWarmReset s = .next s) ∧
    (let found := s.hng.jobs.find? fun j => decide (j.phase = .running) && !s.undrained j && (decide (j.level ≠ 4) || !s.starting)
     (found = none → exec .resetComplete s = .next s) ∧
     ∀ j, found = some j → answers .resetComplete s fun t => j ∉ t.hng.jobs ∧ t.get HNG_RESULT = 0 ∧
      (j.level = 1 → j.slot < 32 → bit (t.get HNG_FENCED_SLOTS) j.slot = false ∧ t.getF CTX_S_FAULT_VALID j.slot 0 = 0 ∧
        t.get HNG_CONTEXT_RESETS = min 255 (s.get HNG_CONTEXT_RESETS + 1)) ∧
      (j.level = 2 → j.guilty = none → j.suspects = 0 →
        t.get HNG_ENGINE_RESETS = min 255 (s.get HNG_ENGINE_RESETS + 1))) ∧
    (let found := s.hng.jobs.find? fun j => decide (j.phase = .running)
     (found = none → exec .resetTimeout s = .next s) ∧
     ∀ j, found = some j →
      (j.level = 1 → answers .resetTimeout s fun t =>
        t.get HNG_ESCALATIONS = min HNG_ESCALATIONS.top (s.get HNG_ESCALATIONS + 1) ∧
        ∀ e ∈ s.holders j.slot, ∃ k ∈ t.hng.jobs, k.level = 2 ∧ k.engine = e ∧ k.phase = .running) ∧
      (j.level = 3 ∨ (j.level = 2 ∧ setBitsOf 32 j.suspects = []) → s.starting = false → answers .resetTimeout s warm) ∧
      (j.level = 4 → answers .resetTimeout s fun t => t.get HNG_PWRCYC_REQ = 1 ∧ t.get HNG_MODULE_FENCED = 1 ∧
        t.get HNG_RESULT = 2 ∧ t.get HNG_ESCALATIONS = min HNG_ESCALATIONS.top (s.get HNG_ESCALATIONS + 1))) ∧
    (let found := s.hng.notices.find? fun n => decide (n.seq = seq.toNat)
     ∀ n, found = some n → s.callerOn = true → s.get HNG_FM_VALID = 1 → answers (.noticeResend seq) s fun t => t.sets = s.sets ∧
       (8 ≤ n.sends → t.hng.notices = s.hng.notices.filter (fun m => decide (m ≠ n)) ∧ t.out = s.out ∧
         t.get HNG_NOTICES_LOST = min HNG_NOTICES_LOST.top (s.get HNG_NOTICES_LOST + 1)) ∧
       (n.sends < 8 → t.out = .notice (s.get HNG_FM_MODULE) n.bytes :: s.out ∧
         t.hng.notices = s.hng.notices.map fun m => if m = n then { m with sends := m.sends + 1 } else m)) ∧
    (s.reached p (HNG_NOTICE_ACK.addr 0 0) → answers (.noticeAck p seq) s fun t =>
      t.hng = { s.hng with notices := s.hng.notices.filter fun m => decide (seq.toNat < m.seq) } ∧ t.sets = s.sets ∧
      s.wordsBut t [HNG_NOTICE_PENDING.addr 0 0] ∧ t.get HNG_NOTICE_PENDING = min 65535 t.hng.notices.length) ∧
    (s.callerOn = true → answers .callerWatchdog s fun t => (few → t.sets = s.sets) ∧
      t.get HNG_CALLER_RESTARTS = min 255 (s.get HNG_CALLER_RESTARTS + 1) ∧
      (s.get HNG_AUTO_ESCALATE = 1 → ¬ few → t.get HNG_PWRCYC_REQ = 1)) ∧
    (s.callerOn = false → exec .callerWatchdog s = .next s ∧ exec (.retainedMemoryError region) s = .next s) ∧
    (s.callerOn = true →
      exec (.retainedMemoryError 0) s = .next { s with boot := { s.boot with digest := [] } } ∧
      (few → answers (.retainedMemoryError 1) s fun t => t.dcd.recs = [] ∧ t.sets = s.sets) ∧
      (few → answers (.retainedMemoryError 2) s fun t => t.units.trained = false ∧ t.sets = s.sets) ∧
      (few → answers (.retainedMemoryError 3) s fun t => t.sets = s.sets ∧ t.hng.notices = [] ∧
        t.get HNG_CALLER_RESTARTS = 1 ∧ t.hng.jobs = []))

/-- Arrays: tiles start in order, passes load their block, add their sums and follow each other, rows drain, tiles complete. With
the arrays of a set acting: TILE_START takes the head tile once all blocks of the running ones are dealt. SHADOW_LOAD brings
the stationary block of a waiting pass, element (k, n) from its place in memory, and the pass begins; a load that fails fails
the tile. PASS_END sets the accumulators of a row to its rounded sums in a block's first K-step, later adds, and goes on with
the next sub-pass or K-step. ROW_DRAIN sends the next row of a drained block to its place; a held row changes nothing.
BLOCK_COMPLETE ends a fully drained block. TILE_COMPLETE writes the status byte, adds INCREMENT to its counter, and the tile
is gone; a stopping status stops the set. Ramps end; the end of a throttle pause ramps the arrays of its die that have a pass,
and no other set changes. Rests on the model's choices of log entries 4, 49, 97, 102. -/
def Obligations.ArraysRunTiles : Prop :=
  ∀ (s : State) (set : Fin 768) (array : Fin 4) (die : Fin 4),
    let n := set.val
    let k := array.val
    let x := s.setSt n
    let a := x.arr k
    let may := s.arraysRun n = true ∧ x.frozen = false ∧ s.arrOk n ≠ 0 ∧ x.fused = none ∧ x.soft = false ∧ x.hard = false ∧
      ∀ r ∈ x.tiles, r.left = []
    (∀ q qs, x.queue = q :: qs → q.body = none → may → answers (.tileStart set) s fun t => s.onlySet t n ∧
      (t.setSt n).queue = qs ∧ (t.setSt n).tiles.length = x.tiles.length + 1 ∧ (t.setSt n).regs = x.regs ∧
      (t.setSt n).mem = x.mem ∧ ((∀ r ∈ x.tiles, r.tile.id ≠ q.id) → (t.setSt n).tiles.map TileRun.tile = x.tiles.map TileRun.tile ++ [q])) ∧
    (x.queue = [] ∨ ¬ may → exec (.tileStart set) s = .next s) ∧
    (∀ p r, x.pass = some p → p.begun = false → x.findRun p.tile = some r → s.arraysRun n = true →
      let key := passKey r.tile.desc p
      x.active.map Bank.key ≠ some key → x.shadow.map Bank.key ≠ some key →
      (∀ b s1, s.readBank n key = (.done, some b, s1) → s1.sets = s.sets →
        (∃ bs s2, s.readRun n 1 6 key.addr (64 * stepBytes key.fmt) = (.done, bs, s2) ∧ ∀ i < 32, ∀ c < 64,
          b.elems.getD (64 * i + c) 0 = elemAt key.fmt bs (if key.xpose then 32 * c + i else 64 * i + c)) ∧
        answers (.shadowLoad set) s fun t => t = { s1 with sets := t.sets } ∧ (∀ m, m ≠ n → t.setSt m = s.setSt m) ∧
          t.setSt n = { x with active := some b, shadow := none, pass := some { p with begun := true } }) ∧
      (∀ st s1, s.readBank n key = (st, none, s1) → s1.sets = s.sets → answers (.shadowLoad set) s fun t =>
        (t.setSt n).findRun p.tile = some { r with status := st.num, failed := some 0, left := [] })) ∧
    (∀ p r, x.pass = some p → x.findRun p.tile = some r → p.begun = true → s.unitRuns n = true → s.paused n = false →
      x.live = true → lastPass r.tile.desc p = false → p.sub < subPasses r.tile.desc → p.kstep < tSteps r.tile.desc →
      (∀ j s1, s.enterAll n (s.arraysOf n) = some (.done, j, s1) → (s1.setSt n).findRun p.tile = some r →
        (s1.setSt n).live = true → answers (.passEnd set) s fun t =>
          (t.setSt n).pass.map (fun q => (q.tile, q.kstep, q.sub)) = some (if p.sub + 1 < subPasses r.tile.desc
            then (p.tile, p.kstep, p.sub + 1) else (p.tile, p.kstep + 1, 0)) ∧ t.mem.a = s1.mem.a) ∧
      (∀ bank b act xa s1, s.arraysOf n = [k] → x.active = some bank → a.cur = some b → b.tile = p.tile →
        b.rows = a.entered + 1 → a.drain = none → a.ramp = .active →
        s.actRow n r.tile (256 * b.block + a.entered) p.kstep = some (.done, act, xa, s1) → s1.sets = s.sets →
        answers (.passEnd set) s fun t => ∀ i, ((t.setSt n).arr k).acc.get 0 i =
          if 64 * a.entered ≤ i ∧ i < 64 * (a.entered + 1) then
            let sum := (rowSums bank (tActFmt r.tile.desc) (decide (p.sub = 1)) act xa).getD (i - 64 * a.entered) (.fin false 0 0)
            w48Round (if p.kstep = 0 ∧ p.sub = 0 then sum else (accValue (a.acc.get 0 i)).add sum)
          else a.acc.get 0 i)) ∧
    (∀ b r, s.arraysRun n = true → a.drain = some b → b.next < b.rows → x.findRun b.tile = some r →
      let d := r.tile.desc
      let ws := a.acc.read 0 (64 * b.next) 64
      let row := 256 * b.block + b.next
      (s.putRow n r.tile row ws = .held → exec (.rowDrain set array) s = .next s) ∧
      (∀ s1, s.putRow n r.tile row ws = .sent .done s1 → (s1.setSt n).arr k = a → answers (.rowDrain set array) s fun t =>
        t = { s1 with sets := t.sets } ∧ (∀ m, m ≠ n → t.setSt m = s1.setSt m) ∧
        t.setSt n = (s1.setSt n).putArr k { a with drain := some { b with next := b.next + 1 } }) ∧
      (tMode d = 0 → ∀ st s1, s.writeRun n 1 5 ((leAt d 32 8 + row * leAt d 48 4) % 2 ^ 64)
          (ws.flatMap fun w => toBytes (outSize (tOutFmt d)) (outConvert (tOutFmt d) w)) = (st, s1) →
        s.putRow n r.tile row ws = .sent st s1 ∧ (st ≠ .done → st ≠ .overrange → (s1.setSt n).findRun b.tile = some r →
          answers (.rowDrain set array) s fun t =>
            (t.setSt n).findRun b.tile = some { r with status := st.num, failed := some k, left := [] }))) ∧
    (∀ b, a.drain = some b → s.arraysRun n = true →
      (b.rows ≤ b.next → answers (.blockComplete set array) s fun t => s.onlySet t n ∧
        t.setSt n = x.putArr k { a with drain := none } ∧ (t.setSt n).arr k = { a with drain := none }) ∧
      (b.next < b.rows → exec (.blockComplete set array) s = .next s)) ∧
    (∀ r, s.unitRuns n = true → x.live = true → x.tiles.find? (s.tileOver n) = some r → r.tile.owner = n →
      let c := leAt r.tile.desc 12 1 % 64
      let place := r.tile.addr + 13
      (r.status ≤ 12 → (Status.ofNum r.status).stops = false → x.lentFrom = none → place < setMemBytes →
        x.err.get 0 (place / 8) ≤ 1 →
        answers (.tileComplete set) s fun t => (∀ q ∈ (t.setSt n).tiles, q.tile.id ≠ r.tile.id) ∧
          (∀ i, (t.setSt n).counter i = if i = c then x.counter c + BitVec.ofNat 64 (leAt r.tile.desc 14 2) else x.counter i) ∧
          (∀ i, (t.setSt n).mem.get 0 i = if i = place then BitVec.ofNat 8 r.status else x.mem.get 0 i) ∧
          (t.setSt n).regs = x.regs ∧ (∀ m, m ≠ n → t.setSt m = s.setSt m) ∧ t.mem = s.mem) ∧
      ((Status.ofNum r.status).stops = true → x.lentFrom = none → answers (.tileComplete set) s fun t =>
        (t.setSt n).run = .stopped ∧ (t.setSt n).frozen = true ∧
        (x.fault = none → (t.setSt n).fault = some ⟨r.status, 3, r.failed.getD 0, n, localAddr r.tile.addr⟩))) ∧
    (a.ramp = .up → s.arraysRun n = true → answers (.startRampEnd set array) s fun t => s.onlySet t n ∧
      t.setSt n = x.putArr k { a with ramp := .active } ∧ (t.setSt n).arr k = { a with ramp := .active }) ∧
    (a.ramp = .down → answers (.stopRampEnd set array) s fun t => s.onlySet t n ∧
      t.setSt n = x.putArr k { a with ramp := .idle } ∧ (t.setSt n).arr k = { a with ramp := .idle }) ∧
    (bit s.pwr.throttled die.val = true → answers (.pauseEnd die) s fun t =>
      t = { s with sets := t.sets, pwr := { s.pwr with throttled := setBits s.pwr.throttled die.val die.val 0 } } ∧
      (∀ m, dieOf m ≠ die.val → t.setSt m = s.setSt m) ∧
      ∀ m, dieOf m = die.val → (s.setSt m).pass.isSome = true → t.setSt m = { s.setSt m with
        arrs := (s.setSt m).arrs.map fun a => if a.ramp = .active then { a with ramp := .up } else a }) ∧
    (bit s.pwr.throttled die.val = false → exec (.pauseEnd die) s = .next s)

/-- Cut-in, array faults, fused sequences and pre-emption: whose tile moves, what is kept, what goes back to its start. CUT_IN
moves the tail tile of the first crewmate that has one to the idle set, under a number of the taker's own, and counts it on
both. A faulting array counts it and records it; the tile goes back to the head of its owner's queue with the rows it has not
drained; the second fault retires the array; a fused sequence goes back to its start with its entry registers. A fused
sequence starts with its fetched, checked body and its consumer behind it; without a body it only completes; one that fails
its checks completes with the status. PRODUCER_COMPLETE ends the producer; the sequence goes on only for its consumer. Pre-
emption marks the set; at its point every unit holds; a hard one discards the accumulators and reissues the blocks; RESUME
clears the marks. What does not apply changes nothing. Rests on the model's choices of log entries 4, 97, 103. -/
def Obligations.CutInFaultsAndPreemption : Prop :=
  ∀ (s : State) (set : Fin 768) (array : Fin 4) (inDrain : Bool),
    let n := set.val
    let k := array.val
    let x := s.setSt n
    (∀ m q, s.cutinIdle n = true → s.cutinFrom n = some (m, q) →
      let y := s.setSt m
      (y.queue.getLast? = some q ∧ y.slot = x.slot ∧ y.frozen = false ∧ q.body = none ∧ m ∈ x.crew) ∧
      answers (.cutIn set) s fun t => t = { s with sets := t.sets } ∧ (∀ j, j ≠ n → j ≠ m → t.setSt j = s.setSt j) ∧
        t.setSt m = { y with queue := y.queue.dropLast, given := (y.given + 1) % 2 ^ 32 } ∧
        (t.setSt n).taken = (x.taken + 1) % 2 ^ 32 ∧ (t.setSt n).nextId = x.nextId + 1 ∧
        (t.setSt n).tiles.map TileRun.tile = [{ q with id := x.nextId }]) ∧
    (s.cutinIdle n = false ∨ s.cutinFrom n = none → exec (.cutIn set) s = .next s) ∧
    (s.ready = false ∨ k ∉ s.arraysOf n ∨ x.faulted k inDrain = none → exec (.arrayFault set array inDrain) s = .next s) ∧
    (∀ r, s.ready = true → k ∈ s.arraysOf n → x.faulted k inDrain = some r →
      let count := min 255 (x.arrFaults.getD k 0 + 1)
      answers (.arrayFault set array inDrain) s fun t => t.mem = s.mem ∧ (t.setSt n).regs = x.regs ∧
        (k < x.arrFaults.length → (t.setSt n).arrFaults.getD k 0 = count) ∧
        t.arrOk n = (if count = 2 then setBits (s.arrOk n) k k 0 else s.arrOk n) ∧
        (x.fusedOf r.tile.id = none → ∀ o, s.ownSet x.slot r.tile.owner = some o →
          (count ≠ 2 → s.recorded t .data RT_ARRAY_FAULT 2 (4 * n + k) (s.ctxOf x.slot)
            [count, r.tile.owner, lowestRow (x.redoOf r)]) ∧
          ∃ o', t.ownSet x.slot r.tile.owner = some o' ∧ o'.queue = { r.tile with
            id := if r.tile.owner = n then r.tile.id else o.nextId, redo := some (x.redoOf r) } :: o.queue) ∧
        ∀ f, x.fusedOf r.tile.id = some f → (t.setSt n).v = f.entryV ∧ (t.setSt n).p = f.entryP ∧
          (t.setSt n).fused = some { f with run := 0, pos := 0, ready := [], taken := 0, given := [] }) ∧
    (let may := s.unitRuns n = true ∧ x.live = true ∧ s.paused n = false ∧ x.frozen = false ∧ x.soft = false ∧ x.hard = false ∧
       x.tiles = [] ∧ x.fused = none
     (¬ may ∨ x.queue = [] ∨ (∃ q qs, x.queue = q :: qs ∧ q.body = none) → exec (.fusedSequenceStart set) s = .next s) ∧
     ∀ q rest len addr, x.queue = q :: rest → q.body = some (len, addr) → may →
      (len = 0 → answers (.fusedSequenceStart set) s fun t => s.onlySet t n ∧ t.setSt n = { x with
        queue := rest, tiles := [⟨q, [], if s.arrOk n = 0 then 0xC else 0, none⟩] }) ∧
      (s.fuseStart n q rest len addr = .wait → exec (.fusedSequenceStart set) s = .next s) ∧
      (∀ st, s.fuseStart n q rest len addr = .fail st → answers (.fusedSequenceStart set) s fun t => s.onlySet t n ∧
        t.setSt n = { x with queue := rest, tiles := [⟨q, [], st.num, some 0⟩] }) ∧
      (∀ body g, s.fuseStart n q rest len addr = .run body g →
        (s.fetchBody (dieOf n) x.slot len addr = some body ∧ bodyOk body (tRows q.desc) = true ∧
          (g = true → ∃ c cs, rest = c :: cs ∧ consumerOk c (tRows q.desc) body = true)) ∧
        answers (.fusedSequenceStart set) s fun t => s.onlySet t n ∧
          (t.setSt n).queue = rest.drop (if g then 1 else 0) ∧ (t.setSt n).v = x.v ∧ (t.setSt n).p = x.p ∧
          ∃ f, (t.setSt n).fused = some f ∧ f.producer = q.id ∧ f.body = body ∧ f.run = 0 ∧ f.pos = 0 ∧ f.entryV = x.v ∧
            f.entryP = x.p ∧ f.takes = (body.filter isTake).length ∧ f.runs = tRows q.desc / f.takes ∧
            f.consumer = if g then rest.head?.map Tile.id else none)) ∧
    (∀ f r, x.fused = some f → x.findRun f.producer = some r → f.busy = false → s.unitRuns n = true → x.live = true →
      (Status.ofNum r.status).stops = false → r.tile.owner = n → x.lentFrom = none → r.failed = none →
      answers (.producerComplete set) s fun t => (∀ q ∈ (t.setSt n).tiles, q.tile.id ≠ f.producer) ∧
        (f.consumer = none → (t.setSt n).fused = none) ∧
        (∀ c, f.consumer = some c → c ≠ f.producer → (t.setSt n).fused = some f) ∧
        ∀ i, (t.setSt n).counter i = if i = leAt r.tile.desc 12 1 % 64
          then x.counter i + BitVec.ofNat 64 (leAt r.tile.desc 14 2) else x.counter i) ∧
    (x.fused = none ∨ s.unitRuns n = false → exec (.producerComplete set) s = .next s) ∧
    (let may := s.ready = true ∧ x.bound = true ∧ x.atPoint = false
     (may → answers (.softPreempt set) s fun t => s.onlySet t n ∧ t.setSt n = { x with soft := true }) ∧
     (may → answers (.hardPreempt set) s fun t => s.onlySet t n ∧ (t.setSt n).hard = true ∧ (t.setSt n).pass = none ∧
       (t.setSt n).arrs = x.arrs.map (fun _ => Arr.init) ∧ (t.setSt n).regs = x.regs ∧ (t.setSt n).queue = x.queue ∧
       (x.fused = none → (t.setSt n).tiles = x.tiles.map fun r => if r.failed.isSome then r else { r with left := x.redoOf r })) ∧
     (¬ may → exec (.softPreempt set) s = .next s ∧ exec (.hardPreempt set) s = .next s) ∧
     (may → (x.soft = true ∨ x.hard = true) → x.atBoundary = true → s.promReads n = false →
       answers (.preemptionPoint set) s fun t => s.onlySet t n ∧ t.setSt n = { x with atPoint := true }) ∧
     (¬ may ∨ (x.soft = false ∧ x.hard = false) ∨ x.atBoundary = false → exec (.preemptionPoint set) s = .next s)) ∧
    (let may := s.ready = true ∧ x.atPoint = true ∧ x.lentFrom = none ∧ s.moves n = false ∧ s.fencedSlot x.slot = false
     (may → answers (.resume set) s fun t => s.onlySet t n ∧ (t.setSt n).soft = false ∧ (t.setSt n).hard = false ∧
       (t.setSt n).atPoint = false ∧ (t.setSt n).regs = x.regs ∧ (t.setSt n).pc = x.pc ∧ (t.setSt n).mem = x.mem ∧
       (t.setSt n).queue = x.queue) ∧
     (¬ may → exec (.resume set) s = .next s))

/-- The promenade engine: the next descriptor starts, a block moves whole from its source to its destination, completion tells. On
a set whose units run. COPY, FILL, REDUCE_WRITE, TC_READ and TC_WRITE start the first descriptor not started when it is of
that operation, fewer than four run, and, ORDERED, none runs; a tier C one meets NO_RESOURCE without a tier C that can serve
it, else ACCESS beyond the context's extent. A started descriptor whose source and destination this module serves in one part
each moves its next block: the bytes read, or the pattern, are the bytes stored there, no other byte of tiers A and B changes,
and the descriptor goes on to the next block or row. A source in another module is asked for. A completed descriptor leaves
its slot, its status byte is written and its counter raised; a stopping status stops the set. What does not apply changes
nothing. Rests on the model's choices of log entries 4, 149. -/
def Obligations.PromenadesMoveBlocks : Prop :=
  ∀ (s : State) (set : Fin 768) (k : Fin 16),
    let n := set.val
    let x := s.setSt n
    (∀ e ∈ ([(.copy set, 1), (.fill set, 2), (.reduceWrite set, 3), (.tcRead set, 4), (.tcWrite set, 5)] : List (Instr × Nat)),
      let running := x.proms.filter Prom.started
      ∀ p, x.proms.find? (fun p => !p.started) = some p →
        let may := p.op = e.2 ∧ running.length < 4 ∧ (bit (leAt p.desc 2 2) 0 = true → running = []) ∧ s.unitRuns n = true ∧
          x.live = true
        let absent := s.get MEM_C_STATE = 0 ∨ (e.2 = 5 ∧ s.get MEM_C_STATE ≠ 1)
        let first := if e.2 = 4 then leAt p.desc 16 8 else leAt p.desc 24 8
        let outside := s.getF CTX_S_EXT_BLOCKS x.slot 0 < first + p.len / 4096
        let ends := fun st : Status => answers e.1 s fun t => s.onlySet t n ∧ t.setSt n = x.putProm { p with
          started := true, status := st.num, ending := true, source := 4, buf := [], put := 0 }
        (may → e.2 < 4 ∨ p.len = 0 ∨ p.rows = 0 ∨ (¬ absent ∧ ¬ outside) → answers e.1 s fun t => s.onlySet t n ∧
          t.setSt n = x.putProm { p with started := true }) ∧
        (may → 4 ≤ e.2 → p.len ≠ 0 → p.rows ≠ 0 → p.ending = false →
          (absent → ends .noResource) ∧ (¬ absent → outside → ends .access)) ∧
        (¬ may → exec e.1 s = .next s)) ∧
    (∀ p, x.proms[k.val]? = some p → s.unitRuns n = true → p.started = true → p.over = false →
      s.promReading n p.id = false → x.live = true → p.buf = [] → p.put = 0 → 1 ≤ p.op → p.op ≤ 5 → 0 < p.block →
      let done := fun s4 t : State => t = { s4 with sets := t.sets } ∧ (∀ m, m ≠ n → t.setSt m = s4.setSt m) ∧
        let whole := if p.op = 3 then 64 * srcSize p.fmt * (p.pos + 1) else p.pos + p.block
        t.setSt n = (s4.setSt n).putProm (if whole < p.len then { p with pos := if p.op = 3 then p.pos + 1 else p.pos + p.block }
          else { p with row := p.row + 1, pos := 0 })
      (∀ bs s2, bs.length = p.block →
        (p.op = 1 ∨ p.op = 3 ∨ p.op = 5 → ∃ tgt left s1, s.target n p.src .r = (tgt, left, s1) ∧ (∀ fa, tgt ≠ .away fa) ∧
          p.block ≤ left ∧ s1.readTarget n 2 tgt p.block = (.done, bs, s2)) →
        (p.op = 2 → bs = (List.replicate (p.block / 8) (toBytes 8 (leAt p.desc 16 8))).flatten ∧ s2 = s) →
        (p.op = 4 → s.fencedSlot x.slot = false ∧
          s.tcRead 0 2 (s.getF CTX_S_EXT_FIRST x.slot 0 + leAt p.desc 16 8 + p.pos / 4096) 1 = (.done, bs, s2)) →
        let q := { p with buf := bs }
        (p.op = 1 ∨ p.op = 2 ∨ p.op = 4 → ∀ tgt left s3 s4, s2.target n p.dst .w = (tgt, left, s3) → (∀ fa, tgt ≠ .away fa) →
          p.block ≤ left → s3.writeTarget n 2 tgt bs = (.done, s4) → answers (.promenadeBlock set k) s fun t => done s4 t ∧
            (∀ tier < 2, ∀ off, tgt = .here tier off → s.storesAt t tier off bs) ∧
            ∀ m a, tgt = .sm m a → t.mem.a = s.mem.a ∧ t.mem.b = s.mem.b ∧ ∀ i, (t.setSt m).mem.get 0 i =
              if a ≤ i ∧ i < a + bs.length then bs.getD (i - a) 0 else (s.setSt m).mem.get 0 i) ∧
        (p.op = 3 → ∀ s4, s2.promReduce n q = .on { q with put := bs.length } s4 →
          answers (.promenadeBlock set k) s (done s4)) ∧
        (p.op = 5 → ∀ s4, s2.fencedSlot (s2.setSt n).slot = false →
          s2.tcWrite (s2.getF CTX_S_EXT_FIRST (s2.setSt n).slot 0 + leAt p.desc 24 8 + p.pos / 4096) bs (.prom n p.id) = (.done, s4) →
          answers (.promenadeBlock set k) s (done s4))) ∧
      (p.op = 1 ∨ p.op = 3 ∨ p.op = 5 → ∀ fa left s1 s2, s.target n p.src .r = (.away fa, left, s1) →
        s1.remote n 1 p.src fa (.readBlock (min p.block (max left 1))) (.prom n p.id) = (.sent, s2) →
        answers (.promenadeBlock set k) s fun t => t = { s2 with sets := t.sets } ∧ t.fab.sent = s2.fab.sent ∧
          t.setSt n = (s2.setSt n).putProm p)) ∧
    (∀ p, s.unitRuns n = true → x.bound = true → (x.proms.find? fun p => p.started && p.over && !s.promFlying n p.id) = some p →
      let place := p.addr + 5
      (p.status ≤ 12 → (Status.ofNum p.status).stops = false → x.lentFrom ≠ some x.slot → place < setMemBytes →
        x.err.get 0 (place / 8) ≤ 1 → answers (.promenadeComplete set) s fun t => s.onlySet t n ∧
          (t.setSt n).proms = x.proms.filter (fun q => decide (q.id ≠ p.id)) ∧ (t.setSt n).regs = x.regs ∧
          (∀ i, (t.setSt n).counter i = if i = leAt p.desc 6 1 % 64
            then x.counter i + BitVec.ofNat 64 (leAt p.desc 40 2) else x.counter i) ∧
          ∀ i, (t.setSt n).mem.get 0 i = if i = place then BitVec.ofNat 8 p.status else x.mem.get 0 i) ∧
      ((Status.ofNum p.status).stops = true → x.lentFrom = none → answers (.promenadeComplete set) s fun t =>
        (t.setSt n).run = .stopped ∧ (t.setSt n).frozen = true ∧ ∃ f, (t.setSt n).fault = some f ∧
          (x.fault = none → f.status = p.status ∧ f.source = p.source ∧ f.addr = localAddr p.addr))) ∧
    (s.unitRuns n = false → exec (.promenadeBlock set k) s = .next s ∧ exec (.promenadeComplete set) s = .next s)

/-- UPDATE: the head of a context's queue starts with its flags sampled, each block is rewritten or cleared, completion tells. An
UPDATE at the head of a context's queue, with no UPDATE or drain in progress, leaves the queue. With no entries it completes
at once. With entries that pass their checks it holds them with their scales; STEP_ABORT is sampled and cleared;
STEP_OVERRANGE makes it skip, moves the active exponent table on and is cleared. Each block is read, computed by its program
(the model's arithmetic of R208: the master, the moments the program keeps, the working copy in BF16, the cleared accumulator)
and written back; of a skipped UPDATE only the accumulator is cleared. Behind the last block it completes with DONE, OVERRANGE
or ABORTED, writes its status and adds INCREMENT. An UPDATE with another in progress, and a block or completion with none,
change nothing. Rests on the model's choices of log entries 4, 153. -/
def Obligations.UpdatesRewriteBlocksAndComplete : Prop :=
  ∀ (s : State) (slot : Fin 32),
    let i := slot.val
    let z := s.frzSlot i
    let counted := fun (d : RoundDesc) (t : State) => ∀ o, s.ownSet i d.set = some o →
      (s.setSt (s.homeOf i d.set)).lentFrom ≠ some i → ∃ o', t.ownSet i d.set = some o' ∧ ∀ k, o'.counter k =
        if k = leAt d.desc 6 1 % 64 then o.counter k + BitVec.ofNat 64 (leAt d.desc 36 2) else o.counter k
    (∀ d, s.frzHead i 2 = some d →
      (z.update.isSome = true ∨ z.drain.isSome = true → exec (.update slot) s = .next s) ∧
      (z.update = none → z.drain = none → leAt d.desc 20 4 = 0 → answers (.update slot) s fun t => counted d t ∧
        t.frzSlot i = { z with queue := z.queue.drop 1 } ∧ t.mem = s.mem) ∧
      (z.update = none → z.drain = none → leAt d.desc 20 4 ≠ 0 → ∀ es s1 rs s2,
        (s.frzPop i).checkTable i d.desc = (.done, es, s1) → s1.readScales i es = (.done, rs, s2) →
        s2.getF CTX_S_STEP_OVERRANGE i 0 = 0 ∨ s2.getF CTX_S_ACTIVE_TABLE i 0 < 3 → answers (.update slot) s fun t =>
        let skip := s2.getF CTX_S_STEP_OVERRANGE i 0
        (t.frzSlot i).update = some ⟨d, if skip = 1 then 1 else if s2.getF CTX_S_STEP_ABORT i 0 = 1 then 2 else 0, rs, 0, 0, false⟩ ∧
        (t.frzSlot i).queue = (s2.frzSlot i).queue ∧ t.getF CTX_S_STEP_ABORT i 0 = 0 ∧ t.getF CTX_S_STEP_OVERRANGE i 0 = 0 ∧
        t.getF CTX_S_ACTIVE_TABLE i 0 = s2.getF CTX_S_ACTIVE_TABLE i 0 + skip ∧ t.mem = s2.mem ∧ t.sets = s2.sets)) ∧
    (s.frzHead i 2 = none → exec (.update slot) s = .next s) ∧
    (∀ u num e scale rest, z.update = some u → u.left = (num, e, scale) :: rest → s.ready = true → s.fencedSlot i = false →
      let on := fun (v : Upd) => if u.block + 1 < entryBlocks e then { v with block := u.block + 1 }
        else { v with left := rest, block := 0 }
      (u.mode = 0 → ∀ x s1 s2, s.readBlock i e u.block = (x, s1) → x.status = .done →
        s1.writeParts i (blockWrites e scale u.block x) = (.done, s2) → answers (.updateBlock slot) s fun t =>
          (t.frzSlot i).update = some (on { u with wrote := true }) ∧ t.mem = s2.mem ∧ t.sets = s2.sets ∧
          (∀ j, j ≠ i → t.frzSlot j = s2.frzSlot j)) ∧
      (u.mode = 0 → ∀ x s1, s.readBlock i e u.block = (x, s1) → x.status ≠ .done → u.status = 0 →
        answers (.updateBlock slot) s fun t => (t.frzSlot i).update = some (on { u with status := x.status.num })) ∧
      (u.mode ≠ 0 → ∀ s1, s.ctxPut i 1 (blockAddr e 40 6 u.block) (List.replicate 384 0) = (.done, s1) →
        answers (.updateBlock slot) s fun t => (t.frzSlot i).update = some (on u) ∧ t.mem = s1.mem ∧ t.sets = s1.sets)) ∧
    (∀ (e : List Byte) (g th m v : Nat),
      let out := updateElem e g th m v
      let nlr := neg32 (leAt e 56 4)
      let wd := leAt e 60 4
      (leAt e 0 1 = 1 → out.2.1 = fma32 (leAt e 64 4) m (mul32 (leAt e 68 4) g) ∧
        out.2.2 = fma32 (leAt e 72 4) v (mul32 (leAt e 76 4) (mul32 g g)) ∧ out.1 = fma32 nlr (fma32 wd th (div32
          (mul32 out.2.1 (leAt e 84 4)) (add32 (sqrt32 (mul32 out.2.2 (leAt e 88 4))) (leAt e 80 4)))) th) ∧
      (leAt e 0 1 = 3 → out = (fma32 nlr (fma32 wd th g) th, m, v))) ∧
    (z.update = none → exec (.updateBlock slot) s = .next s ∧ exec (.updateComplete slot) s = .next s) ∧
    (∀ u, z.update = some u → u.left = [] → s.ready = true → s.fencedSlot i = false → s.journals i = false →
      s.replaying i = false →
      (u.status = 0 → answers (.updateComplete slot) s fun t => t.frzSlot i = { z with update := none } ∧ counted u.desc t ∧
        t.mem = s.mem ∧ t.hng.updDone = if u.mode = 1 ∨ u.mode = 2 then s.hng.updDone else s.hng.updDone ||| 2 ^ i) ∧
      ((Status.ofNum u.status).stops = true → ∀ o, s.ownSet i u.desc.set = some o → o.lentFrom = none →
        answers (.updateComplete slot) s fun t => (t.frzSlot i).update = none ∧ ∃ o', t.ownSet i u.desc.set = some o' ∧
          o'.run = .stopped ∧ o'.frozen = true))

/-- FREEZE, EXPORT and RESTORE: what takes the head of a context's queue, what tier C holds, what completion leaves. Of a slot
with the descriptor at the head of its queue and nothing in its way. FREEZE leaves the queue and drains into the slot that
does not hold the newest complete freeze, or the slot it names, whose header is invalid from then on, or counts a failure;
tier C changes in that header block only. With no entries it completes at once; without a writable tier C it fails with
NO_RESOURCE. A programmed tier C write stores its blocks whole, leaves every other byte, and is counted; each 64-byte line of
a drain's write is as it was when the FREEZE began or as it is now. Behind the drain's last write the complete header is
stored, LAST_SEQ and LAST_SLOT say so, and the descriptor completes. EXPORT of a slot that holds a complete freeze begins, and
ends with its descriptor complete once storage has acknowledged; of another it fails with CHECK_FAIL. RESTORE whose table and
pieces pass begins; behind its last piece the working copies and accumulators are derived and it completes. With none in
progress the completions change nothing. Rests on the model's choices of log entries 4, 52, 53, 153. -/
def Obligations.FreezesDrainExportAndRestore : Prop :=
  ∀ (s : State) (slot : Fin 32) (extra : BitVec 8),
    let i := slot.val
    let z := s.frzSlot i
    let popped := { z with queue := z.queue.drop 1 }
    let counted := fun (d : RoundDesc) (t : State) => ∀ o, s.ownSet i d.set = some o →
      (s.setSt (s.homeOf i d.set)).lentFrom ≠ some i → ∃ o', t.ownSet i d.set = some o' ∧ ∀ k, o'.counter k =
        if k = leAt d.desc 6 1 % 64 then o.counter k + BitVec.ofNat 64 (leAt d.desc 36 2) else o.counter k
    let failed := fun (d : RoundDesc) (st : Status) (t : State) => counted d t ∧ t.mem = s.mem ∧ t.frzSlot i = popped ∧
      t.get FRZ_FREEZE_FAILS = min FRZ_FREEZE_FAILS.top (s.get FRZ_FREEZE_FAILS + 1) ∧
      s.recorded t .data RT_FREEZE_FAIL 9 0 (s.ctxOf i) [leAt d.desc 4 1, st.num, z.seq]
    (∀ d, s.frzHead i 1 = some d → z.update = none → z.drain = none → z.restore = none → z.rebuild = none →
      let n := leAt d.desc 20 4
      (z.parity ≠ none → n ≠ 0 → answers (.freeze slot) s fun t => t.frzSlot i = z ∧ t.getF FRZ_S_DRAIN_STATE i 0 = 2) ∧
      (n = 0 → answers (.freeze slot) s fun t => t.frzSlot i = popped ∧ counted d t ∧ t.mem = s.mem ∧ t.tierC = s.tierC) ∧
      (z.parity = none → n ≠ 0 → s.get MEM_C_STATE ≠ 1 → answers (.freeze slot) s (failed d .noResource)) ∧
      (z.parity = none → n ≠ 0 → s.get MEM_C_STATE = 1 → answers (.freeze slot) s fun t =>
        let f := if bit (leAt d.desc 2 2) 1 then leAt d.desc 7 1 else if s.newestSlot i = some 0 then 1 else 0
        let head := 4096 * s.areaBlock i f 0
        (t.frzSlot i).queue = z.queue.drop 1 ∧
        (∀ k, k < head ∨ head + 4096 ≤ k → t.tierC.bytes.get 0 k = s.tierC.bytes.get 0 k) ∧
        ((∃ w, (t.frzSlot i).drain = some w ∧ w.desc = d ∧ w.fslot = f ∧ t.slotSeq i f = none ∧ t.getF FRZ_S_DRAIN_STATE i 0 = 1) ∨
          min FRZ_FREEZE_FAILS.top (s.get FRZ_FREEZE_FAILS + 1) ≤ t.get FRZ_FREEZE_FAILS))) ∧
    (s.frzHead i 1 = none → exec (.freeze slot) s = .next s) ∧
    (∀ w ws, s.tierC.flying = w :: ws → (∀ j, w.who = .drain j → j < 32) → answers (.tierCWriteDone extra) s fun t =>
      let n := w.bytes.length / 4096
      let bs := (s.drainBytes w).1
      t = { s with regs := t.regs, tierC := t.tierC, free := t.free } ∧ t.tierC.flying = ws ∧ bs.length = w.bytes.length ∧
      ((∀ j, w.who ≠ .drain j) → bs = w.bytes) ∧
      (∀ j v p, w.who = .drain j → (s.frzSlot j).drain = some v → (v.parts.find? fun q => decide (q.1 = w.block)) = some p →
        ∀ k, (bs.drop (64 * k)).take 64 = (w.bytes.drop (64 * k)).take 64 ∨
          (bs.drop (64 * k)).take 64 = ((padTo w.bytes.length 0 (s.ctxBytes j 3 1 p.2.1 p.2.2).2.1).drop (64 * k)).take 64) ∧
      (∀ k, t.tierC.bytes.get 0 k = if 4096 * w.block ≤ k ∧ k < 4096 * w.block + w.bytes.length
        then bs.getD (k - 4096 * w.block) 0 else s.tierC.bytes.get 0 k) ∧
      (∀ k, t.tierC.bad.get false k = if w.block ≤ k ∧ k < w.block + n then false else s.tierC.bad.get false k) ∧
      t.get64 MEM_C_HOST_LO MEM_C_HOST_HI 0 = (s.get64 MEM_C_HOST_LO MEM_C_HOST_HI 0 + n) % 2 ^ 64 ∧
      t.get64 MEM_C_PROG_LO MEM_C_PROG_HI 0 = (s.get64 MEM_C_PROG_LO MEM_C_PROG_HI 0 + (n + extra.toNat)) % 2 ^ 64 ∧
      ∀ j, w.who = .drain j → t.getF FRZ_S_DRAIN_BLOCKS j 0 = (s.getF FRZ_S_DRAIN_BLOCKS j 0 + n) % 2 ^ 30) ∧
    (s.tierC.flying = [] → exec (.tierCWriteDone extra) s = .next s) ∧
    (∀ d, z.drain = some d → s.ready = true → (∀ w ∈ s.tierC.flying, w.who ≠ .drain i) → s.get MEM_C_STATE = 1 →
      bit (leAt d.desc.desc 2 2) 0 = false ∨ s.getF FRZ_S_STRIPE_VALID i 0 = 0 → answers (.drainComplete slot) s fun t =>
      let h := freezeHeader 1 d.seq (s.getF CTX_S_JOB i 0) d.desc.step (s.ctxOf i) s.self d.entries d.blocks s.callerCycles
      let at_ := 4096 * s.areaBlock i d.fslot 0
      t.frzSlot i = { z with drain := none } ∧ counted d.desc t ∧ t.mem = s.mem ∧ t.tierC.flying = s.tierC.flying ∧
      (∀ k, t.tierC.bytes.get 0 k = if at_ ≤ k ∧ k < at_ + 4096 then h.getD (k - at_) 0 else s.tierC.bytes.get 0 k) ∧
      t.getF FRZ_S_LAST_SEQ i 0 = d.seq % 2 ^ 32 ∧ t.getF FRZ_S_LAST_SLOT i 0 = d.fslot % 2 ∧
      t.getF FRZ_S_DRAIN_STATE i 0 = 0 ∧ t.get FRZ_FREEZES_DONE = (s.get FRZ_FREEZES_DONE + 1) % 2 ^ 32) ∧
    (∀ d, s.frzHead i 4 = some d → z.exporting = none →
      let ch := leAt d.desc 38 2
      let f := leAt d.desc 7 1
      let fits := ch < 64 ∧ (f + 1) * s.slotBlocks i ≤ s.getF CTX_S_EXT_BLOCKS i 0 ∧
        4096 * (s.exportBlocks i f).length ≤ s.get64 MBX_T_REMOTE_LEN_LO MBX_T_REMOTE_LEN_HI ch
      (leAt d.desc 20 4 = 0 → answers (.exportStart slot) s fun t => t.frzSlot i = popped ∧ counted d t) ∧
      (leAt d.desc 20 4 ≠ 0 → s.get MEM_C_STATE ≠ 1 → answers (.exportStart slot) s (failed d .noResource)) ∧
      (leAt d.desc 20 4 ≠ 0 → s.get MEM_C_STATE = 1 → fits →
        (s.slotSeq i f = none → answers (.exportStart slot) s (failed d .checkFail)) ∧
        (s.slotSeq i f ≠ none → s.getF MBX_T_QP_STATE ch 0 ≠ 1 → answers (.exportStart slot) s (failed d .peerLost)) ∧
        (s.slotSeq i f ≠ none → s.getF MBX_T_QP_STATE ch 0 = 1 → answers (.exportStart slot) s fun t =>
          (t.frzSlot i).queue = z.queue.drop 1 ∧ (∃ x, (t.frzSlot i).exporting = some x ∧ x.desc = d) ∧ t.sets = s.sets))) ∧
    (∀ x, z.exporting = some x → s.ready = true → x.status = 0 → (∀ p ∈ s.mbx.rdma, p.slot = i → ∀ a b c, p.op ≠ .write a b c) →
      (∀ r ∈ z.repairs, r.use ≠ .exporting) → answers (.exportDone slot) s fun t =>
        t.frzSlot i = { z with exporting := none } ∧ counted x.desc t ∧ t.mem = s.mem) ∧
    (∀ d es s1 ps s2, s.frzHead i 3 = some d → z.restore = none → z.update = none → z.drain = none → leAt d.desc 20 4 ≠ 0 →
      (s.frzPop i).checkTable i d.desc = (.done, es, s1) → s1.readPieces i (leAt d.desc 24 8) (leAt d.desc 32 4) = (.done, ps, s2) →
      (∀ p ∈ ps, leAt p 10 1 = 2 → leAt d.desc 38 2 < 64) → answers (.restore slot) s fun t =>
        ∃ r, (t.frzSlot i).restore = some r ∧ r.desc = d ∧ (ps = [] → r.pieces = [] ∧ r.status = 0)) ∧
    (∀ r, z.restore = some r → r.pieces = [] → s.ready = true → s.fencedSlot i = false → r.status = 0 →
      ∀ es s1 s2, (s.putFrz i { z with restore := none }).checkTable i r.desc.desc = (.done, es, s1) →
        s1.derive i (es.flatMap fun e => (List.range (entryBlocks e.2)).map fun b => (e.2, b)) = (.done, s2) →
        answers (.restoreDone slot) s fun t => t = s2.frzDone i r.desc .done false ∧ t.mem = s2.mem ∧
          t.frzSlot i = s2.frzSlot i) ∧
    (z.drain = none → exec (.drainComplete slot) s = .next s) ∧ (z.exporting = none → exec (.exportDone slot) s = .next s) ∧
    (z.restore = none → exec (.restoreDone slot) s = .next s)

/-- Parity stripes and REBUILD: parts are exclusive-or'd once, grants answered or held, a silent member or a lost source ends it.
On a ready module, from a member of the stripe of a context that is not fenced. A part of the SEQ under way, of a granted
window, not heard before, is exclusive-or'd into the staging window and counts once; one of an older SEQ is counted stale. A
grant of the SEQ under way is served and owed no more; one for a FREEZE still to complete is held. A member that answers
nothing in time ends the phase: PARITY_STATE 3, counted. REBUILD without a valid stripe gives ACCESS, without a writable tier
C NO_RESOURCE, with a drain, parity phase or rebuild under way ORDER, each recorded; else it is busy until its last block is
written; then RESULT has its status, and with DONE PROGRESS reads 100 and the slot's restart point is its SEQ. Rests on the
model's choices of log entries 4, 152. -/
def Obligations.ParityAndRebuild : Prop :=
  ∀ (s : State) (src : BitVec 12) (context : BitVec 16) (seq window : BitVec 32) (block : Fin 65536) (bytes : List Byte)
      (slot : Fin 32) (member : Fin 4),
    let part := Instr.parityPart src context seq window block bytes
    let grant := Instr.parityGrant src context seq window
    (s.slotOf context.toNat = none ∨ s.ready = false → exec part s = .next s ∧ exec grant s = .next s) ∧
    (∀ i m, s.slotOf context.toNat = some i → s.ready = true → s.fencedSlot i = false → s.stripeIndex i src.toNat = some m →
      let z := s.frzSlot i
      (∀ p, z.parity = some p →
        (seq.toNat < p.seq → answers part s fun t => t = { s with regs := t.regs } ∧
          s.wordsBut t [FRZ_STALE_PARITY.addr 0 0] ∧
          t.get FRZ_STALE_PARITY = min FRZ_STALE_PARITY.top (s.get FRZ_STALE_PARITY + 1)) ∧
        (∀ x, seq.toNat = p.seq → (p.granted.find? fun x => decide (x.window = window.toNat)) = some x →
          block.val < s.windowBlocks i x.window →
          ((m, block.val) ∈ x.heard → exec part s = .next s) ∧
          ((m, block.val) ∉ x.heard → x.heard.length + 1 < 3 * s.windowBlocks i x.window → ∀ old s1 s2,
            s.ctxBytes i 3 0 (s.stageAt i x.window + 4096 * block.val) 4096 = (.done, old, s1) →
            s1.ctxPut i 3 (s.stageAt i x.window + 4096 * block.val) (xorBytes old (padTo 4096 0 bytes)) = (.done, s2) →
            answers part s fun t => t.mem = s2.mem ∧
              (t.frzSlot i).parity = some { p with granted := p.granted.map fun g =>
                if g.window = x.window then { x with heard := x.heard ++ [(m, block.val)] } else g })) ∧
        (p.seq = seq.toNat → (m, window.toNat) ∈ p.owe → answers grant s fun t =>
          ∀ q, (t.frzSlot i).parity = some q → (m, window.toNat) ∉ q.owe) ∧
        (p.seq < seq.toNat → answers grant s fun t => t.mem = s.mem ∧
          t.frzSlot i = { z with grants := z.grants ++ [(m, seq.toNat, window.toNat)] })) ∧
      (z.parity = none → s.getF FRZ_S_PROTECTED_SEQ i 0 < seq.toNat → window.toNat < s.windows i → answers grant s fun t =>
        t.mem = s.mem ∧ t.frzSlot i = { z with grants := z.grants ++ [(m, seq.toNat, window.toNat)] })) ∧
    (let i := slot.val
     let z := s.frzSlot i
     (z.parity = none → exec (.parityTimeout slot member) s = .next s) ∧
     (∀ p, z.parity = some p → s.ready = true → member.val ≠ s.stripeSelf i →
       (∃ o ∈ p.owe, o.1 = member.val) ∨ (∃ x ∈ p.granted,
         (x.heard.filter fun h => decide (h.1 = member.val)).length < s.windowBlocks i x.window) →
       answers (.parityTimeout slot member) s fun t => (t.frzSlot i).parity = none ∧ t.getF FRZ_S_PARITY_STATE i 0 = 3 ∧
         t.get FRZ_PARITY_FAILS = min FRZ_PARITY_FAILS.top (s.get FRZ_PARITY_FAILS + 1) ∧ t.mem = s.mem) ∧
     (s.ready = true → s.get FRZ_BUSY = 0 →
       let stripe := s.getF CTX_S_STATE i 0 ≠ 0 ∧ s.getF FRZ_S_STRIPE_VALID i 0 ≠ 0 ∧ s.getF FRZ_S_PARITY_SLOTS i 0 ≠ 0 ∧
         s.slotBlocks i % 3 = 0 ∧ s.third i ≠ 0
       let idle := z.drain = none ∧ z.parity = none ∧ z.rebuild = none
       let fails := fun st : Status => answers (.rebuild slot) s fun t => t.frz = s.frz ∧ t.get FRZ_RESULT = st.num ∧
         t.get FRZ_BUSY = 0 ∧ s.recorded t .data RT_FREEZE_REBUILD_FAIL 9 0 (s.ctxOf i) [st.num, 0]
       (¬ stripe → fails .access) ∧ (stripe → s.get MEM_C_STATE ≠ 1 → fails .noResource) ∧
       (stripe → s.get MEM_C_STATE = 1 → ¬ idle → fails .order) ∧
       (stripe → s.get MEM_C_STATE = 1 → idle → answers (.rebuild slot) s fun t => t.get FRZ_BUSY = 1 ∧
         t.getF FRZ_S_DRAIN_STATE i 0 = 3 ∧ (t.frzSlot i).rebuild ≠ none ∧ t.tierC.bytes = s.tierC.bytes)) ∧
     (∀ r, z.rebuild = some r → r.stage = 3 → s.ready = true → (∀ w ∈ s.tierC.flying, w.who ≠ .parity i) → r.status ≤ 12 →
       s.get MEM_C_STATE = 1 →
       answers (.rebuildDone slot) s fun t => (t.frzSlot i).rebuild = none ∧ t.get FRZ_BUSY = 0 ∧ t.get FRZ_RESULT = r.status ∧
         t.getF FRZ_S_DRAIN_STATE i 0 = 0 ∧ (r.status = 0 → t.get FRZ_PROGRESS = 100 ∧
           t.getF FRZ_S_LAST_SEQ i 0 = r.seq % 2 ^ 32 ∧ t.getF FRZ_S_PROTECTED_SEQ i 0 = r.seq % 2 ^ 32 ∧
           t.get FRZ_REBUILDS = (s.get FRZ_REBUILDS + 1) % 2 ^ 32)) ∧
     (z.rebuild = none → exec (.rebuildDone slot) s = .next s))

/-- Optical engines: combs warm, lanes sweep, identify, settle, recalibrate, lose light and recover, and matrices and codes
follow. Each event moves the comb or lane it names from the state the spec gives it to the next, and does nothing in another:
WARMING to SETTLING to READY (measured matrices kept, lanes leave DISABLED); PARKED to SWEEP with light and a free bank;
IDENTIFY; FINE_LOCK; ENABLED with FAILS 0 and the heater code; RECAL and back. A failed sweep or pilot counts in FAILS (a
pilot in MISLOCKS too) and sweeps again, or retires the lane at 3. Loss of light parks the lane and counts nothing.
LOOP_UPDATE makes a waiting commit, then takes the demands. TARGET_LINE, RETRY and EQ_CODE writes have their effect, 49 to 62
storing 48. Said of lanes whose link is DOWN and whose short-mode port does not hold them; no other lane changes state. Rests
on the model's choices of log entries 4, 58, 85, 89. -/
def Obligations.CombsAndLanesLockAndHold : Prop :=
  ∀ (s : State) (engine : Fin 4) (measured : List Word) (lines : BitVec 32) (lane : Fin 192) (rx : Bool)
      (position : Option (BitVec 16)) (heard : Option (Fin 32)) (power : BitVec 16) (bank : Fin 36) (rings : List RingLoop)
      (p : Path) (port : Fin 12) (slot : Fin 16) (line : Fin 32) (code : Fin 64) (b : Fin 3),
    let e := engine.val
    let comb := s.getF OPT_E_COMB_STATE e 0
    let calm := fun l : Nat => (s.shortPort (l / 16) = false ∨ (l % 16 ≠ 15 ∧ s.txOn (16 * (l / 16) + 15) = true ∧
      s.rxOn (16 * (l / 16) + 15) = true ∧ s.getF OPT_P_HELD (l / 16) 0 = 0)) ∧ ∀ L, s.linkOf l = some L → s.getF LNK_L_LINK_STATE L 0 = 0
    let moved := fun (l : Nat) (r : Bool) (st : Nat) (t : State) => t.laneSt l r = st ∧
      ∀ m < 192, ∀ q, ¬ (m = l ∧ q = r) → t.laneSt m q = s.laneSt m q
    let l := lane.val
    let st := s.laneSt l rx
    let missed := fun t : State => (s.fails l rx < 2 → t.fails l rx = s.fails l rx + 1 ∧ moved l rx (if s.bankBusy l rx then 1 else 2) t) ∧
      (2 ≤ s.fails l rx → moved l rx 7 t ∧
        t.get OPT_LANE_RETIREMENTS = min OPT_LANE_RETIREMENTS.top (s.get OPT_LANE_RETIREMENTS + 1))
    let passes := heard.map Fin.val = some (s.lineOf l rx)
    let mislocked := fun t : State => t.get OPT_MISLOCKS = min OPT_MISLOCKS.top (s.get OPT_MISLOCKS + 1)
    (comb = 1 → answers (.combWarmed engine) s fun t => t = { s with regs := t.regs } ∧
      s.wordsBut t [OPT_E_COMB_STATE.addr e 0] ∧ t.getF OPT_E_COMB_STATE e 0 = 2) ∧
    (comb ≠ 1 → exec (.combWarmed engine) s = .next s) ∧
    (comb = 2 → answers (.combSettled engine measured) s fun t => t.getF OPT_E_COMB_STATE e 0 = 3 ∧
      bit (t.get OPT_COMB_READY) e = true ∧ bit t.opt.hot e = true ∧ t.links = s.links ∧
      (∀ k < 1152, ∀ w, measured[k]? = some w → t.word (0xD8000 + 0x1200 * e + 4 * k) = w.toNat) ∧
      ∀ m < 192, ∀ q, t.laneSt m q = if m / 48 = e ∧ s.portOn (m / 16) = true ∧ s.laneSt m q = 0
        then (if s.shortPort (m / 16) = true ∧ m % 16 < 15 then 8 else 1) else s.laneSt m q) ∧
    (comb ≠ 2 → exec (.combSettled engine measured) s = .next s) ∧
    (comb = 3 →
      (lines ≠ 0 → (∀ m < 192, m / 48 = e → 2 ≤ s.laneSt m false → s.laneSt m false ≤ 6 → lines.getLsbD (s.lineOf m false) = true) →
        answers (.pilotCheck engine lines) s fun t => t = { s with regs := t.regs } ∧ s.wordsBut t [OPT_E_LINE_OK.addr e 0] ∧
          t.getF OPT_E_LINE_OK e 0 = lines.toNat) ∧
      (lines = 0 → (∀ L < 192, s.getF LNK_L_LINK_STATE L 0 = 0) → answers (.pilotCheck engine lines) s fun t =>
        t.getF OPT_E_COMB_STATE e 0 = 4 ∧ bit (t.get OPT_ENGINE_FAILED) e = true ∧ bit (t.get OPT_COMB_READY) e = false ∧
        ∀ m < 192, t.laneSt m false = if m / 48 = e ∧ ((1 ≤ s.laneSt m false ∧ s.laneSt m false ≤ 6) ∨ s.laneSt m false = 8)
          then 1 else s.laneSt m false)) ∧
    (comb ≠ 3 → exec (.pilotCheck engine lines) s = .next s) ∧
    (let may := st = 1 ∧ s.engineLit l = true ∧ s.bankBusy l rx = false ∧
       (if rx then bit (s.getF OPT_P_LOS (l / 16) 0) (l % 16) = false else bit (s.getF OPT_E_LINE_OK (l / 48) 0) (s.lineOf l false) = true)
     (may → calm l → answers (.sweepStart lane rx) s (moved l rx 2)) ∧ (¬ may → exec (.sweepStart lane rx) s = .next s)) ∧
    (st = 2 → calm l → answers (.sweepDone lane rx position) s fun t => match position with
      | some u => moved l rx 3 t ∧ t.opt.demand.get 0 (16 * bankOf l rx + l % 16) = u.toNat
      | none => missed t) ∧
    (st ≠ 2 → exec (.sweepDone lane rx position) s = .next s) ∧
    (st = 3 → calm l → answers (.identify lane rx heard) s fun t =>
      (passes → moved l rx 4 t ∧ t.get OPT_MISLOCKS = s.get OPT_MISLOCKS ∧
        t.getF (if rx then OPT_LN_RX_LINE else OPT_LN_TX_LINE) (l / 16) (l % 16) = s.lineOf l rx) ∧
      (¬ passes → missed t ∧ mislocked t)) ∧
    (st ≠ 3 → exec (.identify lane rx heard) s = .next s) ∧
    (let k := 2 * l + bitOf rx
     (st = 4 → k ∉ s.opt.settling → exec (.fineLock lane rx) s = .next { s with opt := { s.opt with settling := k :: s.opt.settling } }) ∧
     (st ≠ 4 ∨ k ∈ s.opt.settling → exec (.fineLock lane rx) s = .next s) ∧
     (st = 4 → k ∈ s.opt.settling → calm l → answers (.settle lane rx power) s fun t => moved l rx 5 t ∧ t.fails l rx = 0 ∧
       t.getF (if rx then OPT_LN_RX_HEATER else OPT_LN_TX_HEATER) (l / 16) (l % 16) = s.drive (bankOf l rx) (l % 16)) ∧
     (st ≠ 4 ∨ k ∉ s.opt.settling → exec (.settle lane rx power) s = .next s)) ∧
    (let alone := ∀ k < 16, s.laneSt (16 * (l / 16) + k) rx ≠ 6
     (st = 5 → alone → calm l → answers (.recalStart lane rx) s (moved l rx 6)) ∧
     (st ≠ 5 ∨ ¬ alone → exec (.recalStart lane rx) s = .next s)) ∧
    (st = 6 → calm l → answers (.recalDone lane rx heard) s fun t =>
      (passes → moved l rx 5 t ∧ t.get OPT_MISLOCKS = s.get OPT_MISLOCKS) ∧ (¬ passes → missed t ∧ mislocked t)) ∧
    (st ≠ 6 → exec (.recalDone lane rx heard) s = .next s) ∧
    (let k := bank.val
     let lo := 0xD8000 + 0x200 * k
     let due := bit (s.getF OPT_P_MATRIX_COMMIT (k / 3) 0) (k % 3) = true
     s.getF OPT_E_COMB_STATE (k / 9) 0 = 3 → (∀ r ∈ rings, r.jumped = false ∧ -2000 ≤ r.err.toInt ∧ r.err.toInt ≤ 2000) →
       answers (.loopUpdate bank rings) s fun t => t = { s with regs := t.regs, opt := t.opt } ∧
         bit (t.getF OPT_P_MATRIX_COMMIT (k / 3) 0) (k % 3) = false ∧
         (∀ a, lo ≤ a → a < lo + 0x200 → ¬ due ∨ s.opt.shadow.find a = none → t.word a = s.word a) ∧
         (due → (s.opt.shadow.map Prod.fst).Nodup → ∀ a w, lo ≤ a → a < lo + 0x200 → s.opt.shadow.find a = some w → t.word a = w.toNat) ∧
         t.opt.demand = rings.foldl (fun m r => m.put 0 (16 * k + r.slot.val) r.demand.toNat) s.opt.demand ∧
         (∀ i < 16, t.driveClamped k i = true → bit (t.getF OPT_P_HEATER_CLAMP (k / 3) 0) (k % 3) = true) ∧
         ∀ m < 192, ∀ q, t.laneSt m q = s.laneSt m q) ∧
    (s.reached p (OPT_P_MATRIX_COMMIT.addr port.val 0) → answers (.matrixCommit p port b) s fun t =>
      t = { s with regs := t.regs, paths := t.paths } ∧ s.wordsBut t [OPT_P_MATRIX_COMMIT.addr port.val 0] ∧
      ∀ k < 3, bit (t.getF OPT_P_MATRIX_COMMIT port.val 0) k = (decide (k = b.val) || bit (s.getF OPT_P_MATRIX_COMMIT port.val 0) k)) ∧
    (let m := 16 * port.val + slot.val
     let lineAt := fun (t : State) (k : Nat) => t.getF OPT_LN_TARGET_LINE port.val k
     s.reached p (OPT_LN_TARGET_LINE.addr port.val slot.val) →
      ((∃ k < 16, lineAt s k = line.val) → exec (.targetLineWrite p port slot line) s = .next (s.touchPath p)) ∧
      ((∀ k < 16, lineAt s k ≠ line.val) → s.links.outbox = [] → calm m → answers (.targetLineWrite p port slot line) s fun t =>
        lineAt t slot.val = line.val ∧ (∀ k < 16, k ≠ slot.val → lineAt t k = lineAt s k) ∧
        ∀ q, let old := s.laneSt m q
          t.laneSt m q = (if 1 ≤ old ∧ old ≤ 7 then 1 else old) ∧ (1 ≤ old → old ≤ 7 → t.fails m q = 0)) ∧
      (calm m → answers (.laneRetry p port slot) s fun t => ∀ q, let old := s.laneSt m q
        t.laneSt m q = (if old = 7 then 1 else old) ∧ t.fails m q = if old = 7 then 0 else s.fails m q) ∧
      (let c := if 49 ≤ code.val ∧ code.val ≤ 62 then 48 else code.val
       let old := s.getF OPT_LN_EQ_CODE port.val slot.val
       answers (.eqCodeWrite p port slot code) s fun t => t.getF OPT_LN_EQ_CODE port.val slot.val = c ∧ t.mem = s.mem ∧
        t.links = s.links ∧ t.sets = s.sets ∧ (old ≤ 48 → c ≤ 48 → t.getF OPT_LN_RX_POWER port.val slot.val =
          unsigned 16 (signed 16 (s.getF OPT_LN_RX_POWER port.val slot.val) + 25 * ((old : Int) - (c : Int)))))) ∧
    (s.dieOn (l / 48) = true → (calm l → answers (.lossOfLight lane power) s fun t =>
        bit (t.getF OPT_P_LOS (l / 16) 0) (l % 16) = true ∧ t.getF OPT_LN_RX_POWER (l / 16) (l % 16) = power.toNat ∧
        moved l true (if 2 ≤ s.laneSt l true ∧ s.laneSt l true ≤ 6 then 1 else s.laneSt l true) t ∧ t.fails l true = s.fails l true) ∧
      answers (.lightReturn lane power) s fun t => t = { s with regs := t.regs } ∧
        bit (t.getF OPT_P_LOS (l / 16) 0) (l % 16) = false ∧ t.getF OPT_P_PORT_LOS (l / 16) 0 = 0 ∧
        t.getF OPT_LN_RX_POWER (l / 16) (l % 16) = power.toNat ∧ ∀ m < 192, ∀ q, t.laneSt m q = s.laneSt m q)

/-- Drawing the network: APPLY checks and retargets, REVERT restores the image, both end with a RESULT; routing entries are
checked. While a drawing runs, DRAW_CMD is discarded. APPLY of a pending set that fails its checks ends with ILLEGAL and
changes nothing else. One that passes is busy, ACTIVE_SET is the pending set and RETUNES_LEFT the transmit lanes retuned; with
every link DOWN and no message waiting, the lines of each router-facing port are those of the set, kept where they were, then
skipped in table order, and no other port's lines change. REVERT restores the image's line set and routes and clears every
skip entry first. APPLY_DONE with nothing left to retune ends with DONE, the timeout with TIMEOUT, each counted in DRAWS. A
routing entry with an invalid code is discarded with the held low word; a valid one takes both, with no other word changed.
Rests on the model's choices of log entries 4, 62, 140. -/
def Obligations.DrawingsAndRoutes : Prop :=
  ∀ (s : State) (p : Path) (entry : Fin 256) (high : Word),
    let quiet := s.links.outbox = [] ∧ ∀ L < 192, s.getF LNK_L_LINK_STATE L 0 = 0
    let word := TOP_RESULT.addr 0 0
    let ended := fun (st : Nat) (t : State) => s.wordsBut t [word] ∧ t.get TOP_BUSY = 0 ∧ t.get TOP_RESULT = st ∧
      t.get TOP_DRAWS = (s.get TOP_DRAWS + 1) % 2 ^ 16 ∧ t.get TOP_RETUNES_LEFT = s.get TOP_RETUNES_LEFT
    (s.reached p (TOP_DRAW_CMD.addr 0 0) →
      (s.get TOP_BUSY = 1 → exec (.drawApply p) s = .next (s.touchPath p) ∧ exec (.drawRevert p) s = .next (s.touchPath p)) ∧
      (s.get TOP_BUSY = 0 →
        (s.drawOk = false → answers (.drawApply p) s fun t => t = { s with regs := t.regs, paths := t.paths } ∧ ended 0xB t) ∧
        (s.drawOk = true → answers (.drawApply p) s fun t => t.get TOP_BUSY = 1 ∧ t.get TOP_ACTIVE_SET = t.get TOP_PEND_SET ∧
          t.get TOP_RETUNES_LEFT = min 255 t.links.retuned.length ∧
          (quiet → t.get TOP_PEND_SET = s.get TOP_PEND_SET ∧ t.mem = s.mem ∧
            (∀ q ∈ s.routerPorts, t.portLines q = s.skipped (relined (s.get TOP_PEND_SET) (s.portLines q))) ∧
            ∀ q < 12, q ∉ s.routerPorts → t.portLines q = s.portLines q)) ∧
        (quiet → answers (.drawRevert p) s fun t => t.get TOP_PEND_SET = s.imageLineSet % 2 ^ 32 ∧
          (∀ i < 16, t.getF TOP_CUT_VALID i 0 = 0) ∧
          let n := (imgValue s.boot.image 0x07).length / 8
          t.get TOP_ROUTE_COUNT = n % 512 ∧ ∀ i < 256,
            t.getF TOP_RT_DEST_FIRST i 0 = (if i < n then s.img 0x07 (8 * i) 2 else 0) % 2 ^ 12 ∧
            t.getF TOP_RT_PORT i 0 = (if i < n then s.img 0x07 (8 * i + 4) 1 else 0) % 2 ^ 8))) ∧
    (s.get TOP_BUSY = 1 → s.links.retuned = [] → answers .applyDone s fun t => t = { s with regs := t.regs } ∧ ended 0 t) ∧
    (s.get TOP_BUSY = 0 ∨ s.links.retuned ≠ [] → exec .applyDone s = .next s) ∧
    (s.get TOP_BUSY = 1 → answers .applyTimeout s fun t => t = { s with regs := t.regs } ∧ ended 2 t) ∧
    (s.get TOP_BUSY = 0 → exec .applyTimeout s = .next s) ∧
    (let lo := TOP_RT_DEST_FIRST.addr entry.val 0
     let v := high.toNat
     let x := s.path p
     let good := s.routeCode (v % 256) = true ∧ s.routeCode (v / 256 % 256) = true
     s.reached p (TOP_RT_PORT.addr entry.val 0) →
      (¬ good → answers (.routeEntryWrite p entry high) s fun t => t = { s with paths := t.paths } ∧
        ∀ w, x.held = some (lo, w) → (t.path p).held = none) ∧
      (good → s.links.outbox = [] → answers (.routeEntryWrite p entry high) s fun t =>
        t = { s with regs := t.regs, paths := t.paths } ∧ s.wordsBut t [lo, lo + 4] ∧
        t.getF TOP_RT_PORT entry.val 0 = v % 256 ∧ t.getF TOP_RT_ALT_PORT entry.val 0 = v / 256 % 256 ∧
        t.getF TOP_RT_USING_ALT entry.val 0 = s.getF TOP_RT_USING_ALT entry.val 0 ∧
        (∀ w, x.held = some (lo, w) → (t.path p).held = none ∧ s.fieldsWritten t lo w.toNat) ∧
        ((∀ w, x.held ≠ some (lo, w)) → t.word lo = s.word lo ∧ (t.path p).held = x.held)))

/-- Link bring-up: alignment, HELLO and its checks, ACCEPT, REJECT, WIDTH, timeouts, REFORM, and lanes that narrow and rejoin. A
lane aligned in ALIGN moves its link to HELLO, and one aligned on a link that is UP starts a retrain. A HELLO heard twice
alike in HELLO is judged: a fit one moves the link to CONFIRM (UP with ACCEPT already heard), another partner than the
expected one holds it with reason 1. ACCEPT in CONFIRM, with no lane aligned since its own ACCEPT, brings it UP with fresh
numbers and the common features; REJECT holds it with reason 8. WIDTH starts a retrain of a link that is UP, WIDTH_ACK ends
one with the lanes both sides keep and a replay of what is kept; its timeout takes the link DOWN. A partner not heard of is
missing, and with CUTOUT marked cut. A silent forwarded clock holds with reason 3. REFORM returns held links to ALIGN. A
narrowing lane leaves by a retrain, and may rejoin. (No message waits; where a link ends, it holds no flit.) Rests on the
model's choices of log entries 4, 60, 90. -/
def Obligations.LinksTrainHoldAndRetrain : Prop :=
  ∀ (s : State) (lane : Fin 192) (slot : Fin 16) (payload : List Byte) (port : Fin 12) (slots : BitVec 16) (p : Path) (codewords : Nat),
    let l := lane.val
    let k := l % 16
    let h := padTo 40 0 payload
    let state := fun (t : State) (L : Nat) => t.getF LNK_L_LINK_STATE L 0
    let idle := fun L : Nat => s.links.outbox = [] ∧ (s.lk L).kept = [] ∧ ∀ v, (s.lk L).queues.get [] v = []
    let retrains := fun (L : Nat) (t : State) => state t L = 5 ∧
      t.getF LNK_L_RETRAINS L 0 = min LNK_L_RETRAINS.top (s.getF LNK_L_RETRAINS L 0 + 1)
    let ctrl := fun (L type reason : Nat) (t : State) => ∃ bs, t = { s with out := .flit l bs 0 :: s.out } ∧
      (bs.drop 16).take 40 = s.ctrlBytes L l type (s.lk L).hears reason
    (s.loopback l = true → (s.laneOn l = true → s.links.handed = true → answers (.helloSend lane) s (ctrl l 1 0) ∧
      (leAt h 4 2 % 4096 = s.self → answers (.hello lane payload) s fun t => t = { s with regs := t.regs } ∧
        bit (t.getF LNK_P_LOOPBACK_OK (l / 16) 0) k = true))) ∧
    (∀ L, s.linkOf l = some L →
      let x := s.lk L
      let st := state s L
      let isAligned := ∃ e ∈ x.aligned, e.1 = k
      (s.laneOn l = true → st ≠ 0 → ¬ isAligned → s.links.outbox = [] → answers (.laneAligned lane slot) s fun t =>
        (t.lk L).aligned = x.aligned ++ [(k, slot.val)] ∧ (st = 1 → state t L = 2) ∧ (st = 4 → retrains L t) ∧
        (st ≠ 1 → st ≠ 4 → state t L = st)) ∧
      (s.laneOn l = false ∨ st = 0 ∨ isAligned → exec (.laneAligned lane slot) s = .next s) ∧
      (s.loopback l = false → isAligned → (st = 2 ∨ st = 3 → answers (.helloSend lane) s (ctrl L 1 0)) ∧
        (st = 6 → answers (.helloSend lane) s (ctrl L 3 (s.getF LNK_L_HOLD_REASON L 0)))) ∧
      (s.links.handed = true → s.rxOn l = true →
        (s.loopback l = false → st = 2 → isAligned → x.hello.find k = some h →
          let m := leAt h 4 2 % 4096
          let known := s.facesRouter (L / 16) = true ∨ (s.getF LNK_P_EXPECTED (L / 16) 0 ≠ 0xFFFF ∧ s.get LNK_PORT_AGNOSTIC = 0)
          let fit := leAt h 3 1 % 2 = bitOf (s.shortPort (L / 16)) ∧ leAt h 11 1 % 8 = s.get TOP_MODE + 2 * s.get TOP_NETWORKS ∧
            leAt h 14 1 = s.get TOP_GRID_X ∧ leAt h 15 1 = s.get TOP_GRID_Y ∧
            max (s.get LNK_GEN_MIN) (leAt h 1 1) ≤ min (s.get LNK_GEN_MAX) (leAt h 2 1)
          (known → m = s.expectedOf L → fit → s.links.outbox = [] → answers (.hello lane payload) s fun t =>
            state t L = (if x.accepted then 4 else 3) ∧ t.getF LNK_L_PARTNER L 0 = m ∧ t.getF LNK_P_SEEN_MODULE (L / 16) 0 = m ∧
            t.getF LNK_P_SEEN_VALID (L / 16) 0 = 1 ∧ t.fab.epochs.get 0 m = leAt h 10 1) ∧
          (known → m ≠ s.expectedOf L → answers (.hello lane payload) s fun t => state t L = 6 ∧
            t.getF LNK_L_HOLD_REASON L 0 = 1)) ∧
        (st = 3 → s.links.outbox = [] → x.receives &&& x.told = x.receives → answers (.accept lane payload) s fun t => state t L = 4 ∧
          t.getF LNK_L_NEXT_LSEQ L 0 = 0 ∧ (t.lk L).kept = [] ∧ (t.lk L).missing = false ∧
          t.get64 LNK_L_NEG_FEATURES_LO LNK_L_NEG_FEATURES_HI L = s.get64 LNK_FEATURES_LO LNK_FEATURES_HI 0 &&& leAt x.judged 16 8) ∧
        (st = 2 → answers (.accept lane payload) s fun t => t.lk L = { x with accepted := true, heard := leAt payload 24 2 }) ∧
        (st = 3 → leAt payload 0 1 = 3 → answers (.reject lane payload) s fun t => state t L = 6 ∧ t.getF LNK_L_HOLD_REASON L 0 = 8) ∧
        (st ≠ 3 → exec (.reject lane payload) s = .next s) ∧
        (st = 4 ∨ st = 5 → s.links.outbox = [] → answers (.width lane payload) s fun t => state t L = 5 ∧
          (t.lk L).heard = leAt payload 24 2 ∧ (st = 4 → retrains L t)) ∧
        (st = 5 → let tx := (s.lanesOf L).foldl (fun m j => if s.txOn j && bit (leAt payload 24 2) (j % 16) then m ||| 2 ^ (j % 16) else m) 0
          tx ≠ 0 → x.receives ≠ 0 → answers (.widthAck lane payload) s fun t => state t L = 4 ∧
            t.getF LNK_L_TX_LANES L 0 = tx % 2 ^ 16 ∧ t.getF LNK_L_RX_LANES L 0 = x.receives % 2 ^ 16 ∧ (t.lk L).kept = x.kept ∧
            ∀ e es, x.kept = e :: es → (t.lk L).replay = some (e.1, x.kept.map Prod.fst)) ∧
        (st ≠ 5 → exec (.widthAck lane payload) s = .next s)) ∧
      (let may := (st = 4 ∨ st = 5) ∧ bit (s.getF LNK_L_RX_LANES L 0) k = true ∧ 16 ≤ codewords
       (may → s.links.outbox = [] → answers (.laneNarrow lane codewords) s fun t => (t.lk L).removed = x.removed ||| 2 ^ k ∧
         state t L = 5 ∧ (st = 4 → retrains L t)) ∧ (¬ may → exec (.laneNarrow lane codewords) s = .next s)) ∧
      (bit x.removed k = true → answers (.laneRejoin lane) s fun t => t.lk L = { x with removed := setBits x.removed k k 0 } ∧
        state t L = st)) ∧
    (state s l = 5 → idle l → answers (.retrainTimeout lane) s fun t =>
      state t l = (if s.links.handed = true ∧ (s.lanesOf l).any s.laneOn = true then 1 else 0) ∧ t.getF LNK_L_TX_LANES l 0 = 0 ∧
      t.getF LNK_L_RX_LANES l 0 = 0 ∧ t.get LNK_LINK_DOWNS = min LNK_LINK_DOWNS.top (s.get LNK_LINK_DOWNS + 1)) ∧
    (state s l ≠ 5 → exec (.retrainTimeout lane) s = .next s) ∧
    (let m := s.expectedOf l
     let may := s.links.handed = true ∧ s.linkOf l = some l ∧ (s.lk l).greeted = false ∧ (s.lk l).missing = false ∧ m ≠ 0xFFFF
     (may → s.links.outbox = [] → answers (.discoveryTimeout lane) s fun t => (t.lk l).missing = true ∧
       t.getF LNK_P_MISSING (l / 16) 0 = 1 ∧ (s.get LNK_CUTOUT = 1 → if s.facesRouter (l / 16)
         then bit (t.get TOP_CUT_SLOTS) (m % 32) = true else bit (t.get TOP_CUT_PORTS) (l / 16) = true) ∧
       (s.get LNK_CUTOUT = 0 → t.get TOP_CUT_SLOTS = s.get TOP_CUT_SLOTS ∧ t.get TOP_CUT_PORTS = s.get TOP_CUT_PORTS)) ∧
     (¬ may → exec (.discoveryTimeout lane) s = .next s)) ∧
    (let L := 16 * port.val
     let may := s.shortPort port.val = true ∧ s.linkOf L = some L ∧ 1 ≤ state s L ∧ state s L ≤ 5
     (may → idle L → answers (.forwardedClockTimeout port) s fun t => state t L = 6 ∧ t.getF LNK_L_HOLD_REASON L 0 = 3) ∧
     (¬ may → exec (.forwardedClockTimeout port) s = .next s)) ∧
    (s.reached p (LNK_P_REFORM.addr port.val 0) → answers (.reform p port slots) s fun t => ∀ j < 192,
      state t j = (if j / 16 = port.val ∧ slots.getLsbD (j % 16) = true ∧ state s j = 6 then 1 else state s j) ∧
      (state s j = 6 → state t j = 1 → t.getF LNK_L_HOLD_REASON j 0 = 0 ∧ (t.lk j).aligned = []))

/-- The link protocol: an accepted flit advances, a bad one is asked for again, a new one is kept, a timeout replays. On a link
that is neither UP nor in RETRAIN flits are ignored. A bad flit counts a CRC error and makes one NAK due; nothing is accepted.
A good flit releases the kept flits up to its LACK and adds its credits; in sequence it moves EXPECT on, ends the NAK and, for
this module, owes a credit of its VC; with 15 hops behind it and another destination it is discarded and counted; out of
sequence it is asked for again. A link that is UP sends a flit being replayed first, under its own number; else, while the
port keeps fewer than 4,096 flits, a new flit of some VC that may send, under the next number, kept until acknowledged and
paid with a credit; else IDLE. A held flit goes unchanged when its wait ends. The replay timeout replays what is kept, or
takes the link DOWN with reason 7 at RETRY_LIMIT. Rests on the model's choices of log entries 19, 61, 93, 94, 139. -/
def Obligations.FlitsAreNumberedKeptAndReplayed : Prop :=
  ∀ (s : State) (link : Fin 192) (bytes : List Byte) (symbols newBad : Nat) (inBad : Bool),
    let L := link.val
    let x := s.lk L
    let st := s.getF LNK_L_LINK_STATE L 0
    let h := leAt bytes 0 16
    let rx := Instr.flitReceive link bytes symbols newBad inBad
    let f := flitOf bytes
    let lack := bits h 31 16
    let kept := if x.kept.any (fun e => decide (e.1 = lack)) then (x.kept.dropWhile fun e => decide (e.1 ≠ lack)).drop 1 else x.kept
    let asked := fun t : State => (t.lk L).expect = x.expect ∧ (t.lk L).nakked = true ∧ (x.nakked = false → (t.lk L).nakDue = true) ∧
      t.get LNK_NAKS_SENT = if x.nakked then s.get LNK_NAKS_SENT else min LNK_NAKS_SENT.top (s.get LNK_NAKS_SENT + 1)
    let sent := fun (n : Nat) (t : State) => ∃ b, t.out = .flit L b 0 :: s.out ∧ leAt b 0 2 = n % 65536
    (st ≠ 4 → st ≠ 5 → exec rx s = .next s) ∧
    (st = 4 ∨ st = 5 →
      (badFlit bytes inBad = true → answers rx s fun t => asked t ∧ (t.lk L).kept = x.kept ∧ t.mem = s.mem ∧
        t.get LNK_CRC_ERRORS = min LNK_CRC_ERRORS.top (s.get LNK_CRC_ERRORS + 1) ∧
        t.getF LNK_L_LINK_CRC_ERRORS L 0 = min LNK_L_LINK_CRC_ERRORS.top (s.getF LNK_L_LINK_CRC_ERRORS L 0 + 1)) ∧
      (badFlit bytes inBad = false → bit h 35 = false →
        (f.ftype ≠ 0 → bits h 15 0 ≠ x.expect → answers rx s fun t => asked t ∧ (t.lk L).kept = kept ∧
          t.getF LNK_L_LAST_LACK L 0 = lack) ∧
        (f.ftype ≠ 0 → bits h 15 0 = x.expect → f.ftype = 2 ∨ f.dest = s.self → answers rx s fun t =>
          (t.lk L).expect = (x.expect + 1) % 65536 ∧ (t.lk L).nakked = false ∧ (t.lk L).kept = kept ∧ t.mem = s.mem ∧
          (∀ v, (t.lk L).owed.get 0 v = x.owed.get 0 v + if v = f.vc then 1 else 0) ∧
          ∀ v, (t.lk L).credits.get 0 v = x.credits.get 0 v + if v = bits h 42 40 then bits h 51 43 else 0) ∧
        (f.ftype = 1 → bits h 15 0 = x.expect → f.dest ≠ s.self → f.hops = 15 → answers rx s fun t =>
          (t.lk L).expect = (x.expect + 1) % 65536 ∧
          t.get LNK_HOPS_DISCARDED = min LNK_HOPS_DISCARDED.top (s.get LNK_HOPS_DISCARDED + 1)) ∧
        (f.ftype = 0 → answers rx s fun t => (t.lk L).expect = x.expect ∧ (t.lk L).kept = kept ∧ (t.lk L).owed = x.owed))) ∧
    (st ≠ 4 → exec (.flitTransmit link) s = .next s ∧ exec (.replayTimeout link) s = .next s) ∧
    (st = 4 → s.links.outbox = [] →
      (∀ a n rest g, x.replay = some (a, n :: rest) → (x.kept.find? fun e => decide (e.1 = n)) = some (n, g) →
        answers (.flitTransmit link) s fun t => sent n t ∧ (t.lk L).kept = x.kept ∧
          (t.lk L).replay = if rest = [] then none else some (a, rest)) ∧
      ((∀ a n rest, x.replay ≠ some (a, n :: rest)) →
        let vs := if s.mayVc L x.round = [] then s.mayVc L [] else s.mayVc L x.round
        (4096 ≤ s.portKept (L / 16) ∨ vs = [] → answers (.flitTransmit link) s fun t => sent (s.getF LNK_L_NEXT_LSEQ L 0) t ∧
          (t.lk L).kept = x.kept ∧ t.getF LNK_L_NEXT_LSEQ L 0 = s.getF LNK_L_NEXT_LSEQ L 0) ∧
        (s.portKept (L / 16) < 4096 → vs ≠ [] → s.get MIS_PERMIT = 0 → x.reorder = none →
          answers (.flitTransmit link) s fun t =>
            let n := s.getF LNK_L_NEXT_LSEQ L 0
            sent n t ∧ t.getF LNK_L_NEXT_LSEQ L 0 = (n + 1) % 65536 ∧ ∃ v ∈ vs, ∃ g gs, x.queues.get [] v = g :: gs ∧
              (t.lk L).queues.get [] v = gs ∧ (t.lk L).kept = x.kept ++ [(n, g)] ∧
              (t.lk L).credits.get 0 v = x.credits.get 0 v - 1 ∧ ∀ w, w ≠ v → (t.lk L).queues.get [] w = x.queues.get [] w))) ∧
    (∀ i n g, x.reorder = some (i, n, g) → answers (.reorderTimeout link) s fun t => sent n t ∧ (t.lk L).reorder = none ∧
      t.get MIS_FIRED_TOTAL = s.get MIS_FIRED_TOTAL) ∧
    (x.reorder = none → exec (.reorderTimeout link) s = .next s) ∧
    (st = 4 → ∀ e es, x.kept = e :: es →
      (x.inRow + 1 < s.get LNK_RETRY_LIMIT → answers (.replayTimeout link) s fun t => t.mem = s.mem ∧
        t.lk L = { x with replay := some (e.1, x.kept.map Prod.fst), inRow := x.inRow + 1 } ∧
        t.get LNK_REPLAYS = min LNK_REPLAYS.top (s.get LNK_REPLAYS + 1) ∧
        t.getF LNK_L_LINK_REPLAYS L 0 = min LNK_L_LINK_REPLAYS.top (s.getF LNK_L_LINK_REPLAYS L 0 + 1)) ∧
      (s.get LNK_RETRY_LIMIT ≤ x.inRow + 1 → answers (.replayTimeout link) s fun t => t.getF LNK_L_HOLD_REASON L 0 = 7)) ∧
    (st = 4 → x.kept = [] → exec (.replayTimeout link) s = .next s)

/-- Rounds: entries commit or are refused, heads start, messages are taken, held or stale, and rounds end as the spec says. A
commit whose entry fails its checks changes only COMMIT_RESULT; one that passes stores the words, clears the shadow and moves
STATE. ROUND_START takes the head: in a group that is aborted or lost it completes with ORDER or PEER_LOST; else it runs
(shown for a broadcast with nothing to move). A message of no enabled group, or of an older VERSION, counts as stale; one
ahead of RSEQ is held; a part of the current stage that is not its chunk's last joins those arriving; a GRANT with nothing
left to send returns its slots; ABORT ends the round with its status. A late check that fails, a timeout and completion end
the round with CHECK_FAIL, PEER_LOST or its status: LAST_STATUS says so, RSEQ passes on, INCREMENT is added. (No message is
held and no replay runs.) Rests on the model's choices of log entries 4, 64, 69, 70. -/
def Obligations.RoundsCommitStartReceiveAndEnd : Prop :=
  ∀ (s : State) (p : Path) (group : Fin 64) (word : Word) (src : BitVec 12) (msg : List Byte) (successor : Bool),
    let g := group.val
    let x := s.group g
    let counted := fun (d : RoundDesc) (t : State) => ∀ o, s.ownSet d.slot d.set = some o →
      (s.setSt (s.homeOf d.slot d.set)).lentFrom ≠ some d.slot → ∃ o', t.ownSet d.slot d.set = some o' ∧ ∀ k, o'.counter k =
        if k = leAt d.desc 6 1 % 64 then o.counter k + BitVec.ofNat 64 (leAt d.desc 48 2) else o.counter k
    let ended := fun (h : Nat) (r : RoundRun) (st state : Nat) (t : State) => (t.group h).run = none ∧ t.getF RND_G_LAST_STATUS h 0 = st ∧
      t.getF RND_G_STATE h 0 = state ∧ t.getF RND_G_RSEQ h 0 = (s.getF RND_G_RSEQ h 0 + 1) % 2 ^ 32 ∧ counted r.desc t
    let calm := fun h : Nat => (s.group h).heldP = [] ∧ s.enc.replay = none ∧ s.enc.active = false
    (s.reached p (groupWord g 0) →
      let ws := word.toNat :: (List.range 15).map fun k => match x.shadow.find (k + 1) with
        | some w => w.toNat
        | none => s.word (groupWord g (k + 1))
      let c := (s.touchPath p).groupStore g ws
      let st := c.groupCheck g
      (st ≠ .done → answers (.groupCommit p group word) s fun t => t = { s with regs := t.regs, paths := t.paths } ∧
        s.wordsBut t [RND_G_COMMIT_RESULT.addr g 0] ∧ t.getF RND_G_COMMIT_RESULT g 0 = st.num ∧
        t.getF RND_G_LAST_STATUS g 0 = s.getF RND_G_LAST_STATUS g 0) ∧
      (st = .done → calm g → x.run = none → x.queue = [] → answers (.groupCommit p group word) s fun t =>
        t.group g = { x with shadow := [] } ∧ t.getF RND_G_COMMIT_RESULT g 0 = 0 ∧ (∀ h, h ≠ g → t.group h = s.group h) ∧
        (∀ k < 16, t.word (groupWord g k) = c.word (groupWord g k)) ∧
        t.getF RND_G_STATE g 0 = (if c.groupOn g = false then 0
          else if s.getF RND_E_VERSION g 0 ≠ c.getF RND_E_VERSION g 0 ∨ s.getF RND_G_STATE g 0 = 0 then 1 else s.getF RND_G_STATE g 0))) ∧
    (∀ d rest, x.queue = d :: rest → x.run = none → s.ready = true → s.fencedSlot d.slot = false → s.journalFull d.slot = false →
      let state := s.getF RND_G_STATE g 0
      (state = 3 ∨ state = 4 → answers (.roundStart group) s fun t => t.group g = { x with queue := rest } ∧ counted d t ∧
        t.mem = s.mem ∧ t.getF RND_G_STATE g 0 = state) ∧
      (state ≠ 3 → state ≠ 4 → s.groupOn g = true → leAt d.desc 4 1 = 4 → calm g →
        let r : RoundRun := ⟨d, s.stagesOf g 4, 0, 0, 0, [(s.me g, leAt d.desc 32 4)], [], [], [], [], [], [], [], 0⟩
        let s1 := (((s.putGroup g { x with queue := rest }).putRun g r).setF RND_G_STATE g 0 2).setF RND_G_TAG g 0 (leAt d.desc 50 2)
        s1.startOk g r = true → s1.roundFeatures g r = true → ¬ (s1.me g = leAt d.desc 14 2 ∧ leAt d.desc 16 8 ≠ leAt d.desc 24 8) →
        (∀ st ∈ r.stages, s1.sends g r st = [] ∧ s1.recvs g r st = []) → answers (.roundStart group) s fun t =>
          (t.group g).queue = rest ∧ t.getF RND_G_STATE g 0 = 2 ∧ t.getF RND_G_TAG g 0 = leAt d.desc 50 2 % 2 ^ 16 ∧
          ∃ q, (t.group g).run = some q ∧ q.desc = d ∧ q.stage = r.stages.length)) ∧
    (x.queue = [] ∨ x.run ≠ none → exec (.roundStart group) s = .next s) ∧
    (∀ e ∈ ([(.part src msg, 0x20), (.counts src msg, 0x21), (.grant src msg, 0x22), (.abort src msg, 0x23)] : List (Instr × Nat)),
      (s.ready = false ∨ leAt msg 0 1 ≠ e.2 ∨ msg.length < 48 → exec e.1 s = .next s) ∧
      (s.ready = true → leAt msg 0 1 = e.2 → 48 ≤ msg.length →
        (s.groupFor msg = none → answers e.1 s fun t => t = { s with regs := t.regs } ∧ s.wordsBut t [RND_STALE_PARTS.addr 0 0] ∧
          t.get RND_STALE_PARTS = min RND_STALE_PARTS.top (s.get RND_STALE_PARTS + 1)) ∧
        (∀ h slot, s.groupFor msg = some h → s.slotOf (s.getF RND_E_CONTEXT h 0) = some slot → s.fencedSlot slot = false → calm h →
          let ver := s.getF RND_E_VERSION h 0
          let rseq := s.getF RND_G_RSEQ h 0
          (leAt msg 8 2 < ver → answers e.1 s fun t => t = { s with regs := t.regs } ∧
            t.get RND_STALE_PARTS = min RND_STALE_PARTS.top (s.get RND_STALE_PARTS + 1)) ∧
          (leAt msg 8 2 = ver → rseq < leAt msg 12 4 → answers e.1 s fun t => t.sets = s.sets ∧ t.mem = s.mem ∧
            t.group h = { s.group h with heldP := [(src.toNat, msg)] }) ∧
          (∀ r, leAt msg 8 2 = ver → leAt msg 12 4 = rseq → (s.group h).run = some r → leAt msg 1 1 % 4 = 0 →
            leAt msg 10 2 = leAt r.desc.desc 50 2 ∨ e.2 = 0x23 →
            let kind := r.kindOf e.2 (leAt msg 1 1)
            let id : ChunkId := ⟨kind, leAt msg 16 1, leAt msg 18 2, leAt msg 20 4⟩
            (e.2 = 0x20 ∨ e.2 = 0x21 → (kind, leAt msg 16 1) ∈ r.stages → r.stages[r.stage]? = some (kind, leAt msg 16 1) →
              ∀ first n, ((s.recvs h r (kind, leAt msg 16 1)).find? fun c => decide (c.1 = id)) = some (id, first, n) →
              kind = 3 ∨ (n = 0 ∧ leAt msg 24 4 = s.totalOf h r) → (∀ a ∈ r.arriving, a.1 ≠ id) → bit (leAt msg 1 1) 4 = false →
              answers e.1 s fun t => t.sets = s.sets ∧ t.mem = s.mem ∧
                (t.group h).run = some { r with arriving := (id, [msg]) :: r.arriving }) ∧
            (e.2 = 0x22 → r.stages[r.stage]? = none → bit (leAt msg 1 1) 5 = false →
              let phase := bitOf (bit (leAt msg 1 1) 3)
              let key := 4 * phase + leAt msg 16 1
              (∃ st ∈ r.stages, phaseOf st.1 = phase ∧ st.2 = leAt msg 16 1) → s.getF RND_E_RX_SLOTS h 0 ≤ r.slots.get 0 key →
              answers e.1 s fun t => t.sets = s.sets ∧ ∃ q, (t.group h).run = some q ∧ q.slots.get 0 key = r.slots.get 0 key + leAt msg 20 4 ∧
                q.kept = r.kept.filter fun c => decide (c.1 ∉ (((r.kept.filter fun c =>
                  decide (phaseOf c.1.kind = phase ∧ c.1.axis = leAt msg 16 1)).take (leAt msg 20 4)).map Prod.fst))) ∧
            (e.2 = 0x23 → leAt msg 38 2 % 64 = 7 → answers e.1 s (ended h r 7 3)))))) ∧
    (∀ r, x.run = some r →
      (∀ id rest, r.late = (id, true) :: rest → answers (.lateCheck group) s fun t => t.sets = s.sets ∧ t.mem = s.mem ∧
        t.group g = { x with run := some { r with late := rest } }) ∧
      (∀ id rest, r.late = (id, false) :: rest → r.desc.slot < 32 → answers (.lateCheck group) s fun t => ended g r 5 1 t ∧
        t.getF CTX_S_STEP_ABORT r.desc.slot 0 = 1 ∧
        t.get RND_LATE_CHECK_FAILS = min RND_LATE_CHECK_FAILS.top (s.get RND_LATE_CHECK_FAILS + 1)) ∧
      (∀ m, s.ready = true → s.roundWaits g r successor = some m → answers (.roundTimeout group successor) s fun t => ended g r 9 4 t ∧
        t.getF RND_G_LOST_MEMBER g 0 = m % 4096 ∧ t.get RND_PEER_LOSTS = min RND_PEER_LOSTS.top (s.get RND_PEER_LOSTS + 1)) ∧
      (s.roundWaits g r successor = none → exec (.roundTimeout group successor) s = .next s) ∧
      (s.ready = true → r.stages.length ≤ r.stage → r.late = [] → r.kept = [] → calm g → r.status = 0 ∨ r.status = 8 →
        answers (.roundComplete group) s (ended g r r.status 1)) ∧
      (r.stage < r.stages.length ∨ r.late ≠ [] → exec (.roundComplete group) s = .next s)) ∧
    (x.run = none → exec (.lateCheck group) s = .next s ∧ exec (.roundTimeout group successor) s = .next s ∧
      exec (.roundComplete group) s = .next s)

/-- The CTX commands: ADMIT, REBIND, RELEASE, LEND and UNLEND with their statuses; the end of a re-binding, lending and eviction.
A command that reaches CTX while BUSY is 1 is discarded. ADMIT of a bad ID or slot ends with ILLEGAL, changing no binding; one
whose checks pass binds what they found and ends with DONE; one that fails later leaves the bindings and the slot's words,
with RESULT, ERR_ITEM and one CTX_REJECT record. LEND checks the slots, their kinds and the bubble, then records the LEND;
UNLEND clears it. REBIND of a list that passes is busy: its pages are fenced and its sets asked to pre-empt; a list that fails
changes nothing more. RELEASE fences the slot and ends its LENDs. At the time limit every moving set not at its point is cut.
At the end RESULT is DONE, moved pages read zero and have their new owner; past the budget RESULT is TIMEOUT and a reset of
the slot begins. A set in a lendable bubble runs its guest with the owner's counters kept; an eviction saves the guest and
gives the owner's state back. Rests on the model's choices of log entries 4, 67, 68, 131, 132. -/
def Obligations.ContextsAdmitMoveLendAndRelease : Prop :=
  ∀ (s : State) (p : Path) (set : Fin 768) (us : BitVec 16),
    let u := s.touchPath p
    let slot := u.get CTX_CMD_SLOT
    let ctx := u.get CTX_CMD_CONTEXT
    let arg := u.get64 CTX_CMD_ARG_LO CTX_CMD_ARG_HI 0
    let ends := fun (st item : Nat) (t : State) => t.get CTX_BUSY = 0 ∧ t.get CTX_RESULT = st ∧ t.get CTX_ERR_ITEM = item % 2 ^ 16
    let ended := fun (v : State) (st item : Nat) (t : State) => ends st item t ∧ v.wordsBut t [CTX_BUSY.addr 0 0, CTX_ERR_ITEM.addr 0 0]
    let only := fun (v : State) (st item : Nat) (t : State) => t = { v with regs := t.regs } ∧ ended v st item t
    (s.reached p (CTX_CMD.addr 0 0) →
      (u.get CTX_BUSY = 1 → ∀ c ∈ [Instr.ctxAdmit p, .rebind p, .release p, .lend p, .unlend p], exec c s = .next u) ∧
      (u.get CTX_BUSY = 0 →
        (ctx = 0 ∨ ctx = 0xFFFF ∨ slot = 0 ∨ u.getF CTX_S_STATE slot 0 ≠ 0 ∨ u.slotOf ctx ≠ none →
          answers (.ctxAdmit p) s fun t => t = { u with regs := t.regs, dcd := t.dcd } ∧ ended u 0xB 0 t ∧
            u.recorded t .control RT_CTX_REJECT 0 0 ctx [0xB, 0]) ∧
        (∀ v, (admission slot ctx arg (u.get CTX_TC_FIRST)).run.run u = (.ok (), v) → answers (.ctxAdmit p) s (only v 0 0)) ∧
        (∀ st item v, (admission slot ctx arg (u.get CTX_TC_FIRST)).run.run u = (.error (st, item), v) → item / 4096 ≠ 0 →
          answers (.ctxAdmit p) s fun t => ends st.num item t ∧ t.ctx = u.ctx ∧ t.sets = v.sets ∧ t.mem = v.mem ∧
            (∀ k < 16, t.word (CTX_S_CONTEXT.addr slot 0 + 4 * k) = u.word (CTX_S_CONTEXT.addr slot 0 + 4 * k)) ∧
            ((v.dcd.queue .control).length < 64 → ∃ r, t.dcd.queue .control = v.dcd.queue .control ++ [r] ∧
              r.type = RT_CTX_REJECT ∧ r.ctx = ctx ∧ r.items = [st.num, item % 2 ^ 64])) ∧
        (let o := arg % 32
         let b := bits arg 31 16
         let kinds := u.getF CTX_S_GUEST slot 0 ≠ 0 ∧ u.getF CTX_S_GUEST o 0 ≠ 1 ∧ u.bubbleEntry o b ≠ none
         (u.bound slot = false ∨ u.bound o = false → answers (.lend p) s (only u 3 0)) ∧
         (u.bound slot = true → u.bound o = true → ¬ kinds → answers (.lend p) s (only u 0xB 0)) ∧
         (u.bound slot = true → u.bound o = true → kinds → u.getF CTX_S_LEND_VALID slot 0 = 1 → answers (.lend p) s (only u 0xC 0)) ∧
         (u.bound slot = true → u.bound o = true → kinds → u.getF CTX_S_LEND_VALID slot 0 = 0 → answers (.lend p) s fun t =>
          t = { u with regs := t.regs } ∧ ends 0 0 t ∧ t.getF CTX_S_LENDER_SLOT slot 0 = o ∧ t.getF CTX_S_LEND_BUBBLE slot 0 = b ∧
          t.getF CTX_S_LEND_VALID slot 0 = 1 ∧
          u.wordsBut t [CTX_BUSY.addr 0 0, CTX_ERR_ITEM.addr 0 0, CTX_S_LEND_VALID.addr slot 0])) ∧
        (u.bound slot = false → ∀ c ∈ [Instr.rebind p, .release p, .unlend p], answers c s (only u 3 0)) ∧
        (u.bound slot = true →
          (u.getF CTX_S_GUEST slot 0 = 0 → answers (.unlend p) s (only u 0xB 0)) ∧
          (u.getF CTX_S_GUEST slot 0 ≠ 0 → answers (.unlend p) s fun t => ends 0 0 t ∧ (u.lentSets slot = [] →
            t = { u with regs := t.regs } ∧ t.getF CTX_S_LEND_VALID slot 0 = 0)) ∧
          (u.lentSets slot = [] → answers (.release p) s fun t => t.mem = u.mem ∧ bit (t.get HNG_FENCED_SLOTS) slot = true ∧
            t.get CTX_BUSY = 1 ∧ t.getF CTX_S_STATE slot 0 = 4 ∧ t.ctx.job = some ⟨3, slot, [], u.setsOf slot⟩ ∧
            ∀ g < 32, t.getF CTX_S_LEND_VALID g 0 =
              if g = slot ∨ u.getF CTX_S_LENDER_SLOT g 0 = slot then 0 else u.getF CTX_S_LEND_VALID g 0) ∧
          (∀ st es v, u.readList ((u.tierSize 0 - arg) / 16 + 1) arg = (st, es, v) →
            (st ≠ .done → answers (.rebind p) s (only v st.num 0)) ∧
            (st = .done → v.checkList slot (listSets es) es ≠ .done →
              answers (.rebind p) s (only v (v.checkList slot (listSets es) es).num 0)) ∧
            (st = .done → v.checkList slot (listSets es) es = .done → answers (.rebind p) s fun t =>
              let some_ := es.filter fun e => decide (leAt e 8 4 ≠ 0)
              t.get CTX_BUSY = 1 ∧ t.getF CTX_S_STATE slot 0 = 3 ∧
              (∃ j, t.ctx.job = some j ∧ j.cmd = 2 ∧ j.slot = slot ∧ j.list = some_ ∧ j.moving = listSets some_) ∧
              (∀ e ∈ some_, leAt e 0 1 = 2 → ∀ q ∈ listed e, t.ctx.fenced.get false (q + 2 ^ 20 * leAt e 2 1) = true) ∧
              ∀ n ∈ listSets some_, (t.setSt n).bound = true → (t.setSt n).atPoint = true ∨ (t.setSt n).soft = true))))) ∧
    (s.ctx.job = none → exec .rebindPreemptTimeout s = .next s ∧ ∀ b, exec (.rebindDone b) s = .next s) ∧
    (∀ j, s.ctx.job = some j →
      (answers .rebindPreemptTimeout s fun t => t = { s with sets := t.sets } ∧ ∀ m, let x := s.setSt m
        (m ∉ j.moving ∨ x.bound = false ∨ x.atPoint = true → t.setSt m = x) ∧
        (m ∈ j.moving → x.bound = true → x.atPoint = false → (t.setSt m).hard = true ∧ (t.setSt m).pass = none ∧
          (t.setSt m).active = none ∧ ∀ a ∈ (t.setSt m).arrs, a = Arr.init)) ∧
      (answers (.rebindDone true) s fun t => ends 2 0 t ∧ t.ctx.job = none ∧ t.ctx.fenced = [] ∧ t.sets = s.sets ∧ t.mem = s.mem ∧
        ∃ r, t.hng.jobs = s.hng.jobs ++ [r] ∧ r.level = 3 ∧ r.slot = j.slot) ∧
      (s.ready = false ∨ (∃ n ∈ j.moving, (s.setSt n).atPoint = false ∧ (s.setSt n).bound = true) →
        exec (.rebindDone false) s = .next s) ∧
      (s.ready = true → (∀ n ∈ j.moving, (s.setSt n).atPoint = true ∨ (s.setSt n).bound = false) →
        answers (.rebindDone false) s (ends 0 0) ∧
        ∀ e, j.cmd = 2 → j.slot < 32 → j.moving = [] → j.list = [e] → leAt e 0 1 = 2 → leAt e 2 1 < 2 →
          leAt e 1 1 < 32 ∨ leAt e 1 1 = 0xFF → answers (.rebindDone false) s fun t =>
          t.ctx.job = none ∧ t.ctx.fenced = [] ∧ t.getF CTX_S_STATE j.slot 0 = 2 ∧
          t.get CTX_REBINDS = (s.get CTX_REBINDS + 1) % (CTX_REBINDS.top + 1) ∧
          (∀ q ∈ listed e, t.ownerOf (leAt e 2 1) q = if leAt e 1 1 = 0xFF then none else some (s.ctxOf (leAt e 1 1))) ∧
          ∀ k < 2, ∀ a, (t.tier k).get 0 a = if k = leAt e 2 1 ∧ a / 2 ^ 21 ∈ listed e then 0 else (s.tier k).get 0 a)) ∧
    (let n := set.val
     let x := s.setSt n
     (x.inBubble = none → exec (.setLent set) s = .next s) ∧
     (∀ b g, x.inBubble = some b → s.ready = true → s.moves n = false → s.fencedSlot x.slot = false →
       s.recField x.slot 56 8 ≠ 0 → (∃ e, s.bubbleEntry x.slot b = some e ∧ bit (leAt e 2 1) 0 = true) →
       s.guestFor x.slot b x.routine = some g → answers (.setLent set) s fun t =>
         (t.setSt n).lentFrom = some x.slot ∧ (t.setSt n).ownerC = x.c ∧ (t.setSt n).slot = g ∧
         (t.setSt n).routine = x.routine ∧ (t.slot g).setMap.find x.routine = some n ∧
         (g ≠ x.slot → ((t.slot x.slot).saved.find x.routine).isSome = true)) ∧
     (x.lentFrom = none ∨ s.ready = false → exec (.eviction set us) s = .next s) ∧
     (∀ o y, x.lentFrom = some o → s.ready = true → x.evict = true ∨ s.ownerWakes n o = true → o ≠ x.slot →
       (s.slot o).faulted = false → (s.slot o).saved.find x.routine = some y →
       (∀ q ∈ s.fab.sent, q.waiter.set? ≠ some n) → answers (.eviction set us) s fun t =>
         let z := t.setSt n
         z.slot = y.slot ∧ z.lentFrom = y.lentFrom ∧ z.c = x.ownerC ∧ z.regs = y.regs ∧ z.v = y.v ∧ z.p = y.p ∧ z.mem = y.mem ∧
         us.toNat ≤ t.get CTX_EVICT_MAX_US ∧ ((t.slot x.slot).saved.find x.routine).isSome = true ∧
         (t.slot o).saved.find x.routine = none ∧ (t.slot x.slot).setMap.find x.routine = none))

/-- The journal's switch and flush, REPLAY_START and REPLAY_STOP; the dance card accepts, drops, clears, seeks and loads records.
Turning the journal off ends an attempt incomplete; turning it on checks the ring, the staging area and tier C, and leaves it
off with CFG_RESULT when a check fails. A flush moves staged records to the ring: a part of a block stays behind, a STEP_END
fills its block and JRN_HEAD moves, and a record that leaves no room sets OVERFLOW. REPLAY_START needs every attempt of its
steps whole and complete, else CHECK_FAIL; then it is busy with those records, the journal off; REPLAY_STOP ends it with
ABORTED. Each CALLCLK cycle with power the card accepts a due DROP_NOTE, else the first record of the first non-empty plane,
with the next SEQ and the time; a record that does not fit is dropped and counted. CLEAR_THROUGH frees the oldest records up
to a SEQ. A seek ends at the first record with that SEQ or higher, or at TAIL. ARCH_SELECT loads the k-th newest archive, or
NO_RESOURCE. Rests on the model's choices of log entries 1, 4, 63, 141. -/
def Obligations.JournalReplayAndDanceCard : Prop :=
  ∀ (s : State) (p : Path) (slot : Fin 32) (enable : Bool) (seq : Word) (k : BitVec 4),
    let u := s.touchPath p
    let jw := ENC_CFG_RESULT.addr 0 0
    let switch := Instr.jrnEnableWrite p slot enable
    (s.reached p (ENC_JRN_ENABLE.addr 0 0) →
      (enable = true → u.get ENC_JRN_ENABLE = 1 → u.get ENC_JRN_SLOT = slot.val → answers switch s fun t =>
        t = { u with regs := t.regs } ∧ u.wordsBut t [jw] ∧ t.get ENC_CFG_RESULT = 0) ∧
      (enable = false → answers switch s fun t => t = { u with regs := t.regs, enc := t.enc } ∧
        u.wordsBut t [jw, ENC_JRN_ENABLE.addr 0 0] ∧ t.get ENC_JRN_ENABLE = 0 ∧ t.get ENC_JRN_SLOT = slot.val ∧
        t.get ENC_CFG_RESULT = 0 ∧ t.enc.active = false ∧
        (u.enc.active = false → t.enc = { u.enc with incomplete := false }) ∧
        (u.enc.active = true → t.get ENC_INCOMPLETE = 1 ∧ ∃ r, t.enc.staged = u.enc.staged ++ [r] ∧ r.type = 0x0B ∧ r.flags = 1)) ∧
      (enable = true → u.get ENC_JRN_ENABLE = 0 → u.enc.active = false →
        ∀ okA v, (u.journalOff.set ENC_JRN_SLOT slot.val).stagingOk slot.val = (okA, v) →
        let n := v.get ENC_JRN_BLOCKS
        let good := v.getF CTX_S_STATE slot.val 0 ≠ 0 ∧ v.get ENC_JRN_OFFSET + n ≤ v.getF CTX_S_EXT_BLOCKS slot.val 0 ∧
          n ≤ 67108864 ∧ okA = true
        let off := fun (st : Nat) (t : State) => t = { v with regs := t.regs } ∧ v.wordsBut t [jw] ∧ t.get ENC_JRN_ENABLE = 0 ∧
          t.get ENC_CFG_RESULT = st
        (¬ good → answers switch s (off 3)) ∧ (good → v.get MEM_C_STATE ≠ 1 → answers switch s (off 0xC)) ∧
        (good → v.get MEM_C_STATE = 1 → answers switch s fun t => t.mem = v.mem ∧ t.sets = v.sets ∧
          t.get ENC_JRN_ENABLE = 1 ∧ t.get ENC_CFG_RESULT = 0 ∧ t.get ENC_JRN_HEAD = 0 ∧ t.enc.active = false ∧ t.enc.staged = [] ∧
          t.enc.held = [] ∧ (n ≠ 0 → v.get ENC_JRN_STATE ≠ 2 → t.get ENC_JRN_STATE = 1)))) ∧
    (s.ready = false ∨ s.enc.staged = [] → exec .journalFlush s = .next s) ∧
    (s.ready = true → answers .journalFlush s fun t => t.enc.staged = [] ∧ t.sets = s.sets ∧ t.mem = s.mem) ∧
    (∀ r, s.ready = true → s.enc.staged = [r] → s.enc.stopped = false →
      let bs := s.enc.tail ++ r.bytes
      let at_ := s.getF CTX_S_EXT_FIRST (s.get ENC_JRN_SLOT) 0 + s.get ENC_JRN_OFFSET + s.get ENC_JRN_HEAD
      let rec1 := (s.get64 ENC_RECORDS_LO ENC_RECORDS_HI 0 + 1) % 2 ^ 64
      (r.type ≠ 0x0B → bs.length < 4096 → s.enc.used + 1 ≤ s.get ENC_JRN_BLOCKS → answers .journalFlush s fun t =>
        t.enc = { s.enc with staged := [], tail := bs } ∧ t.tierC = s.tierC ∧ t.get64 ENC_RECORDS_LO ENC_RECORDS_HI 0 = rec1) ∧
      (r.type = 0x0B → bs.length ≤ 4096 → s.enc.used + 1 ≤ s.get ENC_JRN_BLOCKS → s.get MEM_C_STATE = 1 → answers .journalFlush s fun t =>
        t.enc.tail = [] ∧ t.tierC = { s.tierC with flying := s.tierC.flying ++ [⟨at_, padTo 4096 0 bs, .journal⟩] } ∧
        t.get ENC_JRN_HEAD = (s.get ENC_JRN_HEAD + 1) % s.get ENC_JRN_BLOCKS % 2 ^ 30 ∧
        t.get64 ENC_RECORDS_LO ENC_RECORDS_HI 0 = rec1) ∧
      (r.type ≠ 0x0B → s.enc.held = [] → s.get ENC_JRN_BLOCKS < bs.length / 4096 + 1 → answers .journalFlush s fun t =>
        t.enc = { s.enc with staged := [], stopped := true, incomplete := true } ∧ t.tierC = s.tierC ∧ t.get ENC_OVERFLOW = 1)) ∧
    (s.reached p (ENC_CMD.addr 0 0) →
      let job := u.get ENC_JRN_SLOT
      let f := u.get ENC_REPLAY_FIRST
      let n := u.get ENC_REPLAY_LAST
      let units := 64 * u.get ENC_JRN_BLOCKS
      let begins := fun pos => ∃ r, u.ringRec job pos = some r ∧ r.type = 1 ∧ r.step = f ∧ r.attempt = 0
      let whole := fun pos => attemptsOk (u.getF CTX_S_JOB job 0) (toBytes 8 (u.recField job 16 8)) n f 0 false (u.ringRecs job n units pos)
      let fails := answers (.replayStart p) s fun t => t = { u with regs := t.regs } ∧ u.wordsBut t [ENC_RESULT.addr 0 0] ∧
        t.get ENC_RESULT = 5 ∧ t.get ENC_BUSY = 0
      (u.get ENC_BUSY = 1 → exec (.replayStart p) s = .next u) ∧
      (u.get ENC_BUSY = 0 →
        exec (.replayStop p) s = .next u ∧ (u.getF CTX_S_STATE job 0 = 0 ∨ n < f → fails) ∧ ((∀ pos < units, ¬ begins pos) → fails) ∧
        ∀ pos < units, begins pos → (∀ q < pos, ¬ begins q) → (whole pos = false → fails) ∧
          (whole pos = true → u.getF CTX_S_STATE job 0 ≠ 0 → f ≤ n → answers (.replayStart p) s fun t =>
            t = { u with regs := t.regs, enc := t.enc } ∧ t.get ENC_BUSY = 1 ∧ t.get ENC_REPLAY_STATE = 1 ∧ t.get ENC_JRN_STATE = 2 ∧
            t.get ENC_JRN_ENABLE = 0 ∧ t.enc.replay = some (u.ringRecs job n units pos) ∧ t.enc.reached = false)) ∧
      (u.get ENC_BUSY = 1 → answers (.replayStop p) s fun t => t = { u with regs := t.regs, enc := t.enc } ∧
        t.enc = { u.enc with replay := none, reached := false } ∧ t.get ENC_BUSY = 0 ∧ t.get ENC_RESULT = 7 ∧
        t.get ENC_REPLAY_STATE = 5)) ∧
    (let d := s.dcd
     let now := (s.callerCycles + 1) % 2 ^ 64
     let waiting := d.queueM ++ d.queueC ++ d.queueD
     let taken := fun (r : Rec) (t : State) => t.callerCycles = now ∧ t.sets = s.sets ∧ t.regs = s.regs ∧
       t.dcd.recs = d.recs ++ [{ r with seq := d.nextSeq, cycles := now }] ∧ t.dcd.head = d.head ∧
       t.dcd.nextSeq = (if d.nextSeq + 1 < 2 ^ 32 then d.nextSeq + 1 else 1) ∧ t.dcd.accepted = (d.accepted + 1) % 2 ^ 64
     (s.callerOn = false → exec .recordAccept s = .next s) ∧
     (s.callerOn = true →
       (d.dropPending ≠ 0 → d.used + 64 ≤ 16777216 → answers .recordAccept s fun t =>
         taken ⟨0, 0, RT_DROP_NOTE, .management, 11, 0, 0, 0, [d.dropPending, d.dropFirst, d.dropLast]⟩ t ∧
         t.dcd.dropPending = 0 ∧ ∀ pl, t.dcd.queue pl = d.queue pl) ∧
       (d.dropPending = 0 ∨ 16777216 < d.used + 64 →
         (waiting = [] → exec .recordAccept s = .next { s with callerCycles := now }) ∧
         ∀ r rs, waiting = r :: rs →
           (d.used + r.length ≤ 16777216 → answers .recordAccept s fun t => taken r t ∧ t.dcd.queueM ++ t.dcd.queueC ++ t.dcd.queueD = rs) ∧
           (16777216 < d.used + r.length → answers .recordAccept s fun t => t.callerCycles = now ∧ t.dcd.recs = d.recs ∧
             t.dcd.nextSeq = d.nextSeq ∧ t.dcd.queueM ++ t.dcd.queueC ++ t.dcd.queueD = rs ∧
             t.dcd.dropped = min (2 ^ 32 - 1) (d.dropped + 1) ∧ t.dcd.dropPending = min (2 ^ 32 - 1) (d.dropPending + 1))))) ∧
    (s.reached p 0x5001C → answers (.clearThrough p seq) s fun t =>
      let d := u.dcd
      t = { u with dcd := { d with recs := t.dcd.recs, head := t.dcd.head } } ∧
      (seq.toNat < d.firstSeq → t.dcd = d) ∧
      (d.nextSeq ≤ seq.toNat → d.recs ≠ [] → d.firstSeq ≤ seq.toNat → t.dcd.recs = [] ∧ t.dcd.head = d.tail) ∧
      (seq.toNat < d.nextSeq → ∀ xs r ys, d.recs = xs ++ r :: ys → (∀ x ∈ xs, x.seq ≤ seq.toNat) → seq.toNat < r.seq → xs ≠ [] →
        t.dcd.recs = r :: ys ∧ t.dcd.head = (d.head + recsBytes xs) % 16777216)) ∧
    (s.reached p 0x50024 → answers (.seekSeq p seq) s fun t => t = { u with paths := t.paths } ∧
      t.path p = { u.path p with seek := some seq.toNat }) ∧
    ((s.path p).seek = none → exec (.seekDone p) s = .next s) ∧
    (∀ n, (s.path p).seek = some n →
      let x := s.path p
      let recs := if x.view = 0 then s.dcd.recs else s.dcd.view
      let base := if x.view = 0 then s.dcd.head else 0
      answers (.seekDone p) s fun t => t = { s with paths := t.paths } ∧
        (∀ xs r ys, recs = xs ++ r :: ys → (∀ y ∈ xs, y.seq < n) → n ≤ r.seq →
          t.path p = { x with seek := none, seekFound := true, cursor := (base + recsBytes xs) % 16777216 }) ∧
        ((∀ y ∈ recs, y.seq < n) →
          t.path p = { x with seek := none, seekFound := false, cursor := (base + recsBytes recs) % 16777216 })) ∧
    (s.reached p 0x50030 →
      (k = 0 ∨ 8 < k.toNat ∨ u.dcd.loading ≠ none → exec (.archSelect p k) s = .next u) ∧
      (k ≠ 0 → k.toNat ≤ 8 → u.dcd.loading = none →
        exec (.archSelect p k) s = .next { u with dcd := { u.dcd with loading := some k.toNat } })) ∧
    (s.dcd.loading = none → exec .archiveLoadDone s = .next s) ∧
    (∀ n, s.dcd.loading = some n → answers .archiveLoadDone s fun t => t = { s with dcd := t.dcd } ∧
      (∀ a, s.archives[n - 1]? = some a → t.dcd = { s.dcd with loading := none, view := a.recs, loaded := n, archResult := 0 }) ∧
      (s.archives[n - 1]? = none → t.dcd = { s.dcd with loading := none, archResult := 0xC }))

/-- STANDBY, RUN, DORMANT, Idle, WAKE_N, insertion and the power pins: what each accepts, and what stays when power is lost. A
power command is discarded while a transition runs. STANDBY and DORMANT need PHASE ready and only context 0 bound, STANDBY
also a powered module, else NO_RESOURCE; RUN needs Standby, else ILLEGAL. One that is accepted sets TRANSITION: STANDBY fences
the module, RUN begins at CLOCKS with the stages of R516 skipped, DORMANT archives the held records. With every link DOWN, the
end of the way to Standby keeps tiers A and B, unbinds every set and powers the dies off; that of the way to Run needs PHASE
ready and records POWER_STATE; Dormant loses all but flash, fuses, tier C and archives. A tier C write in flight leaves each
byte old or new. Idle begins when the sets are quiet and enabled, and ends with work. PWR_EN rising with its conditions, a
held raise, or WAKE_N in Dormant begins power-up; its fall, a withdrawal or an undervoltage takes power away. Rests on the
model's choices of log entries 4, 5, 37. -/
def Obligations.PowerStatesAndPins : Prop :=
  ∀ (s : State) (p : Path) (slotId : BitVec 5) (lowDone vinOk : Bool),
    let u := s.touchPath p
    let only := fun (st : Nat) (t : State) => t = { u with regs := t.regs } ∧ u.wordsBut t [PWR_RESULT.addr 0 0] ∧ t.get PWR_RESULT = st
    let can := u.ready = true ∧ u.onlyContext0 = true
    let down := fun (m : PowerMode) (t : State) => t.pwr.mode = m ∧ t.pwr.diesOn = 0 ∧ t.pwr.trans = none ∧ t.sets = [] ∧
      t.mem.a = [] ∧ t.mem.b = [] ∧ t.dcd.recs = [] ∧ t.keys = s.keys ∧ t.revoked = s.revoked ∧ t.boot.flash = s.boot.flash ∧
      t.archives = s.archives ∧ t.epoch = s.epoch ∧ t.pins.pgood = false ∧ t.tierC.flying = [] ∧
      (s.tierC.flying = [] → t.tierC = s.tierC) ∧
      ∀ k, t.tierC.bytes.get 0 k = s.tierC.bytes.get 0 k ∨ ∃ w ∈ s.tierC.flying, 4096 * w.block ≤ k ∧
        k < 4096 * w.block + w.bytes.length ∧ t.tierC.bytes.get 0 k = w.bytes.getD (k - 4096 * w.block) 0
    (s.reached p 0x10000 →
      (u.get PWR_TRANSITION = 1 → ∀ c ∈ [Instr.standby p, .run p, .dormant p], exec c s = .next u) ∧
      (u.get PWR_TRANSITION = 0 →
        (¬ can ∨ u.pwr.mode ≠ .on → answers (.standby p) s (only 0xC)) ∧
        (can → u.pwr.mode = .on → answers (.standby p) s fun t => t.get PWR_TRANSITION = 1 ∧ t.pwr.trans = some .toStandby ∧
          t.get HNG_MODULE_FENCED = 1 ∧ t.get MBX_PCIE_UP = 0) ∧
        (u.pwr.mode ≠ .standby → answers (.run p) s (only 0xB)) ∧
        (u.pwr.mode = .standby → answers (.run p) s fun t => t.get PWR_TRANSITION = 1 ∧ t.pwr.trans = some .toRun ∧
          t.pwr.mode = .on ∧ t.get MOD_PHASE = 0 ∧ t.sets = u.sets ∧ t.mem = u.mem ∧
          ∀ k, 1 ≤ k → k ≤ 11 → t.stageRuns k = decide (k = 5)) ∧
        (¬ can → answers (.dormant p) s (only 0xC)) ∧
        (can → answers (.dormant p) s fun t => t.get PWR_TRANSITION = 1 ∧ t.pwr.trans = some .toDormant ∧
          (u.pwr.mode = .on → t.get HNG_MODULE_FENCED = 1) ∧
          (u.pwr.mode ≠ .on → t.mem = u.mem ∧
            (u.get MEM_C_STATE ≠ 1 → t.archives = u.archives ∧ t.dcd.archFails = min (2 ^ 32 - 1) (u.dcd.archFails + 1)) ∧
            (u.get MEM_C_STATE = 1 → ∃ a, t.archives = (a :: u.archives).take 8 ∧ a.reason = 2 ∧ a.recs = u.dcd.recs ∧
              a.next = u.dcd.nextSeq))))) ∧
    (s.pwr.trans = none → exec .transitionDone s = .next s) ∧
    (s.pwr.trans = some .toStandby → (∀ L < 192, s.getF LNK_L_LINK_STATE L 0 = 0) → s.links.outbox = [] →
      answers .transitionDone s fun t => t.pwr.mode = .standby ∧ t.pwr.trans = none ∧ t.pwr.diesOn = 0 ∧ t.get PWR_TRANSITION = 0 ∧
        t.get PWR_RESULT = 0 ∧ t.get MOD_POWER = 2 ∧ t.get MOD_PHASE = 1 ∧ t.sets = [] ∧ t.mem.a = s.mem.a ∧ t.mem.b = s.mem.b) ∧
    (s.pwr.trans = some .toRun →
      (s.ready = false → exec .transitionDone s = .next s) ∧
      (s.ready = true → answers .transitionDone s fun t => t.pwr.trans = none ∧ t.get PWR_TRANSITION = 0 ∧ t.get PWR_RESULT = 0 ∧
        t.get MOD_POWER = 0 ∧ t.sets = s.sets ∧ t.mem = s.mem ∧ s.recorded t .management RT_POWER_STATE 11 0 0 [s.pwr.oldState, 0, 2])) ∧
    (s.pwr.trans = some .toDormant → answers .transitionDone s (down (if s.pwr.wakeSoon then .powering else .dormant))) ∧
    (let idle := s.ready = true ∧ s.pwr.mode = .on ∧ s.get MOD_POWER = 0 ∧ s.get PWR_IDLE_EN = 1 ∧ s.setsQuiet = true
     let busy := s.get MOD_POWER = 1 ∧ (s.setsQuiet = false ∨ s.get PWR_IDLE_EN = 0)
     (¬ idle → exec .idleEntry s = .next s) ∧ (¬ busy → exec .idleExit s = .next s) ∧
     (idle → answers .idleEntry s fun t => t.sets = s.sets ∧ t.mem = s.mem ∧ t.get MOD_POWER = 1 ∧
       t.get PWR_IDLE_ENTRIES = (s.get PWR_IDLE_ENTRIES + 1) % 2 ^ 16) ∧
     (busy → answers .idleExit s fun t => t.sets = s.sets ∧ t.mem = s.mem ∧ t.get MOD_POWER = 0 ∧
       (s.get PWR_IDLE_EN = 0 → t = { s with regs := t.regs }))) ∧
    (let on := { s with pwr := { s.pwr with mode := .powering } }
     (s.pwr.mode = .dormant → exec .wake s = .next on) ∧
     (s.pwr.mode ≠ .dormant → s.pwr.trans = some .toDormant →
       exec .wake s = .next { s with pwr := { s.pwr with wakeSoon := true } }) ∧
     (s.pwr.mode ≠ .dormant → s.pwr.trans ≠ some .toDormant → exec .wake s = .next s) ∧
     (s.pins.mated = true → s.pins.pwrEn = true → s.pwr.mode = .off → exec .powerUp s = .next on) ∧
     (s.pins.mated = false ∨ s.pins.pwrEn = false ∨ s.pwr.mode ≠ .off → exec .powerUp s = .next s) ∧
     (s.pins.mated = false ∨ s.pins.pwrEn = true → exec (.pwrEnRise lowDone vinOk) s = .next s) ∧
     (s.pins.mated = true → s.pins.pwrEn = false → exec (.pwrEnRise lowDone vinOk) s =
       .next { (if lowDone = true ∧ vinOk = true then on else s) with pins := { s.pins with pwrEn := true } })) ∧
    (s.pins.mated = true → exec (.insertion slotId) s = .next s) ∧
    (s.pins.mated = false → exec (.insertion slotId) s =
      .next { s with pins := { s.pins with mated := true, pwrEn := false, slotId := slotId.toNat } }) ∧
    (s.pins.mated = false → exec .withdrawal s = .next s) ∧ (s.pins.pwrEn = false → exec .pwrEnFall s = .next s) ∧
    (s.pwr.mode = .off ∨ s.pwr.mode = .latched → exec .undervoltage s = .next s) ∧
    (s.pins.mated = true → answers .withdrawal s fun t => down .off t ∧ t.pins.mated = false ∧ t.pins.pwrEn = false) ∧
    (s.pins.pwrEn = true → answers .pwrEnFall s fun t => down .off t ∧ t.pins.mated = s.pins.mated ∧ t.pins.pwrEn = false) ∧
    (s.pwr.mode ≠ .off → s.pwr.mode ≠ .latched → answers .undervoltage s fun t => down .latched t ∧ t.pins.pwrEn = s.pins.pwrEn)

/-- Temperature and power samples, throttle levels, alert, trip, droop and clock loss: the registers, records and resets each
leaves. Samples change nothing while the Caller has no power. A junction sample keeps the reading and its maximum; at
THROTTLE_C it raises the die's thermal level, at ALERT_C it sets ALERT with one record. An input sample above POWER_LIMIT_W
raises the power level, one below 95 % of it lowers it; above 60 V the model stops, outside the operating conditions. A window
boundary of a powered die sets its LEVEL to the higher of the two levels, with a record when it leaves or reaches 0 and 32 us
counted once while any die is throttled (log entry 32). The level decays below the hysteresis; ALERT is released below its
own. A trip removes power from the dies and clears tiers A and B, and once cool a power cycle is requested. A droop is counted
and recorded at most once in 225,000 cycles; its release counts its time. The loss of a clock in Run or Idle is counted and
starts a warm reset. Rests on the model's choices of log entries 4, 32, 33. -/
def Obligations.ThermalPowerDroopAndClock : Prop :=
  ∀ (s : State) (die : Fin 4) (stack : Fin 12) (value vin pin us : BitVec 16) (sensor : Fin 24) (pll : Bool),
    let d := die.val
    let v := value.toNat
    let deg := signed 16 v
    let sample := Instr.tempSample (.die die) value
    let above := deg ≥ 100 * (s.get PWR_ALERT_C : Int) ∧ s.get PWR_ALERT = 0
    (s.callerOn = false → (∀ x, exec (.tempSample x value) s = .next s) ∧ (vin.toNat ≤ 60000 → exec (.powerSample vin pin) s = .next s)) ∧
    (s.callerOn = true →
      (answers sample s fun t => t = { s with regs := t.regs, pwr := t.pwr, mgmt := t.mgmt, dcd := t.dcd, out := t.out } ∧
        s.wordsBut t [PWR_D_JUNCTION.addr d 0, PWR_ALERT.addr 0 0] ∧ t.getF PWR_D_JUNCTION d 0 = v ∧
        t.getF PWR_D_JUNCTION_MAX d 0 = (if deg > signed 16 (s.getF PWR_D_JUNCTION_MAX d 0) then v else s.getF PWR_D_JUNCTION_MAX d 0) ∧
        t.pwr = { s.pwr with thermal := t.pwr.thermal } ∧ t.pwr.thermal = (if deg ≥ 100 * (s.get PWR_THROTTLE_C : Int)
          then listSet s.pwr.thermal d (min 8 (s.pwr.thermal.getD d 0 + 1)) else s.pwr.thermal) ∧
        (above → t.get PWR_ALERT = 1 ∧ s.recorded t .management RT_THERMAL_ALERT 11 0 0 [d, unsigned 64 deg]) ∧
        (¬ above → t.get PWR_ALERT = s.get PWR_ALERT ∧ t.dcd = s.dcd)) ∧
      (answers (.tempSample (.stack stack) value) s fun t => t = { s with regs := t.regs } ∧
        s.wordsBut t [PWR_S_STACK_TEMP.addr stack.val 0] ∧ t.getF PWR_S_STACK_TEMP stack.val 0 = v) ∧
      (answers (.tempSample (.engine die) value) s fun t => t = { s with regs := t.regs, opt := t.opt } ∧
        s.wordsBut t [OPT_E_ENGINE_TEMP.addr d 0, OPT_TRACK_RATE_EXCEEDED.addr 0 0] ∧ t.getF OPT_E_ENGINE_TEMP d 0 = v ∧
        bit t.opt.sampled d = true) ∧
      (answers (.tempSample .plateIn value) s fun t => t = { s with regs := t.regs } ∧ s.wordsBut t [PWR_PLATE_IN.addr 0 0] ∧
        t.get PWR_PLATE_IN = v ∧ t.get PWR_PLATE_OUT = s.get PWR_PLATE_OUT) ∧
      (answers (.tempSample .plateOut value) s fun t => t = { s with regs := t.regs } ∧ s.wordsBut t [PWR_PLATE_OUT.addr 0 0] ∧
        t.get PWR_PLATE_OUT = v ∧ t.get PWR_PLATE_IN = s.get PWR_PLATE_IN) ∧
      (vin.toNat ≤ 60000 → answers (.powerSample vin pin) s fun t => t = { s with regs := t.regs, pwr := t.pwr } ∧
        s.wordsBut t [PWR_VIN_MV.addr 0 0] ∧ t.get PWR_VIN_MV = vin.toNat ∧ t.get PWR_PIN_W = pin.toNat ∧
        t.pwr = { s.pwr with power := t.pwr.power } ∧ t.pwr.power =
          if s.get PWR_POWER_LIMIT_W < pin.toNat then min 8 (s.pwr.power + 1)
          else if 100 * pin.toNat < 95 * s.get PWR_POWER_LIMIT_W then s.pwr.power - 1 else s.pwr.power)) ∧
    (60000 < vin.toNat → exec (.powerSample vin pin) s = .fault .outsideOperatingConditions) ∧
    (let old := s.level d
     let new := max (s.pwr.thermal.getD d 0) s.pwr.power
     (s.dieOn d = false → exec (.throttleWindow die) s = .next s) ∧
     (s.dieOn d = true → new ≤ 8 → answers (.throttleWindow die) s fun t =>
       t = { s with regs := t.regs, pwr := t.pwr, mgmt := t.mgmt, dcd := t.dcd, out := t.out } ∧
       (∀ k < 4, t.level k = if k = d then new else s.level k) ∧ bit t.pwr.throttled d = decide (new ≠ 0) ∧
       (∀ k < 4, k ≠ d → bit t.pwr.throttled k = bit s.pwr.throttled k) ∧
       ((old = 0 ↔ new = 0) → t.dcd = s.dcd) ∧
       (¬ (old = 0 ↔ new = 0) → s.recorded t .management RT_THROTTLE 11 0 0 [d, new, unsigned 64 (s.junction d)]) ∧
       t.get PWR_THROTTLE_US = if new ≠ 0 ∧ ∀ k < d, s.level k = 0 then min PWR_THROTTLE_US.top (s.get PWR_THROTTLE_US + 32)
         else s.get PWR_THROTTLE_US)) ∧
    (let cool := fun (k : Nat) (lim : Fld) => s.junction k < 100 * ((s.get lim : Int) - (s.get PWR_HYSTERESIS_C : Int))
     (cool d PWR_THROTTLE_C → exec (.throttleDecay die) s =
       .next { s with pwr := { s.pwr with thermal := listSet s.pwr.thermal d (s.pwr.thermal.getD d 0 - 1) } }) ∧
     (¬ cool d PWR_THROTTLE_C → exec (.throttleDecay die) s = .next s) ∧
     (let due := s.get PWR_ALERT = 1 ∧ s.get PWR_TRIPPED = 0 ∧ ∀ k < 4, cool k PWR_ALERT_C
      (¬ due → exec .alertRelease s = .next s) ∧
      (due → answers .alertRelease s fun t => t = { s with regs := t.regs, mgmt := t.mgmt, out := t.out } ∧
        s.wordsBut t [PWR_ALERT.addr 0 0] ∧ t.get PWR_ALERT = 0 ∧ t.get PWR_LEVEL = s.get PWR_LEVEL))) ∧
    (s.pwr.mode ≠ .on → exec (.thermalTrip die sensor) s = .next s) ∧
    (s.pwr.mode = .on → answers (.thermalTrip die sensor) s fun t => t.get PWR_TRIPPED = 1 ∧ t.get PWR_TRIP_DIE = d ∧ t.get PWR_ALERT = 1 ∧
      t.pwr.diesOn = 0 ∧ t.pwr.trans = none ∧ t.sets = [] ∧ t.mem.a = [] ∧ t.mem.b = [] ∧
      (s.get PWR_TRANSITION = 1 → t.get PWR_TRANSITION = 0 ∧ t.get PWR_RESULT = 7)) ∧
    (let due := s.get PWR_TRIPPED = 1 ∧ s.get HNG_PWRCYC_REQ = 0
     (¬ due → exec .tripCooldown s = .next s) ∧
     (due → answers .tripCooldown s fun t => t.get HNG_PWRCYC_REQ = 1 ∧ t.get HNG_MODULE_FENCED = 1)) ∧
    (let n := s.pwr.droops.getD d 0 + 1
     let due := ∀ c, s.pwr.droopRec.getD d none = some c → c + 225000 ≤ s.callerCycles
     (s.dieOn d = false → exec (.droop die) s = .next s) ∧
     (s.dieOn d = true → answers (.droop die) s fun t => t = { s with regs := t.regs, pwr := t.pwr, dcd := t.dcd } ∧
       s.wordsBut t [PWR_DROOP_EVENTS.addr 0 0] ∧
       t.get PWR_DROOP_EVENTS = min PWR_DROOP_EVENTS.top (s.get PWR_DROOP_EVENTS + 1) ∧ bit t.pwr.drooping d = true ∧
       (due → t.pwr.droops = listSet s.pwr.droops d 0 ∧ t.pwr.droopRec = listSet s.pwr.droopRec d (some s.callerCycles) ∧
         s.recorded t .management RT_DROOP 11 0 0 [d, n]) ∧
       (¬ due → t.pwr.droops = listSet s.pwr.droops d n ∧ t.pwr.droopRec = s.pwr.droopRec ∧ t.dcd = s.dcd)) ∧
     (bit s.pwr.drooping d = false → exec (.droopRelease die us) s = .next s) ∧
     (bit s.pwr.drooping d = true → answers (.droopRelease die us) s fun t =>
       t = { s with regs := t.regs, pwr := t.pwr, sets := t.sets } ∧ s.wordsBut t [PWR_DROOP_US.addr 0 0] ∧
       t.get PWR_DROOP_US = min PWR_DROOP_US.top (s.get PWR_DROOP_US + us.toNat) ∧ bit t.pwr.drooping d = false ∧
       ∀ m, t.setSt m = { s.setSt m with arrs := (t.setSt m).arrs } ∧ (dieOf m ≠ d → t.setSt m = s.setSt m))) ∧
    (s.ready = false ∨ s.pwr.mode ≠ .on → exec (.clockLoss pll) s = .next s) ∧
    (s.ready = true → s.pwr.mode = .on → answers (.clockLoss pll) s fun t => t.get MOD_PHASE = 3 ∧ t.get CFG_WARM = 1 ∧
      t.epoch = (s.epoch + 1) % 256 ∧ t.pwr.diesOn = 0 ∧ t.mem.a = [] ∧ t.mem.b = [] ∧ t.boot.flash = s.boot.flash ∧
      t.get PWR_CLOCK_LOSSES = min PWR_CLOCK_LOSSES.top (s.get PWR_CLOCK_LOSSES + 1))

/-- I3C, MCTP and PLDM requests: addresses, identities, versions, sensors, the power effecter, descriptor records and events.
Without power no request is served. With it, each is answered as its rule says and a query changes nothing else. ENTDAA gives
a target without a dynamic address one and drives the low 32 serial bits; SETDASA needs a static address in the image. A
static EID or TID of the image is fixed; another is set when valid. Types not served get an error; so does a sensor, effecter
or record that does not exist. The sensors read the registers R531 names. The effecter acts as STATE_CMD: it answers OK when
its transition has begun, else ERROR_NOT_READY, with RESULT as R516 says; other states and effecters are invalid. An event is
held, sent again up to eight times, acknowledged, or counted as lost. Rests on the model's choices of log entries 4, 34, 35,
38. -/
def Obligations.ManagementQueriesSensorsAndEvents : Prop :=
  ∀ (s : State) (addr : BitVec 7) (byte state : Byte) (id : BitVec 16) (handle : BitVec 32) (receiver : Option Byte) (num : Nat),
    let tells := fun (c : Instr) (t : State) (r : Reply) => exec c s = .next { t with out := .reply r :: t.out }
    let b := byte.toNat
    let set := fun m : Mgmt => { s with mgmt := m }
    (s.callerOn = false → ∀ c ∈ [Instr.entdaa addr, .setdasa addr, .setEndpointId byte, .getEndpointId, .getMctpVersionSupport byte,
      .getMessageTypeSupport, .getTid, .setTid byte, .getPldmVersion byte, .getPldmTypes, .getPldmCommands byte, .getSensorReading id,
      .getStateSensorReadings id, .setStateEffecterStates id state, .getStateEffecterStates id, .getPdrRepositoryInfo, .getPdr handle,
      .setEventReceiver receiver, .pollForPlatformEvent, .eventAck num, .eventResend num, .queryDeviceIdentifiers,
      .getFirmwareParameters, .requestUpdate, .passComponentTable id, .transferComplete, .verifyComplete, .applyComplete,
      .activateFirmware, .cancelUpdate, .unsupportedPldm byte state], exec c s = .next s) ∧
    (s.callerOn = true →
      (s.mgmt.dynAddr = none → tells (.entdaa addr) (set { s.mgmt with dynAddr := some addr.toNat })
        (.provisionalId (ofBytes (Config.serial.take 4)))) ∧
      (s.mgmt.dynAddr ≠ none → exec (.entdaa addr) s = .next s) ∧
      (s.img 0x0E 0 1 ≠ 0 → s.mgmt.dynAddr = none → exec (.setdasa addr) s = .next (set { s.mgmt with dynAddr := some addr.toNat })) ∧
      (s.img 0x0E 0 1 = 0 ∨ s.mgmt.dynAddr ≠ none → exec (.setdasa addr) s = .next s) ∧
      (let fixed := s.img 0x0E 1 1
       (fixed ≠ 0 → tells (.setEndpointId byte) s .error ∧ tells .getEndpointId s (.eid fixed)) ∧
       (fixed = 0 → tells .getEndpointId s (.eid s.mgmt.eid) ∧ (b < 8 ∨ 254 < b → tells (.setEndpointId byte) s .invalidData) ∧
         (8 ≤ b → b ≤ 254 → tells (.setEndpointId byte) (set { s.mgmt with eid := b }) .ok))) ∧
      (let fixed := s.img 0x0E 2 1
       (1 ≤ fixed → fixed ≤ 254 → tells .getTid s (.tid fixed) ∧ tells (.setTid byte) s .error) ∧
       (fixed = 0 → tells .getTid s (.tid s.mgmt.tid) ∧ (b = 0 ∨ b = 255 → tells (.setTid byte) s .invalidData) ∧
         (b ≠ 0 → b ≠ 255 → tells (.setTid byte) (set { s.mgmt with tid := b }) .ok))) ∧
      (b ∈ [0x00, 0x01, 0x7E, 0xFF] → tells (.getMctpVersionSupport byte) s (.mctpVersion b)) ∧
      (b ∉ [0x00, 0x01, 0x7E, 0xFF] → tells (.getMctpVersionSupport byte) s .error) ∧
      tells .getMessageTypeSupport s (.messageTypes [0x00, 0x01, 0x7E]) ∧ tells .getPldmTypes s (.types [0, 2, 5]) ∧
      (b ∈ [0, 2, 5] → tells (.getPldmVersion byte) s (.version b) ∧ ∃ cs, tells (.getPldmCommands byte) s (.commands cs) ∧
        cs.length = if b = 0 then 5 else if b = 2 then 9 else 11) ∧
      (b ∉ [0, 2, 5] → tells (.getPldmVersion byte) s .invalidData ∧ tells (.getPldmCommands byte) s .invalidData) ∧
      tells (.unsupportedPldm byte state) s .unsupported ∧ tells .getPdrRepositoryInfo s (.pdrInfo 30) ∧
      tells .queryDeviceIdentifiers s (.device 0xB7D4 (ofBytes Config.serial)) ∧
      tells .getFirmwareParameters s (.firmware 0xA (s.get CFG_IMAGE_VERSION)) ∧
      (let n := id.toNat
       let reads := fun v : Int => tells (.getSensorReading id) s (.reading n v)
       let shows := fun v : Nat => tells (.getStateSensorReadings id) s (.stateReading n v)
       (1 ≤ n → n ≤ 4 → reads (signed 16 (s.getF PWR_D_JUNCTION (n - 1) 0))) ∧
       (5 ≤ n → n ≤ 16 → reads (signed 16 (s.getF PWR_S_STACK_TEMP (n - 5) 0))) ∧
       (17 ≤ n → n ≤ 20 → reads (signed 16 (s.getF OPT_E_ENGINE_TEMP (n - 17) 0))) ∧
       (n = 21 → reads (signed 16 (s.get PWR_PLATE_IN))) ∧ (n = 22 → reads (signed 16 (s.get PWR_PLATE_OUT))) ∧
       (n = 23 → reads (s.get PWR_VIN_MV)) ∧ (n = 25 → reads (s.get PWR_PIN_W)) ∧ (n = 26 → reads (s.get MEM_LIFE_USED_BP)) ∧
       (n = 24 → reads ((s.get PWR_PIN_W * 1000000 / s.get PWR_VIN_MV : Nat) : Int)) ∧
       (n = 0 ∨ 26 < n → tells (.getSensorReading id) s .invalidData) ∧
       (n = 100 → s.pwr.mode = .on → shows (s.get MOD_POWER + 1)) ∧ (n = 101 → shows (s.get MOD_PHASE + 1)) ∧
       (n = 102 → shows (if s.get PWR_TRIPPED = 1 then 4 else if s.get PWR_ALERT = 1 then 3 else if s.get PWR_LEVEL ≠ 0 then 2 else 1)) ∧
       (n ∉ [100, 101, 102] → tells (.getStateSensorReadings id) s .invalidData) ∧
       (n ≠ 200 → tells (.setStateEffecterStates id state) s .invalidData ∧ tells (.getStateEffecterStates id) s .invalidData) ∧
       (n = 200 → tells (.getStateEffecterStates id) s (.effecterState 200 (if s.pwr.mode = .standby then 2 else 1)) ∧
         (state.toNat ∉ [1, 2, 3] → tells (.setStateEffecterStates id state) s .invalidData) ∧
         (state.toNat ∈ [1, 2, 3] → s.get PWR_TRANSITION = 1 → tells (.setStateEffecterStates id state) s .notReady) ∧
         (s.get PWR_TRANSITION = 0 →
           (state = 1 → s.pwr.mode = .standby → answers (.setStateEffecterStates id state) s fun t => t.pwr.trans = some .toRun ∧
             t.get PWR_TRANSITION = 1 ∧ t.out.head? = some (.reply .ok)) ∧
           (state = 1 → s.pwr.mode ≠ .standby → answers (.setStateEffecterStates id state) s fun t =>
             t = { s with regs := t.regs, out := .reply .notReady :: s.out } ∧ t.get PWR_RESULT = 0xB) ∧
           (state = 2 → s.ready = true → s.onlyContext0 = true → s.pwr.mode = .on → answers (.setStateEffecterStates id state) s
             fun t => t.pwr.trans = some .toStandby ∧ t.get PWR_TRANSITION = 1 ∧ t.out.head? = some (.reply .ok)) ∧
           (state = 3 → s.ready = true → s.onlyContext0 = true → answers (.setStateEffecterStates id state) s fun t =>
             t.pwr.trans = some .toDormant ∧ t.get PWR_TRANSITION = 1 ∧ t.out.head? = some (.reply .ok)) ∧
           (state = 2 ∨ state = 3 → s.ready = false ∨ s.onlyContext0 = false → answers (.setStateEffecterStates id state) s fun t =>
             t = { s with regs := t.regs, out := .reply .notReady :: s.out } ∧ t.get PWR_RESULT = 0xC)))) ∧
      (let h := if handle = 0 then 1 else handle.toNat
       (h ≤ 30 → tells (.getPdr handle) s (.pdr h (if h ≤ 26 then h else if h = 30 then 200 else 73 + h) (if h < 30 then h + 1 else 0))) ∧
       (30 < h → tells (.getPdr handle) s .invalidData)) ∧
      tells (.setEventReceiver receiver) (set { s.mgmt with receiver := receiver.map fun x : Byte => x.toNat }) .ok ∧
      (s.mgmt.heldEv = [] → tells .pollForPlatformEvent s .noEvent) ∧
      (∀ n e rest, s.mgmt.heldEv = (n, e) :: rest → tells .pollForPlatformEvent (set { s.mgmt with heldEv := rest }) (.event n e)) ∧
      (exec (.eventAck num) s = .next (set { s.mgmt with sent := s.mgmt.sent.filter fun e => decide (e.1 ≠ num) })) ∧
      ((∀ e ∈ s.mgmt.sent, e.1 ≠ num) → exec (.eventResend num) s = .next s) ∧
      (∀ e k, s.mgmt.sent = [(num, e, k)] →
        (k < 8 → exec (.eventResend num) s =
          .next { set { s.mgmt with sent := [(num, e, k + 1)] } with out := .event num e :: s.out }) ∧
        (8 ≤ k → answers (.eventResend num) s fun t => t = { set { s.mgmt with sent := [] } with regs := t.regs } ∧
          s.wordsBut t [HNG_NOTICES_LOST.addr 0 0] ∧
          t.get HNG_NOTICES_LOST = min HNG_NOTICES_LOST.top (s.get HNG_NOTICES_LOST + 1))))

/-- Attestation reports and the PLDM firmware update: each step's condition, effect, answer and record. REPORT_CMD gives ACCESS
while ATTEST_MODE is 0; else the path is busy with its nonce until the report over it stands in its window, RESULT DONE, with
one ATTEST record; a request with a 64-byte nonce is answered with the report, made on the Caller path, any other with an
error. A firmware update is requested in recovery hold, or enters it from a ready module with only context 0 bound, with the
buffer free or the Caller's; else RETRY_REQUEST_UPDATE. Then, in this order only: a component of classification 0x000A, its
data staged at its offsets as the module asks for them, VERIFY of the staged copy, PROGRAM of one that passed, and a RESTART.
A step out of order, or whose result is a failure, is answered with an error or ignored. A cancelled update frees the buffer,
and restarts the module when no PROGRAM has begun. Rests on the model's choices of log entries 4, 39. -/
def Obligations.AttestationAndFirmwareUpdate : Prop :=
  ∀ (s : State) (p : Path) (nonce data : List Byte) (cls : BitVec 16) (size : BitVec 28) (offset : BitVec 27),
    let u := s.touchPath p
    (s.reached p 0x30004 →
      ((u.path p).signing ≠ none → exec (.reportCmd p) s = .next u) ∧
      ((u.path p).signing = none → s.get SEC_ATTEST_MODE = 0 → answers (.reportCmd p) s fun t => t = { u with paths := t.paths } ∧
        t.path p = { u.path p with reportResult := 3 }) ∧
      ((u.path p).signing = none → s.get SEC_ATTEST_MODE ≠ 0 → answers (.reportCmd p) s fun t => t = { u with paths := t.paths } ∧
        t.path p = { u.path p with signing := some (u.path p).nonce })) ∧
    ((s.path p).signing = none → exec (.reportDone p) s = .next s) ∧
    (∀ n, (s.path p).signing = some n → answers (.reportDone p) s fun t => t = { s with paths := t.paths, dcd := t.dcd } ∧
      t.path p = { s.path p with signing := none, report := s.report (n.flatMap fun w => toBytes 4 w.toNat), reportResult := 0 } ∧
      s.recorded t .management RT_ATTEST 11 0 0 [s.callerCycles]) ∧
    (s.callerOn = false → exec (.attestRequest nonce) s = .next s ∧ exec (.updateComponent cls size) s = .next s ∧
      exec (.requestFirmwareData offset data) s = .next s) ∧
    (s.callerOn = true →
      let sent := fun (r : Reply) (t : State) => t.out.head? = some (.reply r)
      let step := fun (cmd bad : Nat) (t : State) => s.recorded t .management RT_PLDM_UPDATE 11 0 0 [cmd, bad]
      let fails := fun (c : Instr) (cmd : Nat) (r : Reply) => answers c s fun t =>
        t = { s with dcd := t.dcd, out := .reply r :: s.out } ∧ step cmd 1 t
      let fw := s.mgmt.fw
      (s.get SEC_ATTEST_MODE = 0 → answers (.attestRequest nonce) s fun t => t = { s with paths := t.paths, out := .reply .error :: s.out } ∧
        (t.path .caller).reportResult = 3) ∧
      (s.get SEC_ATTEST_MODE ≠ 0 → nonce.length ≠ 64 → exec (.attestRequest nonce) s = .next { s with out := .reply .error :: s.out }) ∧
      (s.get SEC_ATTEST_MODE ≠ 0 → nonce.length = 64 → answers (.attestRequest nonce) s fun t =>
        t = { s with paths := t.paths, dcd := t.dcd, out := .reply (.report (s.report nonce)) :: s.out } ∧
        (t.path .caller).report = s.report nonce ∧ (t.path .caller).reportResult = 0 ∧
        s.recorded t .management RT_ATTEST 11 0 0 [s.callerCycles]) ∧
      (let free := s.boot.owner = none ∨ s.boot.owner = some .caller
       let may := free ∧ (s.inHold = true ∨ (s.ready = true ∧ s.onlyContext0 = true))
       (¬ may → fails .requestUpdate 0x10 .retryRequestUpdate) ∧
       (may → answers .requestUpdate s fun t => sent .ok t ∧ t.inHold = true ∧ t.boot.owner = some .caller ∧
         t.mgmt.fw = .requested ∧ t.mgmt.programmed = false ∧ t.boot.flash = s.boot.flash ∧
         (s.inHold = true → t = { s with boot := t.boot, mgmt := t.mgmt, dcd := t.dcd, out := t.out } ∧ step 0x10 0 t) ∧
         (s.inHold = false → t.sets = []))) ∧
      (let good := fw = .requested ∧ cls = 0x000A
       (¬ good → fails (.passComponentTable cls) 0x13 .invalidData ∧ fails (.updateComponent cls size) 0x14 .invalidData) ∧
       (good → (answers (.passComponentTable cls) s fun t => t = { s with dcd := t.dcd, out := .reply (.component 0xA) :: s.out } ∧
           step 0x13 0 t) ∧
         (s.mayStage .caller = true → answers (.updateComponent cls size) s fun t =>
           t.mgmt = { s.mgmt with fw := .transferring, fwSize := size.toNat } ∧ t.get CFG_STAGE_LENGTH = size.toNat ∧
           t.get CFG_STAGED_OK = 0 ∧ t.boot.flash = s.boot.flash ∧ t.boot.staging = s.boot.staging ∧ step 0x14 0 t ∧
           t.out = .firmwareRequest 0 (min 4096 size.toNat) :: .reply .ok :: s.out))) ∧
      (fw ≠ .transferring → exec (.requestFirmwareData offset data) s = .next s ∧ exec .transferComplete s = .next s) ∧
      (fw = .transferring →
        (answers (.requestFirmwareData offset data) s fun t =>
          let o := offset.toNat
          let next := o + data.length
          t.mgmt = s.mgmt ∧ t.boot.flash = s.boot.flash ∧ t.get CFG_STAGED_OK = 0 ∧ step 0x15 0 t ∧
          (∀ k, t.boot.staging.get 0 k = if o ≤ k ∧ k < next then data.getD (k - o) 0 else s.boot.staging.get 0 k) ∧
          t.out = if next < s.mgmt.fwSize then .firmwareRequest next (min 4096 (s.mgmt.fwSize - next)) :: s.out else s.out) ∧
        (s.inHold = true → s.boot.owner = some .caller → s.get CFG_BUSY = 0 → answers .transferComplete s fun t =>
          t.mgmt = { s.mgmt with fw := .transferred } ∧ t.get CFG_BUSY = 1 ∧ t.boot.verifying ≠ none ∧ step 0x16 0 t)) ∧
      (fw ≠ .transferred ∨ s.get CFG_BUSY = 1 → exec .verifyComplete s = .next s) ∧
      (fw ≠ .verified ∨ s.get CFG_BUSY = 1 → exec .applyComplete s = .next s) ∧
      (fw = .transferred → s.get CFG_BUSY = 0 →
        (s.get CFG_STAGED_OK = 1 → s.inHold = true → s.boot.owner = some .caller → answers .verifyComplete s fun t =>
          t.mgmt = { s.mgmt with fw := .verified, programmed := true } ∧ t.get CFG_BUSY = 1 ∧ t.boot.programming = true ∧
          t.boot.flash = [] ∧ sent .ok t ∧ step 0x17 0 t) ∧
        (s.get CFG_STAGED_OK = 0 → answers .verifyComplete s fun t => t.mgmt = { s.mgmt with fw := .requested } ∧ t.boot = s.boot ∧
          sent .error t ∧ step 0x17 1 t)) ∧
      (fw = .verified → s.get CFG_BUSY = 0 →
        (s.get CFG_RESULT = 0 → answers .applyComplete s fun t => t.mgmt = { s.mgmt with fw := .applied } ∧ t.boot = s.boot ∧
          t.regs = s.regs ∧ sent .ok t ∧ step 0x18 0 t) ∧
        (s.get CFG_RESULT ≠ 0 → answers .applyComplete s fun t => t.mgmt = { s.mgmt with fw := .requested } ∧ t.boot = s.boot ∧
          t.regs = s.regs ∧ sent .error t ∧ step 0x18 1 t)) ∧
      (fw ≠ .applied → fails .activateFirmware 0x1A .error) ∧
      (fw = .applied → s.inHold = true → s.boot.owner = some .caller → s.get CFG_BUSY = 0 → answers .activateFirmware s fun t =>
        t.starting = true ∧ t.get CFG_STAGE = 1 ∧ t.boot.owner = none ∧ t.boot.flash = s.boot.flash ∧ t.sets = [] ∧ t.mgmt.fw = .idle) ∧
      (fw = .idle → fails .cancelUpdate 0x1D .error) ∧
      (fw ≠ .idle →
        (s.mgmt.programmed = true → answers .cancelUpdate s fun t => t.boot = { s.boot with owner := none } ∧
          t.mgmt = { s.mgmt with fw := .idle } ∧ t.get CFG_RESULT = 0 ∧ sent .ok t ∧ step 0x1D 0 t) ∧
        (s.mgmt.programmed = false → answers .cancelUpdate s fun t => t.starting = true ∧ t.boot.owner = none ∧
          t.boot.flash = s.boot.flash ∧ t.mgmt.fw = .idle ∧ sent .ok t)))
end

