-- ==== Sys2Proof/Laws/Bits.lean ====
section
/-! SUPPORT. The laws of bit fields: what a field of a word reads as after that field, or another one, is replaced. -/

namespace Sys2Proof.Laws

open Sys2Proof.Machine

/-- A replaced field between the bits below it and those above it. -/
theorem setBits_eq (v h l w : Nat) :
    setBits v h l w = v % 2 ^ l + 2 ^ l * (w % 2 ^ (h + 1 - l) + 2 ^ (h + 1 - l) * (v / 2 ^ l / 2 ^ (h + 1 - l))) := by
  unfold setBits bits
  generalize h + 1 - l = n
  simp only [Nat.shiftRight_eq_div_pow, Nat.shiftLeft_eq]
  have e1 : v = v % 2 ^ l + 2 ^ l * (v / 2 ^ l) := (Nat.mod_add_div v (2 ^ l)).symm
  have e2 : v / 2 ^ l = v / 2 ^ l % 2 ^ n + 2 ^ n * (v / 2 ^ l / 2 ^ n) := (Nat.mod_add_div (v / 2 ^ l) (2 ^ n)).symm
  generalize hq : v / 2 ^ l = q at *
  generalize hm : q % 2 ^ n = m at *
  generalize hr : q / 2 ^ n = r at *
  generalize hs : 2 ^ l = L at *
  generalize ht : 2 ^ n = N at *
  generalize hu : v % L = u at *
  generalize hz : w % N = z at *
  subst e2
  subst e1
  have e3 : u + L * (m + N * r) = (u + L * (N * r)) + m * L := by rw [Nat.mul_add, Nat.mul_comm L m]; omega
  rw [e3, Nat.add_sub_cancel, Nat.mul_add, Nat.mul_comm L z]
  omega

/-- A field reads as what replaced it. -/
theorem bits_setBits_same (v h l w : Nat) : bits (setBits v h l w) h l = w % 2 ^ (h + 1 - l) := by
  rw [setBits_eq]
  unfold bits
  generalize h + 1 - l = n
  rw [Nat.shiftRight_eq_div_pow, Nat.add_mul_div_left _ _ (Nat.two_pow_pos l),
    Nat.div_eq_of_lt (Nat.mod_lt _ (Nat.two_pow_pos l)), Nat.zero_add, Nat.add_mul_mod_self_left,
    Nat.mod_mod]

/-- A field above a replaced one is unchanged. -/
theorem bits_setBits_above (v h l w h' l' : Nat) (hl : h < l') : bits (setBits v h l w) h' l' = bits v h' l' := by
  rw [setBits_eq]
  unfold bits
  congr 1
  simp only [Nat.shiftRight_eq_div_pow]
  by_cases hb : l ≤ h + 1
  · obtain ⟨k, rfl⟩ : ∃ k, l' = l + (h + 1 - l) + k := ⟨l' - (h + 1), by omega⟩
    generalize h + 1 - l = n
    rw [Nat.pow_add, Nat.pow_add, ← Nat.div_div_eq_div_mul, ← Nat.div_div_eq_div_mul, ← Nat.div_div_eq_div_mul,
      ← Nat.div_div_eq_div_mul, Nat.add_mul_div_left _ _ (Nat.two_pow_pos l),
      Nat.div_eq_of_lt (Nat.mod_lt _ (Nat.two_pow_pos l)), Nat.zero_add, Nat.add_mul_div_left _ _ (Nat.two_pow_pos n),
      Nat.div_eq_of_lt (Nat.mod_lt _ (Nat.two_pow_pos n)), Nat.zero_add]
  · have : h + 1 - l = 0 := by omega
    rw [this]
    simp only [Nat.pow_zero, Nat.mod_one, Nat.zero_add, Nat.div_one, Nat.one_mul]
    rw [Nat.mod_add_div]

/-- A field below a replaced one is unchanged. -/
theorem bits_setBits_below (v h l w h' l' : Nat) (hl : h' < l) : bits (setBits v h l w) h' l' = bits v h' l' := by
  rw [setBits_eq]
  generalize w % 2 ^ (h + 1 - l) + 2 ^ (h + 1 - l) * (v / 2 ^ l / 2 ^ (h + 1 - l)) = q
  unfold bits
  simp only [Nat.shiftRight_eq_div_pow]
  by_cases hb : l' ≤ h' + 1
  · obtain ⟨n, hn⟩ : ∃ n, h' + 1 - l' = n := ⟨_, rfl⟩
    obtain ⟨k, rfl⟩ : ∃ k, l = l' + n + k := ⟨l - (h' + 1), by omega⟩
    rw [hn]
    have key (x y : Nat) (h : x % 2 ^ (l' + n) = y % 2 ^ (l' + n)) : x / 2 ^ l' % 2 ^ n = y / 2 ^ l' % 2 ^ n := by
      rw [← Nat.mod_mul_right_div_self, ← Nat.mod_mul_right_div_self, ← Nat.pow_add, h]
    apply key
    have hd : 2 ^ (l' + n) ∣ 2 ^ (l' + n + k) := ⟨2 ^ k, Nat.pow_add ..⟩
    rw [← Nat.mod_mod_of_dvd (v % 2 ^ (l' + n + k) + 2 ^ (l' + n + k) * q) hd, Nat.add_mul_mod_self_left, Nat.mod_mod,
      Nat.mod_mod_of_dvd _ hd]
  · have : h' + 1 - l' = 0 := by omega
    rw [this]; simp [Nat.mod_one]

/-- A field of `n` bits is less than 2^n. -/
theorem bits_lt (v h l : Nat) : bits v h l < 2 ^ (h + 1 - l) := Nat.mod_lt _ (Nat.two_pow_pos _)

/-- Replacing a field within `n` bits keeps a value of `n` bits. -/
theorem setBits_lt (v h l w n : Nat) (hn : h < n) (hl : l ≤ h) (hv : v < 2 ^ n) : setBits v h l w < 2 ^ n := by
  rw [setBits_eq]
  obtain ⟨k, rfl⟩ : ∃ k, n = l + (h + 1 - l) + k := ⟨n - (h + 1), by omega⟩
  generalize h + 1 - l = m at *
  rw [Nat.pow_add, Nat.pow_add] at *
  have h1 := Nat.mod_lt v (Nat.two_pow_pos l)
  have h2 := Nat.mod_lt w (Nat.two_pow_pos m)
  have h3 : v / 2 ^ l / 2 ^ m < 2 ^ k := by
    rw [Nat.div_div_eq_div_mul]; exact Nat.div_lt_of_lt_mul hv
  generalize v / 2 ^ l / 2 ^ m = r at *
  generalize w % 2 ^ m = z at *
  generalize v % 2 ^ l = u at *
  generalize 2 ^ l = L at *
  generalize 2 ^ m = N at *
  generalize 2 ^ k = K at *
  have a1 : z + N * r < N * K := by
    have : N * r + N ≤ N * K := by rw [← Nat.mul_succ]; exact Nat.mul_le_mul_left N h3
    omega
  have a2 : u + L * (z + N * r) < L * (N * K) := by
    have : L * (z + N * r) + L ≤ L * (N * K) := by rw [← Nat.mul_succ]; exact Nat.mul_le_mul_left L a1
    omega
  rwa [Nat.mul_assoc]

end Sys2Proof.Laws
end

