-- ==== Sys2Proof/Laws/Maps.lean ====
section
/-! SUPPORT. The laws of sparse data: what a key reads as after a store, an erasure or an insertion, and that every operation
keeps the canonical form. -/

namespace Sys2Proof.Laws

open Sys2Proof.Machine

variable {α : Type}

@[simp] theorem find_nil (a : Nat) : SMap.find ([] : SMap α) a = none := rfl

@[simp] theorem get_nil (d : α) (a : Nat) : SMap.get ([] : SMap α) d a = d := rfl

theorem find_erase_same (m : SMap α) (a : Nat) : (m.erase a).find a = none := by
  induction m with
  | nil => rfl
  | cons e m ih =>
    obtain ⟨k, v⟩ := e
    by_cases h : a = k <;> simp [SMap.erase, SMap.find, h]
    · subst h; exact ih
    · exact ih

theorem find_erase_ne (m : SMap α) (a b : Nat) (h : b ≠ a) : (m.erase a).find b = m.find b := by
  induction m with
  | nil => rfl
  | cons e m ih =>
    obtain ⟨k, v⟩ := e
    by_cases hk : a = k
    · subst hk
      simp [SMap.erase, SMap.find, h, ih]
    · simp [SMap.erase, SMap.find, hk, ih]

theorem find_insert_same (m : SMap α) (a : Nat) (w : α) : (m.insert a w).find a = some w := by
  induction m with
  | nil => simp [SMap.insert, SMap.find]
  | cons e m ih =>
    obtain ⟨k, v⟩ := e
    by_cases h : a = k
    · simp [SMap.insert, SMap.find, h]
    · by_cases hl : a < k <;> simp [SMap.insert, SMap.find, h, hl, ih]

theorem find_insert_ne (m : SMap α) (a b : Nat) (w : α) (h : b ≠ a) : (m.insert a w).find b = m.find b := by
  induction m with
  | nil => simp [SMap.insert, SMap.find, h]
  | cons e m ih =>
    obtain ⟨k, v⟩ := e
    by_cases hk : a = k
    · subst hk; simp [SMap.insert, SMap.find, h]
    · by_cases hl : a < k <;> simp [SMap.insert, SMap.find, hk, hl, ih, h]

@[simp] theorem get_put_same [DecidableEq α] (m : SMap α) (d : α) (a : Nat) (w : α) : (m.put d a w).get d a = w := by
  unfold SMap.put SMap.get
  split
  · rw [find_erase_same]; simp_all
  · rw [find_insert_same]; simp

theorem get_put_ne [DecidableEq α] (m : SMap α) (d : α) (a b : Nat) (w : α) (h : b ≠ a) :
    (m.put d a w).get d b = m.get d b := by
  unfold SMap.put SMap.get
  split
  · rw [find_erase_ne _ _ _ h]
  · rw [find_insert_ne _ _ _ _ h]

theorem get_put [DecidableEq α] (m : SMap α) (d : α) (a b : Nat) (w : α) :
    (m.put d a w).get d b = if b = a then w else m.get d b := by
  by_cases h : b = a
  · subst h; simp
  · simp [h, get_put_ne]

/-- A read of consecutive values, one by one. -/
theorem read_getElem? (m : SMap α) (d : α) (a n i : Nat) (h : i < n) : (m.read d a n)[i]? = some (m.get d (a + i)) := by
  induction n generalizing a i with
  | zero => omega
  | succ n ih =>
    cases i with
    | zero => simp [SMap.read]
    | succ i =>
      simp only [SMap.read, List.getElem?_cons_succ]
      rw [ih (a + 1) i (by omega)]
      congr 2; omega

@[simp] theorem read_length (m : SMap α) (d : α) (a n : Nat) : (m.read d a n).length = n := by
  induction n generalizing a with
  | zero => rfl
  | succ n ih => simp [SMap.read, ih]

/-- What a key reads as after a run of stores. -/
theorem get_write [DecidableEq α] (m : SMap α) (d : α) (a b : Nat) (vs : List α) :
    (m.write d a vs).get d b = if h : a ≤ b ∧ b < a + vs.length then vs[b - a]'(by omega) else m.get d b := by
  induction vs generalizing m a with
  | nil =>
    rw [dif_neg (by simp only [List.length_nil]; omega)]; rfl
  | cons v vs ih =>
    simp only [SMap.write, ih, get_put, List.length_cons]
    by_cases h0 : b = a
    · subst h0
      rw [dif_neg (by omega), if_pos rfl, dif_pos (by omega)]
      simp
    · by_cases h1 : a + 1 ≤ b ∧ b < a + 1 + vs.length
      · have h2 : a ≤ b ∧ b < a + (vs.length + 1) := by omega
        simp only [h1, h2, and_self, dite_true]
        have : b - a = (b - (a + 1)) + 1 := by omega
        simp only [this, List.getElem_cons_succ]
      · have h2 : ¬ (a ≤ b ∧ b < a + (vs.length + 1)) := by omega
        rw [dif_neg h1, dif_neg h2, if_neg h0]

theorem get_write_outside [DecidableEq α] (m : SMap α) (d : α) (a b : Nat) (vs : List α)
    (h : b < a ∨ a + vs.length ≤ b) : (m.write d a vs).get d b = m.get d b := by
  rw [get_write, dif_neg (by omega)]

theorem read_write [DecidableEq α] (m : SMap α) (d : α) (a : Nat) (vs : List α) :
    (m.write d a vs).read d a vs.length = vs := by
  apply List.ext_getElem?
  intro i
  by_cases h : i < vs.length
  · rw [read_getElem? _ _ _ _ _ h, get_write, dif_pos (by omega)]
    simp [List.getElem?_eq_getElem h]
  · rw [List.getElem?_eq_none (by simp; omega), List.getElem?_eq_none (by omega)]

/-- Two maps that read the same over a range give the same run of values. -/
theorem read_congr (m m' : SMap α) (d : α) (a n : Nat) (h : ∀ i, a ≤ i → i < a + n → m.get d i = m'.get d i) :
    m.read d a n = m'.read d a n := by
  induction n generalizing a with
  | zero => rfl
  | succ n ih =>
    simp only [SMap.read]
    rw [h a (by omega) (by omega), ih (a + 1) fun i h1 h2 => h i (by omega) (by omega)]

/-! ### The canonical form -/

/-- The canonical form, by its two parts. -/
theorem wf_iff [DecidableEq α] (d : α) (m : SMap α) :
    SMap.wf d m = true ↔ (m.map Prod.fst).Pairwise (· < ·) ∧ ∀ e ∈ m, e.2 ≠ d := by
  induction m with
  | nil => simp [SMap.wf]
  | cons e m ih =>
    obtain ⟨k, v⟩ := e
    cases m with
    | nil => simp [SMap.wf]
    | cons e' m =>
      obtain ⟨k', v'⟩ := e'
      simp only [SMap.wf, Bool.and_eq_true, decide_eq_true_eq, ih, List.map_cons, List.pairwise_cons, List.mem_cons]
      constructor
      · rintro ⟨⟨h1, h2⟩, ⟨h3, h4⟩, h5⟩
        refine ⟨⟨?_, h3, h4⟩, ?_⟩
        · rintro a (rfl | ha)
          · exact h2
          · exact Nat.lt_trans h2 (h3 a ha)
        · rintro e (rfl | h)
          · exact h1
          · exact h5 e h
      · rintro ⟨⟨h1, h3, h4⟩, h5⟩
        exact ⟨⟨h5 (k, v) (Or.inl rfl), h1 k' (Or.inl rfl)⟩, ⟨h3, h4⟩, fun e h => h5 e (Or.inr h)⟩

theorem erase_eq_filter (m : SMap α) (a : Nat) : m.erase a = m.filter fun e => decide (e.1 ≠ a) := by
  induction m with
  | nil => rfl
  | cons e m ih =>
    obtain ⟨k, v⟩ := e
    by_cases h : a = k
    · subst h; simp [SMap.erase, ih]
    · simp [SMap.erase, h, ih, Ne.symm h]

theorem filter_wf [DecidableEq α] (d : α) (m : SMap α) (p : Nat × α → Bool) (h : SMap.wf d m = true) :
    SMap.wf d (m.filter p) = true := by
  rw [wf_iff] at *
  refine ⟨List.Pairwise.sublist (List.Sublist.map _ List.filter_sublist) h.1, fun e he => h.2 e ((List.mem_filter.mp he).1)⟩

theorem erase_wf [DecidableEq α] (d : α) (m : SMap α) (a : Nat) (h : SMap.wf d m = true) : SMap.wf d (m.erase a) = true := by
  rw [erase_eq_filter]; exact filter_wf _ _ _ h

theorem mem_insert (m : SMap α) (a : Nat) (w : α) (e : Nat × α) (h : e ∈ m.insert a w) : e = (a, w) ∨ e ∈ m := by
  induction m with
  | nil => simpa [SMap.insert] using h
  | cons x m ih =>
    obtain ⟨k, v⟩ := x
    simp only [SMap.insert] at h
    split at h
    · rcases List.mem_cons.mp h with h | h
      · exact Or.inl h
      · exact Or.inr (List.mem_cons_of_mem _ h)
    · split at h
      · rcases List.mem_cons.mp h with h | h
        · exact Or.inl h
        · exact Or.inr h
      · rcases List.mem_cons.mp h with h | h
        · exact Or.inr (by simp [h])
        · rcases ih h with h | h
          · exact Or.inl h
          · exact Or.inr (List.mem_cons_of_mem _ h)

theorem insert_wf [DecidableEq α] (d : α) (m : SMap α) (a : Nat) (w : α) (hw : w ≠ d) (h : SMap.wf d m = true) :
    SMap.wf d (m.insert a w) = true := by
  rw [wf_iff] at *
  constructor
  · obtain ⟨h, -⟩ := h
    induction m with
    | nil => simp [SMap.insert]
    | cons x m ih =>
      obtain ⟨k, v⟩ := x
      simp only [List.map_cons, List.pairwise_cons] at h
      simp only [SMap.insert]
      split
      · rename_i hk; subst hk
        simpa using h
      · split
        · rename_i hl
          simp only [List.map_cons, List.pairwise_cons, List.mem_cons]
          refine ⟨?_, h⟩
          rintro b (rfl | hb)
          · exact hl
          · exact Nat.lt_trans hl (h.1 b hb)
        · rename_i hk hl
          simp only [List.map_cons, List.pairwise_cons]
          refine ⟨?_, ih h.2⟩
          intro b hb
          obtain ⟨e, he, rfl⟩ := List.mem_map.mp hb
          rcases mem_insert m a w e he with rfl | he
          · simp only; omega
          · exact h.1 _ (List.mem_map.mpr ⟨e, he, rfl⟩)
  · intro e he
    rcases mem_insert m a w e he with rfl | he
    · exact hw
    · exact h.2 e he

theorem put_wf [DecidableEq α] (d : α) (m : SMap α) (a : Nat) (w : α) (h : SMap.wf d m = true) :
    SMap.wf d (m.put d a w) = true := by
  unfold SMap.put
  split
  · exact erase_wf d m a h
  · exact insert_wf d m a w ‹_› h

theorem write_wf [DecidableEq α] (d : α) (m : SMap α) (a : Nat) (vs : List α) (h : SMap.wf d m = true) :
    SMap.wf d (m.write d a vs) = true := by
  induction vs generalizing m a with
  | nil => exact h
  | cons v vs ih => exact ih _ _ (put_wf d m a v h)

theorem keep_wf [DecidableEq α] (d : α) (m : SMap α) (p : Nat → Bool) (h : SMap.wf d m = true) :
    SMap.wf d (m.keep p) = true := filter_wf d m _ h

theorem find_keep (m : SMap α) (p : Nat → Bool) (a : Nat) : (m.keep p).find a = if p a then m.find a else none := by
  induction m with
  | nil => simp [SMap.keep]
  | cons e m ih =>
    obtain ⟨k, v⟩ := e
    unfold SMap.keep at *
    by_cases hp : p k <;> by_cases hk : a = k
    · subst hk; simp [SMap.find, hp]
    · simp [SMap.find, hp, hk, ih]
    · subst hk; simp [hp, ih]
    · simp [SMap.find, hp, hk, ih]

end Sys2Proof.Laws
end

