-- ==== Sys2Proof/Laws/Regs.lean ====
section
/-! SUPPORT. The laws of the register words: what a word, or a field of one, reads as after a word or a field is set. -/

namespace Sys2Proof.Laws

open Sys2Proof.Machine

/-- A field lies within a 32-bit word. -/
def inWord (f : Fld) : Bool := decide (f.lo ≤ f.hi ∧ f.hi < 32)

theorem blockFields_inWord (b : Nat) : (blockFields b).all inWord = true := by
  unfold blockFields
  split <;> decide +kernel

theorem wordDefault_lt (fs : List Fld) (a w : Nat) (h : fs.all inWord = true) (hw : w < 2 ^ 32) :
    fs.foldl (fun w f => if f.at a then f.set w f.dflt else w) w < 2 ^ 32 := by
  induction fs generalizing w with
  | nil => exact hw
  | cons f fs ih =>
    simp only [List.all_cons, Bool.and_eq_true] at h
    simp only [List.foldl_cons]
    apply ih _ h.2
    split
    · obtain ⟨h1, h2⟩ := of_decide_eq_true h.1
      exact setBits_lt _ _ _ _ _ h2 h1 hw
    · exact hw

theorem regDefault_lt (a : Nat) : regDefault a < 2 ^ 32 :=
  wordDefault_lt _ _ _ (blockFields_inWord _) (by decide)

theorem word_lt (s : State) (a : Nat) : s.word a < 2 ^ 32 := by
  unfold State.word
  split
  · exact BitVec.isLt _
  · exact regDefault_lt a

/-- A word reads as what was put there. -/
theorem word_putWord_same (s : State) (a w : Nat) : (s.putWord a w).word a = w % 2 ^ 32 := by
  unfold State.word State.putWord SMap.put
  simp only
  split
  · next h =>
    split at h
    · rw [find_erase_same] at h; cases h
    · rw [find_insert_same] at h; cases h; simp
  · next h =>
    split at h
    · next e =>
      have := congrArg BitVec.toNat e
      simp only [BitVec.toNat_ofNat] at this
      rw [this, Nat.mod_eq_of_lt (regDefault_lt a)]
    · rw [find_insert_same] at h; cases h

/-- Every other word is unchanged. -/
theorem word_putWord_ne (s : State) (a b w : Nat) (h : b ≠ a) : (s.putWord a w).word b = s.word b := by
  have e : (s.putWord a w).regs.find b = s.regs.find b := by
    unfold State.putWord SMap.put
    simp only
    split
    · rw [find_erase_ne _ _ _ h]
    · rw [find_insert_ne _ _ _ _ h]
  unfold State.word
  rw [e]

/-- A field reads as what was set. -/
theorem getF_setF_mod (s : State) (f : Fld) (i j v : Nat) (hf : inWord f = true) :
    (s.setF f i j v).getF f i j = v % 2 ^ (f.hi + 1 - f.lo) := by
  unfold State.getF State.setF Fld.get Fld.set
  obtain ⟨h1, h2⟩ := of_decide_eq_true hf
  rw [word_putWord_same, Nat.mod_eq_of_lt (setBits_lt _ _ _ _ _ h2 h1 (word_lt s _)), bits_setBits_same]

theorem getF_setF (s : State) (f : Fld) (i j v : Nat) (hf : inWord f = true) (hv : v < 2 ^ (f.hi + 1 - f.lo)) :
    (s.setF f i j v).getF f i j = v := by
  rw [getF_setF_mod _ _ _ _ _ hf, Nat.mod_eq_of_lt hv]

/-- Another field is unchanged: it lies in another word, or in other bits. -/
theorem getF_setF_ne (s : State) (f g : Fld) (i j k l v : Nat) (hf : inWord f = true)
    (h : g.addr k l ≠ f.addr i j ∨ f.hi < g.lo ∨ g.hi < f.lo) : (s.setF f i j v).getF g k l = s.getF g k l := by
  unfold State.getF State.setF Fld.get Fld.set
  by_cases ha : g.addr k l = f.addr i j
  · obtain ⟨h1, h2⟩ := of_decide_eq_true hf
    rw [ha, word_putWord_same, Nat.mod_eq_of_lt (setBits_lt _ _ _ _ _ h2 h1 (word_lt s _))]
    rcases h with h | h | h
    · exact absurd ha h
    · exact bits_setBits_above _ _ _ _ _ _ h
    · exact bits_setBits_below _ _ _ _ _ _ h
  · rw [word_putWord_ne _ _ _ _ ha]

theorem getF_lt (s : State) (f : Fld) (i j : Nat) : s.getF f i j < 2 ^ (f.hi + 1 - f.lo) := bits_lt _ _ _

theorem get_set (s : State) (f : Fld) (v : Nat) (hf : inWord f = true) (hv : v < 2 ^ (f.hi + 1 - f.lo)) :
    (s.set f v).get f = v := getF_setF s f 0 0 v hf hv

theorem get_set_ne (s : State) (f g : Fld) (v : Nat) (hf : inWord f = true)
    (h : g.addr 0 0 ≠ f.addr 0 0 ∨ f.hi < g.lo ∨ g.hi < f.lo) : (s.set f v).get g = s.get g :=
  getF_setF_ne s f g 0 0 0 0 v hf h

theorem get_setF_ne (s : State) (f g : Fld) (i j v : Nat) (hf : inWord f = true)
    (h : g.addr 0 0 ≠ f.addr i j ∨ f.hi < g.lo ∨ g.hi < f.lo) : (s.setF f i j v).get g = s.get g :=
  getF_setF_ne s f g i j 0 0 v hf h

theorem getF_set_ne (s : State) (f g : Fld) (k l v : Nat) (hf : inWord f = true)
    (h : g.addr k l ≠ f.addr 0 0 ∨ f.hi < g.lo ∨ g.hi < f.lo) : (s.set f v).getF g k l = s.getF g k l :=
  getF_setF_ne s f g 0 0 k l v hf h

/-- A state with the same register words reads the same. -/
theorem getF_congr (s t : State) (f : Fld) (i j : Nat) (h : t.regs = s.regs) : t.getF f i j = s.getF f i j := by
  unfold State.getF State.word; rw [h]

theorem get_congr (s t : State) (f : Fld) (h : t.regs = s.regs) : t.get f = s.get f := getF_congr s t f 0 0 h

end Sys2Proof.Laws
end

