-- ==== Sys2Proof/Laws/State.lean ====
section
/-! SUPPORT. What each shared update of the state leaves alone: one law per update and per field of State, so that no proof
unfolds a record update. -/

namespace Sys2Proof.Laws

open Sys2Proof.Machine

/-! ### State.putWord -/

@[simp] theorem putWord_pending (s : State) (a w : Nat) : (s.putWord a w).pending = s.pending := rfl
@[simp] theorem putWord_out (s : State) (a w : Nat) : (s.putWord a w).out = s.out := rfl
@[simp] theorem putWord_callerCycles (s : State) (a w : Nat) : (s.putWord a w).callerCycles = s.callerCycles := rfl
@[simp] theorem putWord_free (s : State) (a w : Nat) : (s.putWord a w).free = s.free := rfl
@[simp] theorem putWord_epoch (s : State) (a w : Nat) : (s.putWord a w).epoch = s.epoch := rfl
@[simp] theorem putWord_keys (s : State) (a w : Nat) : (s.putWord a w).keys = s.keys := rfl
@[simp] theorem putWord_revoked (s : State) (a w : Nat) : (s.putWord a w).revoked = s.revoked := rfl
@[simp] theorem putWord_testPriv (s : State) (a w : Nat) : (s.putWord a w).testPriv = s.testPriv := rfl
@[simp] theorem putWord_paths (s : State) (a w : Nat) : (s.putWord a w).paths = s.paths := rfl
@[simp] theorem putWord_boot (s : State) (a w : Nat) : (s.putWord a w).boot = s.boot := rfl
@[simp] theorem putWord_units (s : State) (a w : Nat) : (s.putWord a w).units = s.units := rfl
@[simp] theorem putWord_dcd (s : State) (a w : Nat) : (s.putWord a w).dcd = s.dcd := rfl
@[simp] theorem putWord_archives (s : State) (a w : Nat) : (s.putWord a w).archives = s.archives := rfl
@[simp] theorem putWord_saveNo (s : State) (a w : Nat) : (s.putWord a w).saveNo = s.saveNo := rfl
@[simp] theorem putWord_hng (s : State) (a w : Nat) : (s.putWord a w).hng = s.hng := rfl
@[simp] theorem putWord_pwr (s : State) (a w : Nat) : (s.putWord a w).pwr = s.pwr := rfl
@[simp] theorem putWord_pins (s : State) (a w : Nat) : (s.putWord a w).pins = s.pins := rfl
@[simp] theorem putWord_mgmt (s : State) (a w : Nat) : (s.putWord a w).mgmt = s.mgmt := rfl
@[simp] theorem putWord_ctx (s : State) (a w : Nat) : (s.putWord a w).ctx = s.ctx := rfl
@[simp] theorem putWord_mbx (s : State) (a w : Nat) : (s.putWord a w).mbx = s.mbx := rfl
@[simp] theorem putWord_mem (s : State) (a w : Nat) : (s.putWord a w).mem = s.mem := rfl
@[simp] theorem putWord_tierC (s : State) (a w : Nat) : (s.putWord a w).tierC = s.tierC := rfl
@[simp] theorem putWord_fab (s : State) (a w : Nat) : (s.putWord a w).fab = s.fab := rfl
@[simp] theorem putWord_sets (s : State) (a w : Nat) : (s.putWord a w).sets = s.sets := rfl
@[simp] theorem putWord_groups (s : State) (a w : Nat) : (s.putWord a w).groups = s.groups := rfl
@[simp] theorem putWord_enc (s : State) (a w : Nat) : (s.putWord a w).enc = s.enc := rfl
@[simp] theorem putWord_frz (s : State) (a w : Nat) : (s.putWord a w).frz = s.frz := rfl
@[simp] theorem putWord_opt (s : State) (a w : Nat) : (s.putWord a w).opt = s.opt := rfl
@[simp] theorem putWord_links (s : State) (a w : Nat) : (s.putWord a w).links = s.links := rfl

@[simp] theorem putWord_setSt (s : State) (a w : Nat) (z : Nat) : (s.putWord a w).setSt z = s.setSt z := by unfold State.setSt; rw [putWord_sets]
@[simp] theorem putWord_slot (s : State) (a w : Nat) (z : Nat) : (s.putWord a w).slot z = s.slot z := by unfold State.slot; rw [putWord_ctx]

/-! ### State.setF -/

@[simp] theorem setF_pending (s : State) (f : Fld) (i j v : Nat) : (s.setF f i j v).pending = s.pending := rfl
@[simp] theorem setF_out (s : State) (f : Fld) (i j v : Nat) : (s.setF f i j v).out = s.out := rfl
@[simp] theorem setF_callerCycles (s : State) (f : Fld) (i j v : Nat) : (s.setF f i j v).callerCycles = s.callerCycles := rfl
@[simp] theorem setF_free (s : State) (f : Fld) (i j v : Nat) : (s.setF f i j v).free = s.free := rfl
@[simp] theorem setF_epoch (s : State) (f : Fld) (i j v : Nat) : (s.setF f i j v).epoch = s.epoch := rfl
@[simp] theorem setF_keys (s : State) (f : Fld) (i j v : Nat) : (s.setF f i j v).keys = s.keys := rfl
@[simp] theorem setF_revoked (s : State) (f : Fld) (i j v : Nat) : (s.setF f i j v).revoked = s.revoked := rfl
@[simp] theorem setF_testPriv (s : State) (f : Fld) (i j v : Nat) : (s.setF f i j v).testPriv = s.testPriv := rfl
@[simp] theorem setF_paths (s : State) (f : Fld) (i j v : Nat) : (s.setF f i j v).paths = s.paths := rfl
@[simp] theorem setF_boot (s : State) (f : Fld) (i j v : Nat) : (s.setF f i j v).boot = s.boot := rfl
@[simp] theorem setF_units (s : State) (f : Fld) (i j v : Nat) : (s.setF f i j v).units = s.units := rfl
@[simp] theorem setF_dcd (s : State) (f : Fld) (i j v : Nat) : (s.setF f i j v).dcd = s.dcd := rfl
@[simp] theorem setF_archives (s : State) (f : Fld) (i j v : Nat) : (s.setF f i j v).archives = s.archives := rfl
@[simp] theorem setF_saveNo (s : State) (f : Fld) (i j v : Nat) : (s.setF f i j v).saveNo = s.saveNo := rfl
@[simp] theorem setF_hng (s : State) (f : Fld) (i j v : Nat) : (s.setF f i j v).hng = s.hng := rfl
@[simp] theorem setF_pwr (s : State) (f : Fld) (i j v : Nat) : (s.setF f i j v).pwr = s.pwr := rfl
@[simp] theorem setF_pins (s : State) (f : Fld) (i j v : Nat) : (s.setF f i j v).pins = s.pins := rfl
@[simp] theorem setF_mgmt (s : State) (f : Fld) (i j v : Nat) : (s.setF f i j v).mgmt = s.mgmt := rfl
@[simp] theorem setF_ctx (s : State) (f : Fld) (i j v : Nat) : (s.setF f i j v).ctx = s.ctx := rfl
@[simp] theorem setF_mbx (s : State) (f : Fld) (i j v : Nat) : (s.setF f i j v).mbx = s.mbx := rfl
@[simp] theorem setF_mem (s : State) (f : Fld) (i j v : Nat) : (s.setF f i j v).mem = s.mem := rfl
@[simp] theorem setF_tierC (s : State) (f : Fld) (i j v : Nat) : (s.setF f i j v).tierC = s.tierC := rfl
@[simp] theorem setF_fab (s : State) (f : Fld) (i j v : Nat) : (s.setF f i j v).fab = s.fab := rfl
@[simp] theorem setF_sets (s : State) (f : Fld) (i j v : Nat) : (s.setF f i j v).sets = s.sets := rfl
@[simp] theorem setF_groups (s : State) (f : Fld) (i j v : Nat) : (s.setF f i j v).groups = s.groups := rfl
@[simp] theorem setF_enc (s : State) (f : Fld) (i j v : Nat) : (s.setF f i j v).enc = s.enc := rfl
@[simp] theorem setF_frz (s : State) (f : Fld) (i j v : Nat) : (s.setF f i j v).frz = s.frz := rfl
@[simp] theorem setF_opt (s : State) (f : Fld) (i j v : Nat) : (s.setF f i j v).opt = s.opt := rfl
@[simp] theorem setF_links (s : State) (f : Fld) (i j v : Nat) : (s.setF f i j v).links = s.links := rfl

@[simp] theorem setF_setSt (s : State) (f : Fld) (i j v : Nat) (z : Nat) : (s.setF f i j v).setSt z = s.setSt z := by unfold State.setSt; rw [setF_sets]
@[simp] theorem setF_slot (s : State) (f : Fld) (i j v : Nat) (z : Nat) : (s.setF f i j v).slot z = s.slot z := by unfold State.slot; rw [setF_ctx]

/-! ### State.set -/

@[simp] theorem set_pending (s : State) (f : Fld) (v : Nat) : (s.set f v).pending = s.pending := rfl
@[simp] theorem set_out (s : State) (f : Fld) (v : Nat) : (s.set f v).out = s.out := rfl
@[simp] theorem set_callerCycles (s : State) (f : Fld) (v : Nat) : (s.set f v).callerCycles = s.callerCycles := rfl
@[simp] theorem set_free (s : State) (f : Fld) (v : Nat) : (s.set f v).free = s.free := rfl
@[simp] theorem set_epoch (s : State) (f : Fld) (v : Nat) : (s.set f v).epoch = s.epoch := rfl
@[simp] theorem set_keys (s : State) (f : Fld) (v : Nat) : (s.set f v).keys = s.keys := rfl
@[simp] theorem set_revoked (s : State) (f : Fld) (v : Nat) : (s.set f v).revoked = s.revoked := rfl
@[simp] theorem set_testPriv (s : State) (f : Fld) (v : Nat) : (s.set f v).testPriv = s.testPriv := rfl
@[simp] theorem set_paths (s : State) (f : Fld) (v : Nat) : (s.set f v).paths = s.paths := rfl
@[simp] theorem set_boot (s : State) (f : Fld) (v : Nat) : (s.set f v).boot = s.boot := rfl
@[simp] theorem set_units (s : State) (f : Fld) (v : Nat) : (s.set f v).units = s.units := rfl
@[simp] theorem set_dcd (s : State) (f : Fld) (v : Nat) : (s.set f v).dcd = s.dcd := rfl
@[simp] theorem set_archives (s : State) (f : Fld) (v : Nat) : (s.set f v).archives = s.archives := rfl
@[simp] theorem set_saveNo (s : State) (f : Fld) (v : Nat) : (s.set f v).saveNo = s.saveNo := rfl
@[simp] theorem set_hng (s : State) (f : Fld) (v : Nat) : (s.set f v).hng = s.hng := rfl
@[simp] theorem set_pwr (s : State) (f : Fld) (v : Nat) : (s.set f v).pwr = s.pwr := rfl
@[simp] theorem set_pins (s : State) (f : Fld) (v : Nat) : (s.set f v).pins = s.pins := rfl
@[simp] theorem set_mgmt (s : State) (f : Fld) (v : Nat) : (s.set f v).mgmt = s.mgmt := rfl
@[simp] theorem set_ctx (s : State) (f : Fld) (v : Nat) : (s.set f v).ctx = s.ctx := rfl
@[simp] theorem set_mbx (s : State) (f : Fld) (v : Nat) : (s.set f v).mbx = s.mbx := rfl
@[simp] theorem set_mem (s : State) (f : Fld) (v : Nat) : (s.set f v).mem = s.mem := rfl
@[simp] theorem set_tierC (s : State) (f : Fld) (v : Nat) : (s.set f v).tierC = s.tierC := rfl
@[simp] theorem set_fab (s : State) (f : Fld) (v : Nat) : (s.set f v).fab = s.fab := rfl
@[simp] theorem set_sets (s : State) (f : Fld) (v : Nat) : (s.set f v).sets = s.sets := rfl
@[simp] theorem set_groups (s : State) (f : Fld) (v : Nat) : (s.set f v).groups = s.groups := rfl
@[simp] theorem set_enc (s : State) (f : Fld) (v : Nat) : (s.set f v).enc = s.enc := rfl
@[simp] theorem set_frz (s : State) (f : Fld) (v : Nat) : (s.set f v).frz = s.frz := rfl
@[simp] theorem set_opt (s : State) (f : Fld) (v : Nat) : (s.set f v).opt = s.opt := rfl
@[simp] theorem set_links (s : State) (f : Fld) (v : Nat) : (s.set f v).links = s.links := rfl

@[simp] theorem set_setSt (s : State) (f : Fld) (v : Nat) (z : Nat) : (s.set f v).setSt z = s.setSt z := by unfold State.setSt; rw [set_sets]
@[simp] theorem set_slot (s : State) (f : Fld) (v : Nat) (z : Nat) : (s.set f v).slot z = s.slot z := by unfold State.slot; rw [set_ctx]

/-! ### State.setBit -/

@[simp] theorem setBit_pending (s : State) (f : Fld) (i j b : Nat) (v : Bool) : (s.setBit f i j b v).pending = s.pending := rfl
@[simp] theorem setBit_out (s : State) (f : Fld) (i j b : Nat) (v : Bool) : (s.setBit f i j b v).out = s.out := rfl
@[simp] theorem setBit_callerCycles (s : State) (f : Fld) (i j b : Nat) (v : Bool) : (s.setBit f i j b v).callerCycles = s.callerCycles := rfl
@[simp] theorem setBit_free (s : State) (f : Fld) (i j b : Nat) (v : Bool) : (s.setBit f i j b v).free = s.free := rfl
@[simp] theorem setBit_epoch (s : State) (f : Fld) (i j b : Nat) (v : Bool) : (s.setBit f i j b v).epoch = s.epoch := rfl
@[simp] theorem setBit_keys (s : State) (f : Fld) (i j b : Nat) (v : Bool) : (s.setBit f i j b v).keys = s.keys := rfl
@[simp] theorem setBit_revoked (s : State) (f : Fld) (i j b : Nat) (v : Bool) : (s.setBit f i j b v).revoked = s.revoked := rfl
@[simp] theorem setBit_testPriv (s : State) (f : Fld) (i j b : Nat) (v : Bool) : (s.setBit f i j b v).testPriv = s.testPriv := rfl
@[simp] theorem setBit_paths (s : State) (f : Fld) (i j b : Nat) (v : Bool) : (s.setBit f i j b v).paths = s.paths := rfl
@[simp] theorem setBit_boot (s : State) (f : Fld) (i j b : Nat) (v : Bool) : (s.setBit f i j b v).boot = s.boot := rfl
@[simp] theorem setBit_units (s : State) (f : Fld) (i j b : Nat) (v : Bool) : (s.setBit f i j b v).units = s.units := rfl
@[simp] theorem setBit_dcd (s : State) (f : Fld) (i j b : Nat) (v : Bool) : (s.setBit f i j b v).dcd = s.dcd := rfl
@[simp] theorem setBit_archives (s : State) (f : Fld) (i j b : Nat) (v : Bool) : (s.setBit f i j b v).archives = s.archives := rfl
@[simp] theorem setBit_saveNo (s : State) (f : Fld) (i j b : Nat) (v : Bool) : (s.setBit f i j b v).saveNo = s.saveNo := rfl
@[simp] theorem setBit_hng (s : State) (f : Fld) (i j b : Nat) (v : Bool) : (s.setBit f i j b v).hng = s.hng := rfl
@[simp] theorem setBit_pwr (s : State) (f : Fld) (i j b : Nat) (v : Bool) : (s.setBit f i j b v).pwr = s.pwr := rfl
@[simp] theorem setBit_pins (s : State) (f : Fld) (i j b : Nat) (v : Bool) : (s.setBit f i j b v).pins = s.pins := rfl
@[simp] theorem setBit_mgmt (s : State) (f : Fld) (i j b : Nat) (v : Bool) : (s.setBit f i j b v).mgmt = s.mgmt := rfl
@[simp] theorem setBit_ctx (s : State) (f : Fld) (i j b : Nat) (v : Bool) : (s.setBit f i j b v).ctx = s.ctx := rfl
@[simp] theorem setBit_mbx (s : State) (f : Fld) (i j b : Nat) (v : Bool) : (s.setBit f i j b v).mbx = s.mbx := rfl
@[simp] theorem setBit_mem (s : State) (f : Fld) (i j b : Nat) (v : Bool) : (s.setBit f i j b v).mem = s.mem := rfl
@[simp] theorem setBit_tierC (s : State) (f : Fld) (i j b : Nat) (v : Bool) : (s.setBit f i j b v).tierC = s.tierC := rfl
@[simp] theorem setBit_fab (s : State) (f : Fld) (i j b : Nat) (v : Bool) : (s.setBit f i j b v).fab = s.fab := rfl
@[simp] theorem setBit_sets (s : State) (f : Fld) (i j b : Nat) (v : Bool) : (s.setBit f i j b v).sets = s.sets := rfl
@[simp] theorem setBit_groups (s : State) (f : Fld) (i j b : Nat) (v : Bool) : (s.setBit f i j b v).groups = s.groups := rfl
@[simp] theorem setBit_enc (s : State) (f : Fld) (i j b : Nat) (v : Bool) : (s.setBit f i j b v).enc = s.enc := rfl
@[simp] theorem setBit_frz (s : State) (f : Fld) (i j b : Nat) (v : Bool) : (s.setBit f i j b v).frz = s.frz := rfl
@[simp] theorem setBit_opt (s : State) (f : Fld) (i j b : Nat) (v : Bool) : (s.setBit f i j b v).opt = s.opt := rfl
@[simp] theorem setBit_links (s : State) (f : Fld) (i j b : Nat) (v : Bool) : (s.setBit f i j b v).links = s.links := rfl

@[simp] theorem setBit_setSt (s : State) (f : Fld) (i j b : Nat) (v : Bool) (z : Nat) : (s.setBit f i j b v).setSt z = s.setSt z := by unfold State.setSt; rw [setBit_sets]
@[simp] theorem setBit_slot (s : State) (f : Fld) (i j b : Nat) (v : Bool) (z : Nat) : (s.setBit f i j b v).slot z = s.slot z := by unfold State.slot; rw [setBit_ctx]

/-! ### State.sat -/

@[simp] theorem sat_pending (s : State) (f : Fld) (i j n : Nat) : (s.sat f i j n).pending = s.pending := rfl
@[simp] theorem sat_out (s : State) (f : Fld) (i j n : Nat) : (s.sat f i j n).out = s.out := rfl
@[simp] theorem sat_callerCycles (s : State) (f : Fld) (i j n : Nat) : (s.sat f i j n).callerCycles = s.callerCycles := rfl
@[simp] theorem sat_free (s : State) (f : Fld) (i j n : Nat) : (s.sat f i j n).free = s.free := rfl
@[simp] theorem sat_epoch (s : State) (f : Fld) (i j n : Nat) : (s.sat f i j n).epoch = s.epoch := rfl
@[simp] theorem sat_keys (s : State) (f : Fld) (i j n : Nat) : (s.sat f i j n).keys = s.keys := rfl
@[simp] theorem sat_revoked (s : State) (f : Fld) (i j n : Nat) : (s.sat f i j n).revoked = s.revoked := rfl
@[simp] theorem sat_testPriv (s : State) (f : Fld) (i j n : Nat) : (s.sat f i j n).testPriv = s.testPriv := rfl
@[simp] theorem sat_paths (s : State) (f : Fld) (i j n : Nat) : (s.sat f i j n).paths = s.paths := rfl
@[simp] theorem sat_boot (s : State) (f : Fld) (i j n : Nat) : (s.sat f i j n).boot = s.boot := rfl
@[simp] theorem sat_units (s : State) (f : Fld) (i j n : Nat) : (s.sat f i j n).units = s.units := rfl
@[simp] theorem sat_dcd (s : State) (f : Fld) (i j n : Nat) : (s.sat f i j n).dcd = s.dcd := rfl
@[simp] theorem sat_archives (s : State) (f : Fld) (i j n : Nat) : (s.sat f i j n).archives = s.archives := rfl
@[simp] theorem sat_saveNo (s : State) (f : Fld) (i j n : Nat) : (s.sat f i j n).saveNo = s.saveNo := rfl
@[simp] theorem sat_hng (s : State) (f : Fld) (i j n : Nat) : (s.sat f i j n).hng = s.hng := rfl
@[simp] theorem sat_pwr (s : State) (f : Fld) (i j n : Nat) : (s.sat f i j n).pwr = s.pwr := rfl
@[simp] theorem sat_pins (s : State) (f : Fld) (i j n : Nat) : (s.sat f i j n).pins = s.pins := rfl
@[simp] theorem sat_mgmt (s : State) (f : Fld) (i j n : Nat) : (s.sat f i j n).mgmt = s.mgmt := rfl
@[simp] theorem sat_ctx (s : State) (f : Fld) (i j n : Nat) : (s.sat f i j n).ctx = s.ctx := rfl
@[simp] theorem sat_mbx (s : State) (f : Fld) (i j n : Nat) : (s.sat f i j n).mbx = s.mbx := rfl
@[simp] theorem sat_mem (s : State) (f : Fld) (i j n : Nat) : (s.sat f i j n).mem = s.mem := rfl
@[simp] theorem sat_tierC (s : State) (f : Fld) (i j n : Nat) : (s.sat f i j n).tierC = s.tierC := rfl
@[simp] theorem sat_fab (s : State) (f : Fld) (i j n : Nat) : (s.sat f i j n).fab = s.fab := rfl
@[simp] theorem sat_sets (s : State) (f : Fld) (i j n : Nat) : (s.sat f i j n).sets = s.sets := rfl
@[simp] theorem sat_groups (s : State) (f : Fld) (i j n : Nat) : (s.sat f i j n).groups = s.groups := rfl
@[simp] theorem sat_enc (s : State) (f : Fld) (i j n : Nat) : (s.sat f i j n).enc = s.enc := rfl
@[simp] theorem sat_frz (s : State) (f : Fld) (i j n : Nat) : (s.sat f i j n).frz = s.frz := rfl
@[simp] theorem sat_opt (s : State) (f : Fld) (i j n : Nat) : (s.sat f i j n).opt = s.opt := rfl
@[simp] theorem sat_links (s : State) (f : Fld) (i j n : Nat) : (s.sat f i j n).links = s.links := rfl

@[simp] theorem sat_setSt (s : State) (f : Fld) (i j n : Nat) (z : Nat) : (s.sat f i j n).setSt z = s.setSt z := by unfold State.setSt; rw [sat_sets]
@[simp] theorem sat_slot (s : State) (f : Fld) (i j n : Nat) (z : Nat) : (s.sat f i j n).slot z = s.slot z := by unfold State.slot; rw [sat_ctx]

/-! ### State.wrap -/

@[simp] theorem wrap_pending (s : State) (f : Fld) (i j n : Nat) : (s.wrap f i j n).pending = s.pending := rfl
@[simp] theorem wrap_out (s : State) (f : Fld) (i j n : Nat) : (s.wrap f i j n).out = s.out := rfl
@[simp] theorem wrap_callerCycles (s : State) (f : Fld) (i j n : Nat) : (s.wrap f i j n).callerCycles = s.callerCycles := rfl
@[simp] theorem wrap_free (s : State) (f : Fld) (i j n : Nat) : (s.wrap f i j n).free = s.free := rfl
@[simp] theorem wrap_epoch (s : State) (f : Fld) (i j n : Nat) : (s.wrap f i j n).epoch = s.epoch := rfl
@[simp] theorem wrap_keys (s : State) (f : Fld) (i j n : Nat) : (s.wrap f i j n).keys = s.keys := rfl
@[simp] theorem wrap_revoked (s : State) (f : Fld) (i j n : Nat) : (s.wrap f i j n).revoked = s.revoked := rfl
@[simp] theorem wrap_testPriv (s : State) (f : Fld) (i j n : Nat) : (s.wrap f i j n).testPriv = s.testPriv := rfl
@[simp] theorem wrap_paths (s : State) (f : Fld) (i j n : Nat) : (s.wrap f i j n).paths = s.paths := rfl
@[simp] theorem wrap_boot (s : State) (f : Fld) (i j n : Nat) : (s.wrap f i j n).boot = s.boot := rfl
@[simp] theorem wrap_units (s : State) (f : Fld) (i j n : Nat) : (s.wrap f i j n).units = s.units := rfl
@[simp] theorem wrap_dcd (s : State) (f : Fld) (i j n : Nat) : (s.wrap f i j n).dcd = s.dcd := rfl
@[simp] theorem wrap_archives (s : State) (f : Fld) (i j n : Nat) : (s.wrap f i j n).archives = s.archives := rfl
@[simp] theorem wrap_saveNo (s : State) (f : Fld) (i j n : Nat) : (s.wrap f i j n).saveNo = s.saveNo := rfl
@[simp] theorem wrap_hng (s : State) (f : Fld) (i j n : Nat) : (s.wrap f i j n).hng = s.hng := rfl
@[simp] theorem wrap_pwr (s : State) (f : Fld) (i j n : Nat) : (s.wrap f i j n).pwr = s.pwr := rfl
@[simp] theorem wrap_pins (s : State) (f : Fld) (i j n : Nat) : (s.wrap f i j n).pins = s.pins := rfl
@[simp] theorem wrap_mgmt (s : State) (f : Fld) (i j n : Nat) : (s.wrap f i j n).mgmt = s.mgmt := rfl
@[simp] theorem wrap_ctx (s : State) (f : Fld) (i j n : Nat) : (s.wrap f i j n).ctx = s.ctx := rfl
@[simp] theorem wrap_mbx (s : State) (f : Fld) (i j n : Nat) : (s.wrap f i j n).mbx = s.mbx := rfl
@[simp] theorem wrap_mem (s : State) (f : Fld) (i j n : Nat) : (s.wrap f i j n).mem = s.mem := rfl
@[simp] theorem wrap_tierC (s : State) (f : Fld) (i j n : Nat) : (s.wrap f i j n).tierC = s.tierC := rfl
@[simp] theorem wrap_fab (s : State) (f : Fld) (i j n : Nat) : (s.wrap f i j n).fab = s.fab := rfl
@[simp] theorem wrap_sets (s : State) (f : Fld) (i j n : Nat) : (s.wrap f i j n).sets = s.sets := rfl
@[simp] theorem wrap_groups (s : State) (f : Fld) (i j n : Nat) : (s.wrap f i j n).groups = s.groups := rfl
@[simp] theorem wrap_enc (s : State) (f : Fld) (i j n : Nat) : (s.wrap f i j n).enc = s.enc := rfl
@[simp] theorem wrap_frz (s : State) (f : Fld) (i j n : Nat) : (s.wrap f i j n).frz = s.frz := rfl
@[simp] theorem wrap_opt (s : State) (f : Fld) (i j n : Nat) : (s.wrap f i j n).opt = s.opt := rfl
@[simp] theorem wrap_links (s : State) (f : Fld) (i j n : Nat) : (s.wrap f i j n).links = s.links := rfl

@[simp] theorem wrap_setSt (s : State) (f : Fld) (i j n : Nat) (z : Nat) : (s.wrap f i j n).setSt z = s.setSt z := by unfold State.setSt; rw [wrap_sets]
@[simp] theorem wrap_slot (s : State) (f : Fld) (i j n : Nat) (z : Nat) : (s.wrap f i j n).slot z = s.slot z := by unfold State.slot; rw [wrap_ctx]

/-! ### State.set64 -/

@[simp] theorem set64_pending (s : State) (f g : Fld) (i n : Nat) : (s.set64 f g i n).pending = s.pending := rfl
@[simp] theorem set64_out (s : State) (f g : Fld) (i n : Nat) : (s.set64 f g i n).out = s.out := rfl
@[simp] theorem set64_callerCycles (s : State) (f g : Fld) (i n : Nat) : (s.set64 f g i n).callerCycles = s.callerCycles := rfl
@[simp] theorem set64_free (s : State) (f g : Fld) (i n : Nat) : (s.set64 f g i n).free = s.free := rfl
@[simp] theorem set64_epoch (s : State) (f g : Fld) (i n : Nat) : (s.set64 f g i n).epoch = s.epoch := rfl
@[simp] theorem set64_keys (s : State) (f g : Fld) (i n : Nat) : (s.set64 f g i n).keys = s.keys := rfl
@[simp] theorem set64_revoked (s : State) (f g : Fld) (i n : Nat) : (s.set64 f g i n).revoked = s.revoked := rfl
@[simp] theorem set64_testPriv (s : State) (f g : Fld) (i n : Nat) : (s.set64 f g i n).testPriv = s.testPriv := rfl
@[simp] theorem set64_paths (s : State) (f g : Fld) (i n : Nat) : (s.set64 f g i n).paths = s.paths := rfl
@[simp] theorem set64_boot (s : State) (f g : Fld) (i n : Nat) : (s.set64 f g i n).boot = s.boot := rfl
@[simp] theorem set64_units (s : State) (f g : Fld) (i n : Nat) : (s.set64 f g i n).units = s.units := rfl
@[simp] theorem set64_dcd (s : State) (f g : Fld) (i n : Nat) : (s.set64 f g i n).dcd = s.dcd := rfl
@[simp] theorem set64_archives (s : State) (f g : Fld) (i n : Nat) : (s.set64 f g i n).archives = s.archives := rfl
@[simp] theorem set64_saveNo (s : State) (f g : Fld) (i n : Nat) : (s.set64 f g i n).saveNo = s.saveNo := rfl
@[simp] theorem set64_hng (s : State) (f g : Fld) (i n : Nat) : (s.set64 f g i n).hng = s.hng := rfl
@[simp] theorem set64_pwr (s : State) (f g : Fld) (i n : Nat) : (s.set64 f g i n).pwr = s.pwr := rfl
@[simp] theorem set64_pins (s : State) (f g : Fld) (i n : Nat) : (s.set64 f g i n).pins = s.pins := rfl
@[simp] theorem set64_mgmt (s : State) (f g : Fld) (i n : Nat) : (s.set64 f g i n).mgmt = s.mgmt := rfl
@[simp] theorem set64_ctx (s : State) (f g : Fld) (i n : Nat) : (s.set64 f g i n).ctx = s.ctx := rfl
@[simp] theorem set64_mbx (s : State) (f g : Fld) (i n : Nat) : (s.set64 f g i n).mbx = s.mbx := rfl
@[simp] theorem set64_mem (s : State) (f g : Fld) (i n : Nat) : (s.set64 f g i n).mem = s.mem := rfl
@[simp] theorem set64_tierC (s : State) (f g : Fld) (i n : Nat) : (s.set64 f g i n).tierC = s.tierC := rfl
@[simp] theorem set64_fab (s : State) (f g : Fld) (i n : Nat) : (s.set64 f g i n).fab = s.fab := rfl
@[simp] theorem set64_sets (s : State) (f g : Fld) (i n : Nat) : (s.set64 f g i n).sets = s.sets := rfl
@[simp] theorem set64_groups (s : State) (f g : Fld) (i n : Nat) : (s.set64 f g i n).groups = s.groups := rfl
@[simp] theorem set64_enc (s : State) (f g : Fld) (i n : Nat) : (s.set64 f g i n).enc = s.enc := rfl
@[simp] theorem set64_frz (s : State) (f g : Fld) (i n : Nat) : (s.set64 f g i n).frz = s.frz := rfl
@[simp] theorem set64_opt (s : State) (f g : Fld) (i n : Nat) : (s.set64 f g i n).opt = s.opt := rfl
@[simp] theorem set64_links (s : State) (f g : Fld) (i n : Nat) : (s.set64 f g i n).links = s.links := rfl

@[simp] theorem set64_setSt (s : State) (f g : Fld) (i n : Nat) (z : Nat) : (s.set64 f g i n).setSt z = s.setSt z := by unfold State.setSt; rw [set64_sets]
@[simp] theorem set64_slot (s : State) (f g : Fld) (i n : Nat) (z : Nat) : (s.set64 f g i n).slot z = s.slot z := by unfold State.slot; rw [set64_ctx]

/-! ### State.wrap64 -/

@[simp] theorem wrap64_pending (s : State) (f g : Fld) (i n : Nat) : (s.wrap64 f g i n).pending = s.pending := rfl
@[simp] theorem wrap64_out (s : State) (f g : Fld) (i n : Nat) : (s.wrap64 f g i n).out = s.out := rfl
@[simp] theorem wrap64_callerCycles (s : State) (f g : Fld) (i n : Nat) : (s.wrap64 f g i n).callerCycles = s.callerCycles := rfl
@[simp] theorem wrap64_free (s : State) (f g : Fld) (i n : Nat) : (s.wrap64 f g i n).free = s.free := rfl
@[simp] theorem wrap64_epoch (s : State) (f g : Fld) (i n : Nat) : (s.wrap64 f g i n).epoch = s.epoch := rfl
@[simp] theorem wrap64_keys (s : State) (f g : Fld) (i n : Nat) : (s.wrap64 f g i n).keys = s.keys := rfl
@[simp] theorem wrap64_revoked (s : State) (f g : Fld) (i n : Nat) : (s.wrap64 f g i n).revoked = s.revoked := rfl
@[simp] theorem wrap64_testPriv (s : State) (f g : Fld) (i n : Nat) : (s.wrap64 f g i n).testPriv = s.testPriv := rfl
@[simp] theorem wrap64_paths (s : State) (f g : Fld) (i n : Nat) : (s.wrap64 f g i n).paths = s.paths := rfl
@[simp] theorem wrap64_boot (s : State) (f g : Fld) (i n : Nat) : (s.wrap64 f g i n).boot = s.boot := rfl
@[simp] theorem wrap64_units (s : State) (f g : Fld) (i n : Nat) : (s.wrap64 f g i n).units = s.units := rfl
@[simp] theorem wrap64_dcd (s : State) (f g : Fld) (i n : Nat) : (s.wrap64 f g i n).dcd = s.dcd := rfl
@[simp] theorem wrap64_archives (s : State) (f g : Fld) (i n : Nat) : (s.wrap64 f g i n).archives = s.archives := rfl
@[simp] theorem wrap64_saveNo (s : State) (f g : Fld) (i n : Nat) : (s.wrap64 f g i n).saveNo = s.saveNo := rfl
@[simp] theorem wrap64_hng (s : State) (f g : Fld) (i n : Nat) : (s.wrap64 f g i n).hng = s.hng := rfl
@[simp] theorem wrap64_pwr (s : State) (f g : Fld) (i n : Nat) : (s.wrap64 f g i n).pwr = s.pwr := rfl
@[simp] theorem wrap64_pins (s : State) (f g : Fld) (i n : Nat) : (s.wrap64 f g i n).pins = s.pins := rfl
@[simp] theorem wrap64_mgmt (s : State) (f g : Fld) (i n : Nat) : (s.wrap64 f g i n).mgmt = s.mgmt := rfl
@[simp] theorem wrap64_ctx (s : State) (f g : Fld) (i n : Nat) : (s.wrap64 f g i n).ctx = s.ctx := rfl
@[simp] theorem wrap64_mbx (s : State) (f g : Fld) (i n : Nat) : (s.wrap64 f g i n).mbx = s.mbx := rfl
@[simp] theorem wrap64_mem (s : State) (f g : Fld) (i n : Nat) : (s.wrap64 f g i n).mem = s.mem := rfl
@[simp] theorem wrap64_tierC (s : State) (f g : Fld) (i n : Nat) : (s.wrap64 f g i n).tierC = s.tierC := rfl
@[simp] theorem wrap64_fab (s : State) (f g : Fld) (i n : Nat) : (s.wrap64 f g i n).fab = s.fab := rfl
@[simp] theorem wrap64_sets (s : State) (f g : Fld) (i n : Nat) : (s.wrap64 f g i n).sets = s.sets := rfl
@[simp] theorem wrap64_groups (s : State) (f g : Fld) (i n : Nat) : (s.wrap64 f g i n).groups = s.groups := rfl
@[simp] theorem wrap64_enc (s : State) (f g : Fld) (i n : Nat) : (s.wrap64 f g i n).enc = s.enc := rfl
@[simp] theorem wrap64_frz (s : State) (f g : Fld) (i n : Nat) : (s.wrap64 f g i n).frz = s.frz := rfl
@[simp] theorem wrap64_opt (s : State) (f g : Fld) (i n : Nat) : (s.wrap64 f g i n).opt = s.opt := rfl
@[simp] theorem wrap64_links (s : State) (f g : Fld) (i n : Nat) : (s.wrap64 f g i n).links = s.links := rfl

@[simp] theorem wrap64_setSt (s : State) (f g : Fld) (i n : Nat) (z : Nat) : (s.wrap64 f g i n).setSt z = s.setSt z := by unfold State.setSt; rw [wrap64_sets]
@[simp] theorem wrap64_slot (s : State) (f g : Fld) (i n : Nat) (z : Nat) : (s.wrap64 f g i n).slot z = s.slot z := by unfold State.slot; rw [wrap64_ctx]

/-! ### State.emitOut -/

@[simp] theorem emitOut_pending (s : State) (o : Out) : (s.emitOut o).pending = s.pending := rfl
@[simp] theorem emitOut_regs (s : State) (o : Out) : (s.emitOut o).regs = s.regs := rfl
@[simp] theorem emitOut_callerCycles (s : State) (o : Out) : (s.emitOut o).callerCycles = s.callerCycles := rfl
@[simp] theorem emitOut_free (s : State) (o : Out) : (s.emitOut o).free = s.free := rfl
@[simp] theorem emitOut_epoch (s : State) (o : Out) : (s.emitOut o).epoch = s.epoch := rfl
@[simp] theorem emitOut_keys (s : State) (o : Out) : (s.emitOut o).keys = s.keys := rfl
@[simp] theorem emitOut_revoked (s : State) (o : Out) : (s.emitOut o).revoked = s.revoked := rfl
@[simp] theorem emitOut_testPriv (s : State) (o : Out) : (s.emitOut o).testPriv = s.testPriv := rfl
@[simp] theorem emitOut_paths (s : State) (o : Out) : (s.emitOut o).paths = s.paths := rfl
@[simp] theorem emitOut_boot (s : State) (o : Out) : (s.emitOut o).boot = s.boot := rfl
@[simp] theorem emitOut_units (s : State) (o : Out) : (s.emitOut o).units = s.units := rfl
@[simp] theorem emitOut_dcd (s : State) (o : Out) : (s.emitOut o).dcd = s.dcd := rfl
@[simp] theorem emitOut_archives (s : State) (o : Out) : (s.emitOut o).archives = s.archives := rfl
@[simp] theorem emitOut_saveNo (s : State) (o : Out) : (s.emitOut o).saveNo = s.saveNo := rfl
@[simp] theorem emitOut_hng (s : State) (o : Out) : (s.emitOut o).hng = s.hng := rfl
@[simp] theorem emitOut_pwr (s : State) (o : Out) : (s.emitOut o).pwr = s.pwr := rfl
@[simp] theorem emitOut_pins (s : State) (o : Out) : (s.emitOut o).pins = s.pins := rfl
@[simp] theorem emitOut_mgmt (s : State) (o : Out) : (s.emitOut o).mgmt = s.mgmt := rfl
@[simp] theorem emitOut_ctx (s : State) (o : Out) : (s.emitOut o).ctx = s.ctx := rfl
@[simp] theorem emitOut_mbx (s : State) (o : Out) : (s.emitOut o).mbx = s.mbx := rfl
@[simp] theorem emitOut_mem (s : State) (o : Out) : (s.emitOut o).mem = s.mem := rfl
@[simp] theorem emitOut_tierC (s : State) (o : Out) : (s.emitOut o).tierC = s.tierC := rfl
@[simp] theorem emitOut_fab (s : State) (o : Out) : (s.emitOut o).fab = s.fab := rfl
@[simp] theorem emitOut_sets (s : State) (o : Out) : (s.emitOut o).sets = s.sets := rfl
@[simp] theorem emitOut_groups (s : State) (o : Out) : (s.emitOut o).groups = s.groups := rfl
@[simp] theorem emitOut_enc (s : State) (o : Out) : (s.emitOut o).enc = s.enc := rfl
@[simp] theorem emitOut_frz (s : State) (o : Out) : (s.emitOut o).frz = s.frz := rfl
@[simp] theorem emitOut_opt (s : State) (o : Out) : (s.emitOut o).opt = s.opt := rfl
@[simp] theorem emitOut_links (s : State) (o : Out) : (s.emitOut o).links = s.links := rfl

@[simp] theorem emitOut_word (s : State) (o : Out) (z : Nat) : (s.emitOut o).word z = s.word z := by unfold State.word; rw [emitOut_regs]
@[simp] theorem emitOut_getF (s : State) (o : Out) (g : Fld) (c1 c2 : Nat) : (s.emitOut o).getF g c1 c2 = s.getF g c1 c2 := getF_congr _ _ _ _ _ (emitOut_regs ..)
@[simp] theorem emitOut_get (s : State) (o : Out) (g : Fld) : (s.emitOut o).get g = s.get g := get_congr _ _ _ (emitOut_regs ..)
@[simp] theorem emitOut_setSt (s : State) (o : Out) (z : Nat) : (s.emitOut o).setSt z = s.setSt z := by unfold State.setSt; rw [emitOut_sets]
@[simp] theorem emitOut_slot (s : State) (o : Out) (z : Nat) : (s.emitOut o).slot z = s.slot z := by unfold State.slot; rw [emitOut_ctx]

/-! ### State.setPath -/

@[simp] theorem setPath_pending (s : State) (p : Path) (x : PathState) : (s.setPath p x).pending = s.pending := by cases p <;> rfl
@[simp] theorem setPath_out (s : State) (p : Path) (x : PathState) : (s.setPath p x).out = s.out := by cases p <;> rfl
@[simp] theorem setPath_regs (s : State) (p : Path) (x : PathState) : (s.setPath p x).regs = s.regs := by cases p <;> rfl
@[simp] theorem setPath_callerCycles (s : State) (p : Path) (x : PathState) : (s.setPath p x).callerCycles = s.callerCycles := by cases p <;> rfl
@[simp] theorem setPath_free (s : State) (p : Path) (x : PathState) : (s.setPath p x).free = s.free := by cases p <;> rfl
@[simp] theorem setPath_epoch (s : State) (p : Path) (x : PathState) : (s.setPath p x).epoch = s.epoch := by cases p <;> rfl
@[simp] theorem setPath_keys (s : State) (p : Path) (x : PathState) : (s.setPath p x).keys = s.keys := by cases p <;> rfl
@[simp] theorem setPath_revoked (s : State) (p : Path) (x : PathState) : (s.setPath p x).revoked = s.revoked := by cases p <;> rfl
@[simp] theorem setPath_testPriv (s : State) (p : Path) (x : PathState) : (s.setPath p x).testPriv = s.testPriv := by cases p <;> rfl
@[simp] theorem setPath_boot (s : State) (p : Path) (x : PathState) : (s.setPath p x).boot = s.boot := by cases p <;> rfl
@[simp] theorem setPath_units (s : State) (p : Path) (x : PathState) : (s.setPath p x).units = s.units := by cases p <;> rfl
@[simp] theorem setPath_dcd (s : State) (p : Path) (x : PathState) : (s.setPath p x).dcd = s.dcd := by cases p <;> rfl
@[simp] theorem setPath_archives (s : State) (p : Path) (x : PathState) : (s.setPath p x).archives = s.archives := by cases p <;> rfl
@[simp] theorem setPath_saveNo (s : State) (p : Path) (x : PathState) : (s.setPath p x).saveNo = s.saveNo := by cases p <;> rfl
@[simp] theorem setPath_hng (s : State) (p : Path) (x : PathState) : (s.setPath p x).hng = s.hng := by cases p <;> rfl
@[simp] theorem setPath_pwr (s : State) (p : Path) (x : PathState) : (s.setPath p x).pwr = s.pwr := by cases p <;> rfl
@[simp] theorem setPath_pins (s : State) (p : Path) (x : PathState) : (s.setPath p x).pins = s.pins := by cases p <;> rfl
@[simp] theorem setPath_mgmt (s : State) (p : Path) (x : PathState) : (s.setPath p x).mgmt = s.mgmt := by cases p <;> rfl
@[simp] theorem setPath_ctx (s : State) (p : Path) (x : PathState) : (s.setPath p x).ctx = s.ctx := by cases p <;> rfl
@[simp] theorem setPath_mbx (s : State) (p : Path) (x : PathState) : (s.setPath p x).mbx = s.mbx := by cases p <;> rfl
@[simp] theorem setPath_mem (s : State) (p : Path) (x : PathState) : (s.setPath p x).mem = s.mem := by cases p <;> rfl
@[simp] theorem setPath_tierC (s : State) (p : Path) (x : PathState) : (s.setPath p x).tierC = s.tierC := by cases p <;> rfl
@[simp] theorem setPath_fab (s : State) (p : Path) (x : PathState) : (s.setPath p x).fab = s.fab := by cases p <;> rfl
@[simp] theorem setPath_sets (s : State) (p : Path) (x : PathState) : (s.setPath p x).sets = s.sets := by cases p <;> rfl
@[simp] theorem setPath_groups (s : State) (p : Path) (x : PathState) : (s.setPath p x).groups = s.groups := by cases p <;> rfl
@[simp] theorem setPath_enc (s : State) (p : Path) (x : PathState) : (s.setPath p x).enc = s.enc := by cases p <;> rfl
@[simp] theorem setPath_frz (s : State) (p : Path) (x : PathState) : (s.setPath p x).frz = s.frz := by cases p <;> rfl
@[simp] theorem setPath_opt (s : State) (p : Path) (x : PathState) : (s.setPath p x).opt = s.opt := by cases p <;> rfl
@[simp] theorem setPath_links (s : State) (p : Path) (x : PathState) : (s.setPath p x).links = s.links := by cases p <;> rfl

@[simp] theorem setPath_word (s : State) (p : Path) (x : PathState) (z : Nat) : (s.setPath p x).word z = s.word z := by unfold State.word; rw [setPath_regs]
@[simp] theorem setPath_getF (s : State) (p : Path) (x : PathState) (g : Fld) (c1 c2 : Nat) : (s.setPath p x).getF g c1 c2 = s.getF g c1 c2 := getF_congr _ _ _ _ _ (setPath_regs ..)
@[simp] theorem setPath_get (s : State) (p : Path) (x : PathState) (g : Fld) : (s.setPath p x).get g = s.get g := get_congr _ _ _ (setPath_regs ..)
@[simp] theorem setPath_setSt (s : State) (p : Path) (x : PathState) (z : Nat) : (s.setPath p x).setSt z = s.setSt z := by unfold State.setSt; rw [setPath_sets]
@[simp] theorem setPath_slot (s : State) (p : Path) (x : PathState) (z : Nat) : (s.setPath p x).slot z = s.slot z := by unfold State.slot; rw [setPath_ctx]

/-! ### State.touchPath -/

@[simp] theorem touchPath_pending (s : State) (p : Path) : (s.touchPath p).pending = s.pending := by cases p <;> rfl
@[simp] theorem touchPath_out (s : State) (p : Path) : (s.touchPath p).out = s.out := by cases p <;> rfl
@[simp] theorem touchPath_regs (s : State) (p : Path) : (s.touchPath p).regs = s.regs := by cases p <;> rfl
@[simp] theorem touchPath_callerCycles (s : State) (p : Path) : (s.touchPath p).callerCycles = s.callerCycles := by cases p <;> rfl
@[simp] theorem touchPath_free (s : State) (p : Path) : (s.touchPath p).free = s.free := by cases p <;> rfl
@[simp] theorem touchPath_epoch (s : State) (p : Path) : (s.touchPath p).epoch = s.epoch := by cases p <;> rfl
@[simp] theorem touchPath_keys (s : State) (p : Path) : (s.touchPath p).keys = s.keys := by cases p <;> rfl
@[simp] theorem touchPath_revoked (s : State) (p : Path) : (s.touchPath p).revoked = s.revoked := by cases p <;> rfl
@[simp] theorem touchPath_testPriv (s : State) (p : Path) : (s.touchPath p).testPriv = s.testPriv := by cases p <;> rfl
@[simp] theorem touchPath_boot (s : State) (p : Path) : (s.touchPath p).boot = s.boot := by cases p <;> rfl
@[simp] theorem touchPath_units (s : State) (p : Path) : (s.touchPath p).units = s.units := by cases p <;> rfl
@[simp] theorem touchPath_dcd (s : State) (p : Path) : (s.touchPath p).dcd = s.dcd := by cases p <;> rfl
@[simp] theorem touchPath_archives (s : State) (p : Path) : (s.touchPath p).archives = s.archives := by cases p <;> rfl
@[simp] theorem touchPath_saveNo (s : State) (p : Path) : (s.touchPath p).saveNo = s.saveNo := by cases p <;> rfl
@[simp] theorem touchPath_hng (s : State) (p : Path) : (s.touchPath p).hng = s.hng := by cases p <;> rfl
@[simp] theorem touchPath_pwr (s : State) (p : Path) : (s.touchPath p).pwr = s.pwr := by cases p <;> rfl
@[simp] theorem touchPath_pins (s : State) (p : Path) : (s.touchPath p).pins = s.pins := by cases p <;> rfl
@[simp] theorem touchPath_mgmt (s : State) (p : Path) : (s.touchPath p).mgmt = s.mgmt := by cases p <;> rfl
@[simp] theorem touchPath_ctx (s : State) (p : Path) : (s.touchPath p).ctx = s.ctx := by cases p <;> rfl
@[simp] theorem touchPath_mbx (s : State) (p : Path) : (s.touchPath p).mbx = s.mbx := by cases p <;> rfl
@[simp] theorem touchPath_mem (s : State) (p : Path) : (s.touchPath p).mem = s.mem := by cases p <;> rfl
@[simp] theorem touchPath_tierC (s : State) (p : Path) : (s.touchPath p).tierC = s.tierC := by cases p <;> rfl
@[simp] theorem touchPath_fab (s : State) (p : Path) : (s.touchPath p).fab = s.fab := by cases p <;> rfl
@[simp] theorem touchPath_sets (s : State) (p : Path) : (s.touchPath p).sets = s.sets := by cases p <;> rfl
@[simp] theorem touchPath_groups (s : State) (p : Path) : (s.touchPath p).groups = s.groups := by cases p <;> rfl
@[simp] theorem touchPath_enc (s : State) (p : Path) : (s.touchPath p).enc = s.enc := by cases p <;> rfl
@[simp] theorem touchPath_frz (s : State) (p : Path) : (s.touchPath p).frz = s.frz := by cases p <;> rfl
@[simp] theorem touchPath_opt (s : State) (p : Path) : (s.touchPath p).opt = s.opt := by cases p <;> rfl
@[simp] theorem touchPath_links (s : State) (p : Path) : (s.touchPath p).links = s.links := by cases p <;> rfl

@[simp] theorem touchPath_word (s : State) (p : Path) (z : Nat) : (s.touchPath p).word z = s.word z := by unfold State.word; rw [touchPath_regs]
@[simp] theorem touchPath_getF (s : State) (p : Path) (g : Fld) (c1 c2 : Nat) : (s.touchPath p).getF g c1 c2 = s.getF g c1 c2 := getF_congr _ _ _ _ _ (touchPath_regs ..)
@[simp] theorem touchPath_get (s : State) (p : Path) (g : Fld) : (s.touchPath p).get g = s.get g := get_congr _ _ _ (touchPath_regs ..)
@[simp] theorem touchPath_setSt (s : State) (p : Path) (z : Nat) : (s.touchPath p).setSt z = s.setSt z := by unfold State.setSt; rw [touchPath_sets]
@[simp] theorem touchPath_slot (s : State) (p : Path) (z : Nat) : (s.touchPath p).slot z = s.slot z := by unfold State.slot; rw [touchPath_ctx]

/-! ### State.putSlot -/

@[simp] theorem putSlot_pending (s : State) (i : Nat) (x : Slot) : (s.putSlot i x).pending = s.pending := rfl
@[simp] theorem putSlot_out (s : State) (i : Nat) (x : Slot) : (s.putSlot i x).out = s.out := rfl
@[simp] theorem putSlot_regs (s : State) (i : Nat) (x : Slot) : (s.putSlot i x).regs = s.regs := rfl
@[simp] theorem putSlot_callerCycles (s : State) (i : Nat) (x : Slot) : (s.putSlot i x).callerCycles = s.callerCycles := rfl
@[simp] theorem putSlot_free (s : State) (i : Nat) (x : Slot) : (s.putSlot i x).free = s.free := rfl
@[simp] theorem putSlot_epoch (s : State) (i : Nat) (x : Slot) : (s.putSlot i x).epoch = s.epoch := rfl
@[simp] theorem putSlot_keys (s : State) (i : Nat) (x : Slot) : (s.putSlot i x).keys = s.keys := rfl
@[simp] theorem putSlot_revoked (s : State) (i : Nat) (x : Slot) : (s.putSlot i x).revoked = s.revoked := rfl
@[simp] theorem putSlot_testPriv (s : State) (i : Nat) (x : Slot) : (s.putSlot i x).testPriv = s.testPriv := rfl
@[simp] theorem putSlot_paths (s : State) (i : Nat) (x : Slot) : (s.putSlot i x).paths = s.paths := rfl
@[simp] theorem putSlot_boot (s : State) (i : Nat) (x : Slot) : (s.putSlot i x).boot = s.boot := rfl
@[simp] theorem putSlot_units (s : State) (i : Nat) (x : Slot) : (s.putSlot i x).units = s.units := rfl
@[simp] theorem putSlot_dcd (s : State) (i : Nat) (x : Slot) : (s.putSlot i x).dcd = s.dcd := rfl
@[simp] theorem putSlot_archives (s : State) (i : Nat) (x : Slot) : (s.putSlot i x).archives = s.archives := rfl
@[simp] theorem putSlot_saveNo (s : State) (i : Nat) (x : Slot) : (s.putSlot i x).saveNo = s.saveNo := rfl
@[simp] theorem putSlot_hng (s : State) (i : Nat) (x : Slot) : (s.putSlot i x).hng = s.hng := rfl
@[simp] theorem putSlot_pwr (s : State) (i : Nat) (x : Slot) : (s.putSlot i x).pwr = s.pwr := rfl
@[simp] theorem putSlot_pins (s : State) (i : Nat) (x : Slot) : (s.putSlot i x).pins = s.pins := rfl
@[simp] theorem putSlot_mgmt (s : State) (i : Nat) (x : Slot) : (s.putSlot i x).mgmt = s.mgmt := rfl
@[simp] theorem putSlot_mbx (s : State) (i : Nat) (x : Slot) : (s.putSlot i x).mbx = s.mbx := rfl
@[simp] theorem putSlot_mem (s : State) (i : Nat) (x : Slot) : (s.putSlot i x).mem = s.mem := rfl
@[simp] theorem putSlot_tierC (s : State) (i : Nat) (x : Slot) : (s.putSlot i x).tierC = s.tierC := rfl
@[simp] theorem putSlot_fab (s : State) (i : Nat) (x : Slot) : (s.putSlot i x).fab = s.fab := rfl
@[simp] theorem putSlot_sets (s : State) (i : Nat) (x : Slot) : (s.putSlot i x).sets = s.sets := rfl
@[simp] theorem putSlot_groups (s : State) (i : Nat) (x : Slot) : (s.putSlot i x).groups = s.groups := rfl
@[simp] theorem putSlot_enc (s : State) (i : Nat) (x : Slot) : (s.putSlot i x).enc = s.enc := rfl
@[simp] theorem putSlot_frz (s : State) (i : Nat) (x : Slot) : (s.putSlot i x).frz = s.frz := rfl
@[simp] theorem putSlot_opt (s : State) (i : Nat) (x : Slot) : (s.putSlot i x).opt = s.opt := rfl
@[simp] theorem putSlot_links (s : State) (i : Nat) (x : Slot) : (s.putSlot i x).links = s.links := rfl

@[simp] theorem putSlot_word (s : State) (i : Nat) (x : Slot) (z : Nat) : (s.putSlot i x).word z = s.word z := by unfold State.word; rw [putSlot_regs]
@[simp] theorem putSlot_getF (s : State) (i : Nat) (x : Slot) (g : Fld) (c1 c2 : Nat) : (s.putSlot i x).getF g c1 c2 = s.getF g c1 c2 := getF_congr _ _ _ _ _ (putSlot_regs ..)
@[simp] theorem putSlot_get (s : State) (i : Nat) (x : Slot) (g : Fld) : (s.putSlot i x).get g = s.get g := get_congr _ _ _ (putSlot_regs ..)
@[simp] theorem putSlot_setSt (s : State) (i : Nat) (x : Slot) (z : Nat) : (s.putSlot i x).setSt z = s.setSt z := by unfold State.setSt; rw [putSlot_sets]

/-! ### State.putSet -/

@[simp] theorem putSet_pending (s : State) (n : Nat) (x : SetState) : (s.putSet n x).pending = s.pending := rfl
@[simp] theorem putSet_out (s : State) (n : Nat) (x : SetState) : (s.putSet n x).out = s.out := rfl
@[simp] theorem putSet_regs (s : State) (n : Nat) (x : SetState) : (s.putSet n x).regs = s.regs := rfl
@[simp] theorem putSet_callerCycles (s : State) (n : Nat) (x : SetState) : (s.putSet n x).callerCycles = s.callerCycles := rfl
@[simp] theorem putSet_free (s : State) (n : Nat) (x : SetState) : (s.putSet n x).free = s.free := rfl
@[simp] theorem putSet_epoch (s : State) (n : Nat) (x : SetState) : (s.putSet n x).epoch = s.epoch := rfl
@[simp] theorem putSet_keys (s : State) (n : Nat) (x : SetState) : (s.putSet n x).keys = s.keys := rfl
@[simp] theorem putSet_revoked (s : State) (n : Nat) (x : SetState) : (s.putSet n x).revoked = s.revoked := rfl
@[simp] theorem putSet_testPriv (s : State) (n : Nat) (x : SetState) : (s.putSet n x).testPriv = s.testPriv := rfl
@[simp] theorem putSet_paths (s : State) (n : Nat) (x : SetState) : (s.putSet n x).paths = s.paths := rfl
@[simp] theorem putSet_boot (s : State) (n : Nat) (x : SetState) : (s.putSet n x).boot = s.boot := rfl
@[simp] theorem putSet_units (s : State) (n : Nat) (x : SetState) : (s.putSet n x).units = s.units := rfl
@[simp] theorem putSet_dcd (s : State) (n : Nat) (x : SetState) : (s.putSet n x).dcd = s.dcd := rfl
@[simp] theorem putSet_archives (s : State) (n : Nat) (x : SetState) : (s.putSet n x).archives = s.archives := rfl
@[simp] theorem putSet_saveNo (s : State) (n : Nat) (x : SetState) : (s.putSet n x).saveNo = s.saveNo := rfl
@[simp] theorem putSet_hng (s : State) (n : Nat) (x : SetState) : (s.putSet n x).hng = s.hng := rfl
@[simp] theorem putSet_pwr (s : State) (n : Nat) (x : SetState) : (s.putSet n x).pwr = s.pwr := rfl
@[simp] theorem putSet_pins (s : State) (n : Nat) (x : SetState) : (s.putSet n x).pins = s.pins := rfl
@[simp] theorem putSet_mgmt (s : State) (n : Nat) (x : SetState) : (s.putSet n x).mgmt = s.mgmt := rfl
@[simp] theorem putSet_ctx (s : State) (n : Nat) (x : SetState) : (s.putSet n x).ctx = s.ctx := rfl
@[simp] theorem putSet_mbx (s : State) (n : Nat) (x : SetState) : (s.putSet n x).mbx = s.mbx := rfl
@[simp] theorem putSet_mem (s : State) (n : Nat) (x : SetState) : (s.putSet n x).mem = s.mem := rfl
@[simp] theorem putSet_tierC (s : State) (n : Nat) (x : SetState) : (s.putSet n x).tierC = s.tierC := rfl
@[simp] theorem putSet_fab (s : State) (n : Nat) (x : SetState) : (s.putSet n x).fab = s.fab := rfl
@[simp] theorem putSet_groups (s : State) (n : Nat) (x : SetState) : (s.putSet n x).groups = s.groups := rfl
@[simp] theorem putSet_enc (s : State) (n : Nat) (x : SetState) : (s.putSet n x).enc = s.enc := rfl
@[simp] theorem putSet_frz (s : State) (n : Nat) (x : SetState) : (s.putSet n x).frz = s.frz := rfl
@[simp] theorem putSet_opt (s : State) (n : Nat) (x : SetState) : (s.putSet n x).opt = s.opt := rfl
@[simp] theorem putSet_links (s : State) (n : Nat) (x : SetState) : (s.putSet n x).links = s.links := rfl

@[simp] theorem putSet_word (s : State) (n : Nat) (x : SetState) (z : Nat) : (s.putSet n x).word z = s.word z := by unfold State.word; rw [putSet_regs]
@[simp] theorem putSet_getF (s : State) (n : Nat) (x : SetState) (g : Fld) (c1 c2 : Nat) : (s.putSet n x).getF g c1 c2 = s.getF g c1 c2 := getF_congr _ _ _ _ _ (putSet_regs ..)
@[simp] theorem putSet_get (s : State) (n : Nat) (x : SetState) (g : Fld) : (s.putSet n x).get g = s.get g := get_congr _ _ _ (putSet_regs ..)
@[simp] theorem putSet_slot (s : State) (n : Nat) (x : SetState) (z : Nat) : (s.putSet n x).slot z = s.slot z := by unfold State.slot; rw [putSet_ctx]

/-! ### State.queueRec -/

@[simp] theorem queueRec_pending (s : State) (r : Rec) : (s.queueRec r).pending = s.pending := by unfold State.queueRec; split; exact rfl; split <;> rfl
@[simp] theorem queueRec_out (s : State) (r : Rec) : (s.queueRec r).out = s.out := by unfold State.queueRec; split; exact rfl; split <;> rfl
@[simp] theorem queueRec_regs (s : State) (r : Rec) : (s.queueRec r).regs = s.regs := by unfold State.queueRec; split; exact rfl; split <;> rfl
@[simp] theorem queueRec_callerCycles (s : State) (r : Rec) : (s.queueRec r).callerCycles = s.callerCycles := by unfold State.queueRec; split; exact rfl; split <;> rfl
@[simp] theorem queueRec_free (s : State) (r : Rec) : (s.queueRec r).free = s.free := by unfold State.queueRec; split; exact rfl; split <;> rfl
@[simp] theorem queueRec_epoch (s : State) (r : Rec) : (s.queueRec r).epoch = s.epoch := by unfold State.queueRec; split; exact rfl; split <;> rfl
@[simp] theorem queueRec_keys (s : State) (r : Rec) : (s.queueRec r).keys = s.keys := by unfold State.queueRec; split; exact rfl; split <;> rfl
@[simp] theorem queueRec_revoked (s : State) (r : Rec) : (s.queueRec r).revoked = s.revoked := by unfold State.queueRec; split; exact rfl; split <;> rfl
@[simp] theorem queueRec_testPriv (s : State) (r : Rec) : (s.queueRec r).testPriv = s.testPriv := by unfold State.queueRec; split; exact rfl; split <;> rfl
@[simp] theorem queueRec_paths (s : State) (r : Rec) : (s.queueRec r).paths = s.paths := by unfold State.queueRec; split; exact rfl; split <;> rfl
@[simp] theorem queueRec_boot (s : State) (r : Rec) : (s.queueRec r).boot = s.boot := by unfold State.queueRec; split; exact rfl; split <;> rfl
@[simp] theorem queueRec_units (s : State) (r : Rec) : (s.queueRec r).units = s.units := by unfold State.queueRec; split; exact rfl; split <;> rfl
@[simp] theorem queueRec_archives (s : State) (r : Rec) : (s.queueRec r).archives = s.archives := by unfold State.queueRec; split; exact rfl; split <;> rfl
@[simp] theorem queueRec_saveNo (s : State) (r : Rec) : (s.queueRec r).saveNo = s.saveNo := by unfold State.queueRec; split; exact rfl; split <;> rfl
@[simp] theorem queueRec_hng (s : State) (r : Rec) : (s.queueRec r).hng = s.hng := by unfold State.queueRec; split; exact rfl; split <;> rfl
@[simp] theorem queueRec_pwr (s : State) (r : Rec) : (s.queueRec r).pwr = s.pwr := by unfold State.queueRec; split; exact rfl; split <;> rfl
@[simp] theorem queueRec_pins (s : State) (r : Rec) : (s.queueRec r).pins = s.pins := by unfold State.queueRec; split; exact rfl; split <;> rfl
@[simp] theorem queueRec_mgmt (s : State) (r : Rec) : (s.queueRec r).mgmt = s.mgmt := by unfold State.queueRec; split; exact rfl; split <;> rfl
@[simp] theorem queueRec_ctx (s : State) (r : Rec) : (s.queueRec r).ctx = s.ctx := by unfold State.queueRec; split; exact rfl; split <;> rfl
@[simp] theorem queueRec_mbx (s : State) (r : Rec) : (s.queueRec r).mbx = s.mbx := by unfold State.queueRec; split; exact rfl; split <;> rfl
@[simp] theorem queueRec_mem (s : State) (r : Rec) : (s.queueRec r).mem = s.mem := by unfold State.queueRec; split; exact rfl; split <;> rfl
@[simp] theorem queueRec_tierC (s : State) (r : Rec) : (s.queueRec r).tierC = s.tierC := by unfold State.queueRec; split; exact rfl; split <;> rfl
@[simp] theorem queueRec_fab (s : State) (r : Rec) : (s.queueRec r).fab = s.fab := by unfold State.queueRec; split; exact rfl; split <;> rfl
@[simp] theorem queueRec_sets (s : State) (r : Rec) : (s.queueRec r).sets = s.sets := by unfold State.queueRec; split; exact rfl; split <;> rfl
@[simp] theorem queueRec_groups (s : State) (r : Rec) : (s.queueRec r).groups = s.groups := by unfold State.queueRec; split; exact rfl; split <;> rfl
@[simp] theorem queueRec_enc (s : State) (r : Rec) : (s.queueRec r).enc = s.enc := by unfold State.queueRec; split; exact rfl; split <;> rfl
@[simp] theorem queueRec_frz (s : State) (r : Rec) : (s.queueRec r).frz = s.frz := by unfold State.queueRec; split; exact rfl; split <;> rfl
@[simp] theorem queueRec_opt (s : State) (r : Rec) : (s.queueRec r).opt = s.opt := by unfold State.queueRec; split; exact rfl; split <;> rfl
@[simp] theorem queueRec_links (s : State) (r : Rec) : (s.queueRec r).links = s.links := by unfold State.queueRec; split; exact rfl; split <;> rfl

@[simp] theorem queueRec_word (s : State) (r : Rec) (z : Nat) : (s.queueRec r).word z = s.word z := by unfold State.word; rw [queueRec_regs]
@[simp] theorem queueRec_getF (s : State) (r : Rec) (g : Fld) (c1 c2 : Nat) : (s.queueRec r).getF g c1 c2 = s.getF g c1 c2 := getF_congr _ _ _ _ _ (queueRec_regs ..)
@[simp] theorem queueRec_get (s : State) (r : Rec) (g : Fld) : (s.queueRec r).get g = s.get g := get_congr _ _ _ (queueRec_regs ..)
@[simp] theorem queueRec_setSt (s : State) (r : Rec) (z : Nat) : (s.queueRec r).setSt z = s.setSt z := by unfold State.setSt; rw [queueRec_sets]
@[simp] theorem queueRec_slot (s : State) (r : Rec) (z : Nat) : (s.queueRec r).slot z = s.slot z := by unfold State.slot; rw [queueRec_ctx]

/-! ### State.emit -/

@[simp] theorem emit_pending (s : State) (y : Nat) (p : Plane) (k u c : Nat) (l : List Nat) : (s.emit y p k u c l).pending = s.pending := queueRec_pending _ _
@[simp] theorem emit_out (s : State) (y : Nat) (p : Plane) (k u c : Nat) (l : List Nat) : (s.emit y p k u c l).out = s.out := queueRec_out _ _
@[simp] theorem emit_regs (s : State) (y : Nat) (p : Plane) (k u c : Nat) (l : List Nat) : (s.emit y p k u c l).regs = s.regs := queueRec_regs _ _
@[simp] theorem emit_callerCycles (s : State) (y : Nat) (p : Plane) (k u c : Nat) (l : List Nat) : (s.emit y p k u c l).callerCycles = s.callerCycles := queueRec_callerCycles _ _
@[simp] theorem emit_free (s : State) (y : Nat) (p : Plane) (k u c : Nat) (l : List Nat) : (s.emit y p k u c l).free = s.free := queueRec_free _ _
@[simp] theorem emit_epoch (s : State) (y : Nat) (p : Plane) (k u c : Nat) (l : List Nat) : (s.emit y p k u c l).epoch = s.epoch := queueRec_epoch _ _
@[simp] theorem emit_keys (s : State) (y : Nat) (p : Plane) (k u c : Nat) (l : List Nat) : (s.emit y p k u c l).keys = s.keys := queueRec_keys _ _
@[simp] theorem emit_revoked (s : State) (y : Nat) (p : Plane) (k u c : Nat) (l : List Nat) : (s.emit y p k u c l).revoked = s.revoked := queueRec_revoked _ _
@[simp] theorem emit_testPriv (s : State) (y : Nat) (p : Plane) (k u c : Nat) (l : List Nat) : (s.emit y p k u c l).testPriv = s.testPriv := queueRec_testPriv _ _
@[simp] theorem emit_paths (s : State) (y : Nat) (p : Plane) (k u c : Nat) (l : List Nat) : (s.emit y p k u c l).paths = s.paths := queueRec_paths _ _
@[simp] theorem emit_boot (s : State) (y : Nat) (p : Plane) (k u c : Nat) (l : List Nat) : (s.emit y p k u c l).boot = s.boot := queueRec_boot _ _
@[simp] theorem emit_units (s : State) (y : Nat) (p : Plane) (k u c : Nat) (l : List Nat) : (s.emit y p k u c l).units = s.units := queueRec_units _ _
@[simp] theorem emit_archives (s : State) (y : Nat) (p : Plane) (k u c : Nat) (l : List Nat) : (s.emit y p k u c l).archives = s.archives := queueRec_archives _ _
@[simp] theorem emit_saveNo (s : State) (y : Nat) (p : Plane) (k u c : Nat) (l : List Nat) : (s.emit y p k u c l).saveNo = s.saveNo := queueRec_saveNo _ _
@[simp] theorem emit_hng (s : State) (y : Nat) (p : Plane) (k u c : Nat) (l : List Nat) : (s.emit y p k u c l).hng = s.hng := queueRec_hng _ _
@[simp] theorem emit_pwr (s : State) (y : Nat) (p : Plane) (k u c : Nat) (l : List Nat) : (s.emit y p k u c l).pwr = s.pwr := queueRec_pwr _ _
@[simp] theorem emit_pins (s : State) (y : Nat) (p : Plane) (k u c : Nat) (l : List Nat) : (s.emit y p k u c l).pins = s.pins := queueRec_pins _ _
@[simp] theorem emit_mgmt (s : State) (y : Nat) (p : Plane) (k u c : Nat) (l : List Nat) : (s.emit y p k u c l).mgmt = s.mgmt := queueRec_mgmt _ _
@[simp] theorem emit_ctx (s : State) (y : Nat) (p : Plane) (k u c : Nat) (l : List Nat) : (s.emit y p k u c l).ctx = s.ctx := queueRec_ctx _ _
@[simp] theorem emit_mbx (s : State) (y : Nat) (p : Plane) (k u c : Nat) (l : List Nat) : (s.emit y p k u c l).mbx = s.mbx := queueRec_mbx _ _
@[simp] theorem emit_mem (s : State) (y : Nat) (p : Plane) (k u c : Nat) (l : List Nat) : (s.emit y p k u c l).mem = s.mem := queueRec_mem _ _
@[simp] theorem emit_tierC (s : State) (y : Nat) (p : Plane) (k u c : Nat) (l : List Nat) : (s.emit y p k u c l).tierC = s.tierC := queueRec_tierC _ _
@[simp] theorem emit_fab (s : State) (y : Nat) (p : Plane) (k u c : Nat) (l : List Nat) : (s.emit y p k u c l).fab = s.fab := queueRec_fab _ _
@[simp] theorem emit_sets (s : State) (y : Nat) (p : Plane) (k u c : Nat) (l : List Nat) : (s.emit y p k u c l).sets = s.sets := queueRec_sets _ _
@[simp] theorem emit_groups (s : State) (y : Nat) (p : Plane) (k u c : Nat) (l : List Nat) : (s.emit y p k u c l).groups = s.groups := queueRec_groups _ _
@[simp] theorem emit_enc (s : State) (y : Nat) (p : Plane) (k u c : Nat) (l : List Nat) : (s.emit y p k u c l).enc = s.enc := queueRec_enc _ _
@[simp] theorem emit_frz (s : State) (y : Nat) (p : Plane) (k u c : Nat) (l : List Nat) : (s.emit y p k u c l).frz = s.frz := queueRec_frz _ _
@[simp] theorem emit_opt (s : State) (y : Nat) (p : Plane) (k u c : Nat) (l : List Nat) : (s.emit y p k u c l).opt = s.opt := queueRec_opt _ _
@[simp] theorem emit_links (s : State) (y : Nat) (p : Plane) (k u c : Nat) (l : List Nat) : (s.emit y p k u c l).links = s.links := queueRec_links _ _

@[simp] theorem emit_word (s : State) (y : Nat) (p : Plane) (k u c : Nat) (l : List Nat) (z : Nat) : (s.emit y p k u c l).word z = s.word z := by unfold State.word; rw [emit_regs]
@[simp] theorem emit_getF (s : State) (y : Nat) (p : Plane) (k u c : Nat) (l : List Nat) (g : Fld) (c1 c2 : Nat) : (s.emit y p k u c l).getF g c1 c2 = s.getF g c1 c2 := getF_congr _ _ _ _ _ (emit_regs ..)
@[simp] theorem emit_get (s : State) (y : Nat) (p : Plane) (k u c : Nat) (l : List Nat) (g : Fld) : (s.emit y p k u c l).get g = s.get g := get_congr _ _ _ (emit_regs ..)
@[simp] theorem emit_setSt (s : State) (y : Nat) (p : Plane) (k u c : Nat) (l : List Nat) (z : Nat) : (s.emit y p k u c l).setSt z = s.setSt z := by unfold State.setSt; rw [emit_sets]
@[simp] theorem emit_slot (s : State) (y : Nat) (p : Plane) (k u c : Nat) (l : List Nat) (z : Nat) : (s.emit y p k u c l).slot z = s.slot z := by unfold State.slot; rw [emit_ctx]

/-! ### State.emitMod -/

@[simp] theorem emitMod_pending (s : State) (y : Nat) (l : List Nat) : (s.emitMod y l).pending = s.pending := emit_pending _ _ _ _ _ _ _
@[simp] theorem emitMod_out (s : State) (y : Nat) (l : List Nat) : (s.emitMod y l).out = s.out := emit_out _ _ _ _ _ _ _
@[simp] theorem emitMod_regs (s : State) (y : Nat) (l : List Nat) : (s.emitMod y l).regs = s.regs := emit_regs _ _ _ _ _ _ _
@[simp] theorem emitMod_callerCycles (s : State) (y : Nat) (l : List Nat) : (s.emitMod y l).callerCycles = s.callerCycles := emit_callerCycles _ _ _ _ _ _ _
@[simp] theorem emitMod_free (s : State) (y : Nat) (l : List Nat) : (s.emitMod y l).free = s.free := emit_free _ _ _ _ _ _ _
@[simp] theorem emitMod_epoch (s : State) (y : Nat) (l : List Nat) : (s.emitMod y l).epoch = s.epoch := emit_epoch _ _ _ _ _ _ _
@[simp] theorem emitMod_keys (s : State) (y : Nat) (l : List Nat) : (s.emitMod y l).keys = s.keys := emit_keys _ _ _ _ _ _ _
@[simp] theorem emitMod_revoked (s : State) (y : Nat) (l : List Nat) : (s.emitMod y l).revoked = s.revoked := emit_revoked _ _ _ _ _ _ _
@[simp] theorem emitMod_testPriv (s : State) (y : Nat) (l : List Nat) : (s.emitMod y l).testPriv = s.testPriv := emit_testPriv _ _ _ _ _ _ _
@[simp] theorem emitMod_paths (s : State) (y : Nat) (l : List Nat) : (s.emitMod y l).paths = s.paths := emit_paths _ _ _ _ _ _ _
@[simp] theorem emitMod_boot (s : State) (y : Nat) (l : List Nat) : (s.emitMod y l).boot = s.boot := emit_boot _ _ _ _ _ _ _
@[simp] theorem emitMod_units (s : State) (y : Nat) (l : List Nat) : (s.emitMod y l).units = s.units := emit_units _ _ _ _ _ _ _
@[simp] theorem emitMod_archives (s : State) (y : Nat) (l : List Nat) : (s.emitMod y l).archives = s.archives := emit_archives _ _ _ _ _ _ _
@[simp] theorem emitMod_saveNo (s : State) (y : Nat) (l : List Nat) : (s.emitMod y l).saveNo = s.saveNo := emit_saveNo _ _ _ _ _ _ _
@[simp] theorem emitMod_hng (s : State) (y : Nat) (l : List Nat) : (s.emitMod y l).hng = s.hng := emit_hng _ _ _ _ _ _ _
@[simp] theorem emitMod_pwr (s : State) (y : Nat) (l : List Nat) : (s.emitMod y l).pwr = s.pwr := emit_pwr _ _ _ _ _ _ _
@[simp] theorem emitMod_pins (s : State) (y : Nat) (l : List Nat) : (s.emitMod y l).pins = s.pins := emit_pins _ _ _ _ _ _ _
@[simp] theorem emitMod_mgmt (s : State) (y : Nat) (l : List Nat) : (s.emitMod y l).mgmt = s.mgmt := emit_mgmt _ _ _ _ _ _ _
@[simp] theorem emitMod_ctx (s : State) (y : Nat) (l : List Nat) : (s.emitMod y l).ctx = s.ctx := emit_ctx _ _ _ _ _ _ _
@[simp] theorem emitMod_mbx (s : State) (y : Nat) (l : List Nat) : (s.emitMod y l).mbx = s.mbx := emit_mbx _ _ _ _ _ _ _
@[simp] theorem emitMod_mem (s : State) (y : Nat) (l : List Nat) : (s.emitMod y l).mem = s.mem := emit_mem _ _ _ _ _ _ _
@[simp] theorem emitMod_tierC (s : State) (y : Nat) (l : List Nat) : (s.emitMod y l).tierC = s.tierC := emit_tierC _ _ _ _ _ _ _
@[simp] theorem emitMod_fab (s : State) (y : Nat) (l : List Nat) : (s.emitMod y l).fab = s.fab := emit_fab _ _ _ _ _ _ _
@[simp] theorem emitMod_sets (s : State) (y : Nat) (l : List Nat) : (s.emitMod y l).sets = s.sets := emit_sets _ _ _ _ _ _ _
@[simp] theorem emitMod_groups (s : State) (y : Nat) (l : List Nat) : (s.emitMod y l).groups = s.groups := emit_groups _ _ _ _ _ _ _
@[simp] theorem emitMod_enc (s : State) (y : Nat) (l : List Nat) : (s.emitMod y l).enc = s.enc := emit_enc _ _ _ _ _ _ _
@[simp] theorem emitMod_frz (s : State) (y : Nat) (l : List Nat) : (s.emitMod y l).frz = s.frz := emit_frz _ _ _ _ _ _ _
@[simp] theorem emitMod_opt (s : State) (y : Nat) (l : List Nat) : (s.emitMod y l).opt = s.opt := emit_opt _ _ _ _ _ _ _
@[simp] theorem emitMod_links (s : State) (y : Nat) (l : List Nat) : (s.emitMod y l).links = s.links := emit_links _ _ _ _ _ _ _

@[simp] theorem emitMod_word (s : State) (y : Nat) (l : List Nat) (z : Nat) : (s.emitMod y l).word z = s.word z := by unfold State.word; rw [emitMod_regs]
@[simp] theorem emitMod_getF (s : State) (y : Nat) (l : List Nat) (g : Fld) (c1 c2 : Nat) : (s.emitMod y l).getF g c1 c2 = s.getF g c1 c2 := getF_congr _ _ _ _ _ (emitMod_regs ..)
@[simp] theorem emitMod_get (s : State) (y : Nat) (l : List Nat) (g : Fld) : (s.emitMod y l).get g = s.get g := get_congr _ _ _ (emitMod_regs ..)
@[simp] theorem emitMod_setSt (s : State) (y : Nat) (l : List Nat) (z : Nat) : (s.emitMod y l).setSt z = s.setSt z := by unfold State.setSt; rw [emitMod_sets]
@[simp] theorem emitMod_slot (s : State) (y : Nat) (l : List Nat) (z : Nat) : (s.emitMod y l).slot z = s.slot z := by unfold State.slot; rw [emitMod_ctx]

/-! ### State.emitCaller -/

@[simp] theorem emitCaller_pending (s : State) (y : Nat) (l : List Nat) : (s.emitCaller y l).pending = s.pending := emit_pending _ _ _ _ _ _ _
@[simp] theorem emitCaller_out (s : State) (y : Nat) (l : List Nat) : (s.emitCaller y l).out = s.out := emit_out _ _ _ _ _ _ _
@[simp] theorem emitCaller_regs (s : State) (y : Nat) (l : List Nat) : (s.emitCaller y l).regs = s.regs := emit_regs _ _ _ _ _ _ _
@[simp] theorem emitCaller_callerCycles (s : State) (y : Nat) (l : List Nat) : (s.emitCaller y l).callerCycles = s.callerCycles := emit_callerCycles _ _ _ _ _ _ _
@[simp] theorem emitCaller_free (s : State) (y : Nat) (l : List Nat) : (s.emitCaller y l).free = s.free := emit_free _ _ _ _ _ _ _
@[simp] theorem emitCaller_epoch (s : State) (y : Nat) (l : List Nat) : (s.emitCaller y l).epoch = s.epoch := emit_epoch _ _ _ _ _ _ _
@[simp] theorem emitCaller_keys (s : State) (y : Nat) (l : List Nat) : (s.emitCaller y l).keys = s.keys := emit_keys _ _ _ _ _ _ _
@[simp] theorem emitCaller_revoked (s : State) (y : Nat) (l : List Nat) : (s.emitCaller y l).revoked = s.revoked := emit_revoked _ _ _ _ _ _ _
@[simp] theorem emitCaller_testPriv (s : State) (y : Nat) (l : List Nat) : (s.emitCaller y l).testPriv = s.testPriv := emit_testPriv _ _ _ _ _ _ _
@[simp] theorem emitCaller_paths (s : State) (y : Nat) (l : List Nat) : (s.emitCaller y l).paths = s.paths := emit_paths _ _ _ _ _ _ _
@[simp] theorem emitCaller_boot (s : State) (y : Nat) (l : List Nat) : (s.emitCaller y l).boot = s.boot := emit_boot _ _ _ _ _ _ _
@[simp] theorem emitCaller_units (s : State) (y : Nat) (l : List Nat) : (s.emitCaller y l).units = s.units := emit_units _ _ _ _ _ _ _
@[simp] theorem emitCaller_archives (s : State) (y : Nat) (l : List Nat) : (s.emitCaller y l).archives = s.archives := emit_archives _ _ _ _ _ _ _
@[simp] theorem emitCaller_saveNo (s : State) (y : Nat) (l : List Nat) : (s.emitCaller y l).saveNo = s.saveNo := emit_saveNo _ _ _ _ _ _ _
@[simp] theorem emitCaller_hng (s : State) (y : Nat) (l : List Nat) : (s.emitCaller y l).hng = s.hng := emit_hng _ _ _ _ _ _ _
@[simp] theorem emitCaller_pwr (s : State) (y : Nat) (l : List Nat) : (s.emitCaller y l).pwr = s.pwr := emit_pwr _ _ _ _ _ _ _
@[simp] theorem emitCaller_pins (s : State) (y : Nat) (l : List Nat) : (s.emitCaller y l).pins = s.pins := emit_pins _ _ _ _ _ _ _
@[simp] theorem emitCaller_mgmt (s : State) (y : Nat) (l : List Nat) : (s.emitCaller y l).mgmt = s.mgmt := emit_mgmt _ _ _ _ _ _ _
@[simp] theorem emitCaller_ctx (s : State) (y : Nat) (l : List Nat) : (s.emitCaller y l).ctx = s.ctx := emit_ctx _ _ _ _ _ _ _
@[simp] theorem emitCaller_mbx (s : State) (y : Nat) (l : List Nat) : (s.emitCaller y l).mbx = s.mbx := emit_mbx _ _ _ _ _ _ _
@[simp] theorem emitCaller_mem (s : State) (y : Nat) (l : List Nat) : (s.emitCaller y l).mem = s.mem := emit_mem _ _ _ _ _ _ _
@[simp] theorem emitCaller_tierC (s : State) (y : Nat) (l : List Nat) : (s.emitCaller y l).tierC = s.tierC := emit_tierC _ _ _ _ _ _ _
@[simp] theorem emitCaller_fab (s : State) (y : Nat) (l : List Nat) : (s.emitCaller y l).fab = s.fab := emit_fab _ _ _ _ _ _ _
@[simp] theorem emitCaller_sets (s : State) (y : Nat) (l : List Nat) : (s.emitCaller y l).sets = s.sets := emit_sets _ _ _ _ _ _ _
@[simp] theorem emitCaller_groups (s : State) (y : Nat) (l : List Nat) : (s.emitCaller y l).groups = s.groups := emit_groups _ _ _ _ _ _ _
@[simp] theorem emitCaller_enc (s : State) (y : Nat) (l : List Nat) : (s.emitCaller y l).enc = s.enc := emit_enc _ _ _ _ _ _ _
@[simp] theorem emitCaller_frz (s : State) (y : Nat) (l : List Nat) : (s.emitCaller y l).frz = s.frz := emit_frz _ _ _ _ _ _ _
@[simp] theorem emitCaller_opt (s : State) (y : Nat) (l : List Nat) : (s.emitCaller y l).opt = s.opt := emit_opt _ _ _ _ _ _ _
@[simp] theorem emitCaller_links (s : State) (y : Nat) (l : List Nat) : (s.emitCaller y l).links = s.links := emit_links _ _ _ _ _ _ _

@[simp] theorem emitCaller_word (s : State) (y : Nat) (l : List Nat) (z : Nat) : (s.emitCaller y l).word z = s.word z := by unfold State.word; rw [emitCaller_regs]
@[simp] theorem emitCaller_getF (s : State) (y : Nat) (l : List Nat) (g : Fld) (c1 c2 : Nat) : (s.emitCaller y l).getF g c1 c2 = s.getF g c1 c2 := getF_congr _ _ _ _ _ (emitCaller_regs ..)
@[simp] theorem emitCaller_get (s : State) (y : Nat) (l : List Nat) (g : Fld) : (s.emitCaller y l).get g = s.get g := get_congr _ _ _ (emitCaller_regs ..)
@[simp] theorem emitCaller_setSt (s : State) (y : Nat) (l : List Nat) (z : Nat) : (s.emitCaller y l).setSt z = s.setSt z := by unfold State.setSt; rw [emitCaller_sets]
@[simp] theorem emitCaller_slot (s : State) (y : Nat) (l : List Nat) (z : Nat) : (s.emitCaller y l).slot z = s.slot z := by unfold State.slot; rw [emitCaller_ctx]

/-! ### State.msix -/

@[simp] theorem msix_pending (s : State) (p v : Nat) : (s.msix p v).pending = s.pending := by unfold State.msix; split <;> rfl
@[simp] theorem msix_regs (s : State) (p v : Nat) : (s.msix p v).regs = s.regs := by unfold State.msix; split <;> rfl
@[simp] theorem msix_callerCycles (s : State) (p v : Nat) : (s.msix p v).callerCycles = s.callerCycles := by unfold State.msix; split <;> rfl
@[simp] theorem msix_free (s : State) (p v : Nat) : (s.msix p v).free = s.free := by unfold State.msix; split <;> rfl
@[simp] theorem msix_epoch (s : State) (p v : Nat) : (s.msix p v).epoch = s.epoch := by unfold State.msix; split <;> rfl
@[simp] theorem msix_keys (s : State) (p v : Nat) : (s.msix p v).keys = s.keys := by unfold State.msix; split <;> rfl
@[simp] theorem msix_revoked (s : State) (p v : Nat) : (s.msix p v).revoked = s.revoked := by unfold State.msix; split <;> rfl
@[simp] theorem msix_testPriv (s : State) (p v : Nat) : (s.msix p v).testPriv = s.testPriv := by unfold State.msix; split <;> rfl
@[simp] theorem msix_paths (s : State) (p v : Nat) : (s.msix p v).paths = s.paths := by unfold State.msix; split <;> rfl
@[simp] theorem msix_boot (s : State) (p v : Nat) : (s.msix p v).boot = s.boot := by unfold State.msix; split <;> rfl
@[simp] theorem msix_units (s : State) (p v : Nat) : (s.msix p v).units = s.units := by unfold State.msix; split <;> rfl
@[simp] theorem msix_dcd (s : State) (p v : Nat) : (s.msix p v).dcd = s.dcd := by unfold State.msix; split <;> rfl
@[simp] theorem msix_archives (s : State) (p v : Nat) : (s.msix p v).archives = s.archives := by unfold State.msix; split <;> rfl
@[simp] theorem msix_saveNo (s : State) (p v : Nat) : (s.msix p v).saveNo = s.saveNo := by unfold State.msix; split <;> rfl
@[simp] theorem msix_hng (s : State) (p v : Nat) : (s.msix p v).hng = s.hng := by unfold State.msix; split <;> rfl
@[simp] theorem msix_pwr (s : State) (p v : Nat) : (s.msix p v).pwr = s.pwr := by unfold State.msix; split <;> rfl
@[simp] theorem msix_pins (s : State) (p v : Nat) : (s.msix p v).pins = s.pins := by unfold State.msix; split <;> rfl
@[simp] theorem msix_mgmt (s : State) (p v : Nat) : (s.msix p v).mgmt = s.mgmt := by unfold State.msix; split <;> rfl
@[simp] theorem msix_ctx (s : State) (p v : Nat) : (s.msix p v).ctx = s.ctx := by unfold State.msix; split <;> rfl
@[simp] theorem msix_mbx (s : State) (p v : Nat) : (s.msix p v).mbx = s.mbx := by unfold State.msix; split <;> rfl
@[simp] theorem msix_mem (s : State) (p v : Nat) : (s.msix p v).mem = s.mem := by unfold State.msix; split <;> rfl
@[simp] theorem msix_tierC (s : State) (p v : Nat) : (s.msix p v).tierC = s.tierC := by unfold State.msix; split <;> rfl
@[simp] theorem msix_fab (s : State) (p v : Nat) : (s.msix p v).fab = s.fab := by unfold State.msix; split <;> rfl
@[simp] theorem msix_sets (s : State) (p v : Nat) : (s.msix p v).sets = s.sets := by unfold State.msix; split <;> rfl
@[simp] theorem msix_groups (s : State) (p v : Nat) : (s.msix p v).groups = s.groups := by unfold State.msix; split <;> rfl
@[simp] theorem msix_enc (s : State) (p v : Nat) : (s.msix p v).enc = s.enc := by unfold State.msix; split <;> rfl
@[simp] theorem msix_frz (s : State) (p v : Nat) : (s.msix p v).frz = s.frz := by unfold State.msix; split <;> rfl
@[simp] theorem msix_opt (s : State) (p v : Nat) : (s.msix p v).opt = s.opt := by unfold State.msix; split <;> rfl
@[simp] theorem msix_links (s : State) (p v : Nat) : (s.msix p v).links = s.links := by unfold State.msix; split <;> rfl

@[simp] theorem msix_word (s : State) (p v : Nat) (z : Nat) : (s.msix p v).word z = s.word z := by unfold State.word; rw [msix_regs]
@[simp] theorem msix_getF (s : State) (p v : Nat) (g : Fld) (c1 c2 : Nat) : (s.msix p v).getF g c1 c2 = s.getF g c1 c2 := getF_congr _ _ _ _ _ (msix_regs ..)
@[simp] theorem msix_get (s : State) (p v : Nat) (g : Fld) : (s.msix p v).get g = s.get g := get_congr _ _ _ (msix_regs ..)
@[simp] theorem msix_setSt (s : State) (p v : Nat) (z : Nat) : (s.msix p v).setSt z = s.setSt z := by unfold State.setSt; rw [msix_sets]
@[simp] theorem msix_slot (s : State) (p v : Nat) (z : Nat) : (s.msix p v).slot z = s.slot z := by unfold State.slot; rw [msix_ctx]

/-! ### State.vector0 -/

@[simp] theorem vector0_pending (s : State) : (s.vector0).pending = s.pending := by simp only [State.vector0, msix_pending]
@[simp] theorem vector0_regs (s : State) : (s.vector0).regs = s.regs := by simp only [State.vector0, msix_regs]
@[simp] theorem vector0_callerCycles (s : State) : (s.vector0).callerCycles = s.callerCycles := by simp only [State.vector0, msix_callerCycles]
@[simp] theorem vector0_free (s : State) : (s.vector0).free = s.free := by simp only [State.vector0, msix_free]
@[simp] theorem vector0_epoch (s : State) : (s.vector0).epoch = s.epoch := by simp only [State.vector0, msix_epoch]
@[simp] theorem vector0_keys (s : State) : (s.vector0).keys = s.keys := by simp only [State.vector0, msix_keys]
@[simp] theorem vector0_revoked (s : State) : (s.vector0).revoked = s.revoked := by simp only [State.vector0, msix_revoked]
@[simp] theorem vector0_testPriv (s : State) : (s.vector0).testPriv = s.testPriv := by simp only [State.vector0, msix_testPriv]
@[simp] theorem vector0_paths (s : State) : (s.vector0).paths = s.paths := by simp only [State.vector0, msix_paths]
@[simp] theorem vector0_boot (s : State) : (s.vector0).boot = s.boot := by simp only [State.vector0, msix_boot]
@[simp] theorem vector0_units (s : State) : (s.vector0).units = s.units := by simp only [State.vector0, msix_units]
@[simp] theorem vector0_dcd (s : State) : (s.vector0).dcd = s.dcd := by simp only [State.vector0, msix_dcd]
@[simp] theorem vector0_archives (s : State) : (s.vector0).archives = s.archives := by simp only [State.vector0, msix_archives]
@[simp] theorem vector0_saveNo (s : State) : (s.vector0).saveNo = s.saveNo := by simp only [State.vector0, msix_saveNo]
@[simp] theorem vector0_hng (s : State) : (s.vector0).hng = s.hng := by simp only [State.vector0, msix_hng]
@[simp] theorem vector0_pwr (s : State) : (s.vector0).pwr = s.pwr := by simp only [State.vector0, msix_pwr]
@[simp] theorem vector0_pins (s : State) : (s.vector0).pins = s.pins := by simp only [State.vector0, msix_pins]
@[simp] theorem vector0_mgmt (s : State) : (s.vector0).mgmt = s.mgmt := by simp only [State.vector0, msix_mgmt]
@[simp] theorem vector0_ctx (s : State) : (s.vector0).ctx = s.ctx := by simp only [State.vector0, msix_ctx]
@[simp] theorem vector0_mbx (s : State) : (s.vector0).mbx = s.mbx := by simp only [State.vector0, msix_mbx]
@[simp] theorem vector0_mem (s : State) : (s.vector0).mem = s.mem := by simp only [State.vector0, msix_mem]
@[simp] theorem vector0_tierC (s : State) : (s.vector0).tierC = s.tierC := by simp only [State.vector0, msix_tierC]
@[simp] theorem vector0_fab (s : State) : (s.vector0).fab = s.fab := by simp only [State.vector0, msix_fab]
@[simp] theorem vector0_sets (s : State) : (s.vector0).sets = s.sets := by simp only [State.vector0, msix_sets]
@[simp] theorem vector0_groups (s : State) : (s.vector0).groups = s.groups := by simp only [State.vector0, msix_groups]
@[simp] theorem vector0_enc (s : State) : (s.vector0).enc = s.enc := by simp only [State.vector0, msix_enc]
@[simp] theorem vector0_frz (s : State) : (s.vector0).frz = s.frz := by simp only [State.vector0, msix_frz]
@[simp] theorem vector0_opt (s : State) : (s.vector0).opt = s.opt := by simp only [State.vector0, msix_opt]
@[simp] theorem vector0_links (s : State) : (s.vector0).links = s.links := by simp only [State.vector0, msix_links]

@[simp] theorem vector0_word (s : State) (z : Nat) : (s.vector0).word z = s.word z := by unfold State.word; rw [vector0_regs]
@[simp] theorem vector0_getF (s : State) (g : Fld) (c1 c2 : Nat) : (s.vector0).getF g c1 c2 = s.getF g c1 c2 := getF_congr _ _ _ _ _ (vector0_regs ..)
@[simp] theorem vector0_get (s : State) (g : Fld) : (s.vector0).get g = s.get g := get_congr _ _ _ (vector0_regs ..)
@[simp] theorem vector0_setSt (s : State) (z : Nat) : (s.vector0).setSt z = s.setSt z := by unfold State.setSt; rw [vector0_sets]
@[simp] theorem vector0_slot (s : State) (z : Nat) : (s.vector0).slot z = s.slot z := by unfold State.slot; rw [vector0_ctx]

/-! ### State.raiseEvent -/

@[simp] theorem raiseEvent_pending (s : State) (e : PldmEvent) : (s.raiseEvent e).pending = s.pending := by unfold State.raiseEvent; split <;> rfl
@[simp] theorem raiseEvent_regs (s : State) (e : PldmEvent) : (s.raiseEvent e).regs = s.regs := by unfold State.raiseEvent; split <;> rfl
@[simp] theorem raiseEvent_callerCycles (s : State) (e : PldmEvent) : (s.raiseEvent e).callerCycles = s.callerCycles := by unfold State.raiseEvent; split <;> rfl
@[simp] theorem raiseEvent_free (s : State) (e : PldmEvent) : (s.raiseEvent e).free = s.free := by unfold State.raiseEvent; split <;> rfl
@[simp] theorem raiseEvent_epoch (s : State) (e : PldmEvent) : (s.raiseEvent e).epoch = s.epoch := by unfold State.raiseEvent; split <;> rfl
@[simp] theorem raiseEvent_keys (s : State) (e : PldmEvent) : (s.raiseEvent e).keys = s.keys := by unfold State.raiseEvent; split <;> rfl
@[simp] theorem raiseEvent_revoked (s : State) (e : PldmEvent) : (s.raiseEvent e).revoked = s.revoked := by unfold State.raiseEvent; split <;> rfl
@[simp] theorem raiseEvent_testPriv (s : State) (e : PldmEvent) : (s.raiseEvent e).testPriv = s.testPriv := by unfold State.raiseEvent; split <;> rfl
@[simp] theorem raiseEvent_paths (s : State) (e : PldmEvent) : (s.raiseEvent e).paths = s.paths := by unfold State.raiseEvent; split <;> rfl
@[simp] theorem raiseEvent_boot (s : State) (e : PldmEvent) : (s.raiseEvent e).boot = s.boot := by unfold State.raiseEvent; split <;> rfl
@[simp] theorem raiseEvent_units (s : State) (e : PldmEvent) : (s.raiseEvent e).units = s.units := by unfold State.raiseEvent; split <;> rfl
@[simp] theorem raiseEvent_dcd (s : State) (e : PldmEvent) : (s.raiseEvent e).dcd = s.dcd := by unfold State.raiseEvent; split <;> rfl
@[simp] theorem raiseEvent_archives (s : State) (e : PldmEvent) : (s.raiseEvent e).archives = s.archives := by unfold State.raiseEvent; split <;> rfl
@[simp] theorem raiseEvent_saveNo (s : State) (e : PldmEvent) : (s.raiseEvent e).saveNo = s.saveNo := by unfold State.raiseEvent; split <;> rfl
@[simp] theorem raiseEvent_hng (s : State) (e : PldmEvent) : (s.raiseEvent e).hng = s.hng := by unfold State.raiseEvent; split <;> rfl
@[simp] theorem raiseEvent_pwr (s : State) (e : PldmEvent) : (s.raiseEvent e).pwr = s.pwr := by unfold State.raiseEvent; split <;> rfl
@[simp] theorem raiseEvent_pins (s : State) (e : PldmEvent) : (s.raiseEvent e).pins = s.pins := by unfold State.raiseEvent; split <;> rfl
@[simp] theorem raiseEvent_ctx (s : State) (e : PldmEvent) : (s.raiseEvent e).ctx = s.ctx := by unfold State.raiseEvent; split <;> rfl
@[simp] theorem raiseEvent_mbx (s : State) (e : PldmEvent) : (s.raiseEvent e).mbx = s.mbx := by unfold State.raiseEvent; split <;> rfl
@[simp] theorem raiseEvent_mem (s : State) (e : PldmEvent) : (s.raiseEvent e).mem = s.mem := by unfold State.raiseEvent; split <;> rfl
@[simp] theorem raiseEvent_tierC (s : State) (e : PldmEvent) : (s.raiseEvent e).tierC = s.tierC := by unfold State.raiseEvent; split <;> rfl
@[simp] theorem raiseEvent_fab (s : State) (e : PldmEvent) : (s.raiseEvent e).fab = s.fab := by unfold State.raiseEvent; split <;> rfl
@[simp] theorem raiseEvent_sets (s : State) (e : PldmEvent) : (s.raiseEvent e).sets = s.sets := by unfold State.raiseEvent; split <;> rfl
@[simp] theorem raiseEvent_groups (s : State) (e : PldmEvent) : (s.raiseEvent e).groups = s.groups := by unfold State.raiseEvent; split <;> rfl
@[simp] theorem raiseEvent_enc (s : State) (e : PldmEvent) : (s.raiseEvent e).enc = s.enc := by unfold State.raiseEvent; split <;> rfl
@[simp] theorem raiseEvent_frz (s : State) (e : PldmEvent) : (s.raiseEvent e).frz = s.frz := by unfold State.raiseEvent; split <;> rfl
@[simp] theorem raiseEvent_opt (s : State) (e : PldmEvent) : (s.raiseEvent e).opt = s.opt := by unfold State.raiseEvent; split <;> rfl
@[simp] theorem raiseEvent_links (s : State) (e : PldmEvent) : (s.raiseEvent e).links = s.links := by unfold State.raiseEvent; split <;> rfl

@[simp] theorem raiseEvent_word (s : State) (e : PldmEvent) (z : Nat) : (s.raiseEvent e).word z = s.word z := by unfold State.word; rw [raiseEvent_regs]
@[simp] theorem raiseEvent_getF (s : State) (e : PldmEvent) (g : Fld) (c1 c2 : Nat) : (s.raiseEvent e).getF g c1 c2 = s.getF g c1 c2 := getF_congr _ _ _ _ _ (raiseEvent_regs ..)
@[simp] theorem raiseEvent_get (s : State) (e : PldmEvent) (g : Fld) : (s.raiseEvent e).get g = s.get g := get_congr _ _ _ (raiseEvent_regs ..)
@[simp] theorem raiseEvent_setSt (s : State) (e : PldmEvent) (z : Nat) : (s.raiseEvent e).setSt z = s.setSt z := by unfold State.setSt; rw [raiseEvent_sets]
@[simp] theorem raiseEvent_slot (s : State) (e : PldmEvent) (z : Nat) : (s.raiseEvent e).slot z = s.slot z := by unfold State.slot; rw [raiseEvent_ctx]

/-! ### State.post -/

@[simp] theorem post_pending (s : State) (n : Nat) (o : Out) : (s.post n o).pending = s.pending := rfl
@[simp] theorem post_regs (s : State) (n : Nat) (o : Out) : (s.post n o).regs = s.regs := rfl
@[simp] theorem post_callerCycles (s : State) (n : Nat) (o : Out) : (s.post n o).callerCycles = s.callerCycles := rfl
@[simp] theorem post_free (s : State) (n : Nat) (o : Out) : (s.post n o).free = s.free := rfl
@[simp] theorem post_epoch (s : State) (n : Nat) (o : Out) : (s.post n o).epoch = s.epoch := rfl
@[simp] theorem post_keys (s : State) (n : Nat) (o : Out) : (s.post n o).keys = s.keys := rfl
@[simp] theorem post_revoked (s : State) (n : Nat) (o : Out) : (s.post n o).revoked = s.revoked := rfl
@[simp] theorem post_testPriv (s : State) (n : Nat) (o : Out) : (s.post n o).testPriv = s.testPriv := rfl
@[simp] theorem post_paths (s : State) (n : Nat) (o : Out) : (s.post n o).paths = s.paths := rfl
@[simp] theorem post_boot (s : State) (n : Nat) (o : Out) : (s.post n o).boot = s.boot := rfl
@[simp] theorem post_units (s : State) (n : Nat) (o : Out) : (s.post n o).units = s.units := rfl
@[simp] theorem post_dcd (s : State) (n : Nat) (o : Out) : (s.post n o).dcd = s.dcd := rfl
@[simp] theorem post_archives (s : State) (n : Nat) (o : Out) : (s.post n o).archives = s.archives := rfl
@[simp] theorem post_saveNo (s : State) (n : Nat) (o : Out) : (s.post n o).saveNo = s.saveNo := rfl
@[simp] theorem post_hng (s : State) (n : Nat) (o : Out) : (s.post n o).hng = s.hng := rfl
@[simp] theorem post_pwr (s : State) (n : Nat) (o : Out) : (s.post n o).pwr = s.pwr := rfl
@[simp] theorem post_pins (s : State) (n : Nat) (o : Out) : (s.post n o).pins = s.pins := rfl
@[simp] theorem post_mgmt (s : State) (n : Nat) (o : Out) : (s.post n o).mgmt = s.mgmt := rfl
@[simp] theorem post_ctx (s : State) (n : Nat) (o : Out) : (s.post n o).ctx = s.ctx := rfl
@[simp] theorem post_mbx (s : State) (n : Nat) (o : Out) : (s.post n o).mbx = s.mbx := rfl
@[simp] theorem post_mem (s : State) (n : Nat) (o : Out) : (s.post n o).mem = s.mem := rfl
@[simp] theorem post_tierC (s : State) (n : Nat) (o : Out) : (s.post n o).tierC = s.tierC := rfl
@[simp] theorem post_fab (s : State) (n : Nat) (o : Out) : (s.post n o).fab = s.fab := rfl
@[simp] theorem post_sets (s : State) (n : Nat) (o : Out) : (s.post n o).sets = s.sets := rfl
@[simp] theorem post_groups (s : State) (n : Nat) (o : Out) : (s.post n o).groups = s.groups := rfl
@[simp] theorem post_enc (s : State) (n : Nat) (o : Out) : (s.post n o).enc = s.enc := rfl
@[simp] theorem post_frz (s : State) (n : Nat) (o : Out) : (s.post n o).frz = s.frz := rfl
@[simp] theorem post_opt (s : State) (n : Nat) (o : Out) : (s.post n o).opt = s.opt := rfl

@[simp] theorem post_word (s : State) (n : Nat) (o : Out) (z : Nat) : (s.post n o).word z = s.word z := by unfold State.word; rw [post_regs]
@[simp] theorem post_getF (s : State) (n : Nat) (o : Out) (g : Fld) (c1 c2 : Nat) : (s.post n o).getF g c1 c2 = s.getF g c1 c2 := getF_congr _ _ _ _ _ (post_regs ..)
@[simp] theorem post_get (s : State) (n : Nat) (o : Out) (g : Fld) : (s.post n o).get g = s.get g := get_congr _ _ _ (post_regs ..)
@[simp] theorem post_setSt (s : State) (n : Nat) (o : Out) (z : Nat) : (s.post n o).setSt z = s.setSt z := by unfold State.setSt; rw [post_sets]
@[simp] theorem post_slot (s : State) (n : Nat) (o : Out) (z : Nat) : (s.post n o).slot z = s.slot z := by unfold State.slot; rw [post_ctx]

/-! ### State.postMsg -/

@[simp] theorem postMsg_pending (s : State) (d v : Nat) (o : Out) : (s.postMsg d v o).pending = s.pending := rfl
@[simp] theorem postMsg_regs (s : State) (d v : Nat) (o : Out) : (s.postMsg d v o).regs = s.regs := rfl
@[simp] theorem postMsg_callerCycles (s : State) (d v : Nat) (o : Out) : (s.postMsg d v o).callerCycles = s.callerCycles := rfl
@[simp] theorem postMsg_free (s : State) (d v : Nat) (o : Out) : (s.postMsg d v o).free = s.free := rfl
@[simp] theorem postMsg_epoch (s : State) (d v : Nat) (o : Out) : (s.postMsg d v o).epoch = s.epoch := rfl
@[simp] theorem postMsg_keys (s : State) (d v : Nat) (o : Out) : (s.postMsg d v o).keys = s.keys := rfl
@[simp] theorem postMsg_revoked (s : State) (d v : Nat) (o : Out) : (s.postMsg d v o).revoked = s.revoked := rfl
@[simp] theorem postMsg_testPriv (s : State) (d v : Nat) (o : Out) : (s.postMsg d v o).testPriv = s.testPriv := rfl
@[simp] theorem postMsg_paths (s : State) (d v : Nat) (o : Out) : (s.postMsg d v o).paths = s.paths := rfl
@[simp] theorem postMsg_boot (s : State) (d v : Nat) (o : Out) : (s.postMsg d v o).boot = s.boot := rfl
@[simp] theorem postMsg_units (s : State) (d v : Nat) (o : Out) : (s.postMsg d v o).units = s.units := rfl
@[simp] theorem postMsg_dcd (s : State) (d v : Nat) (o : Out) : (s.postMsg d v o).dcd = s.dcd := rfl
@[simp] theorem postMsg_archives (s : State) (d v : Nat) (o : Out) : (s.postMsg d v o).archives = s.archives := rfl
@[simp] theorem postMsg_saveNo (s : State) (d v : Nat) (o : Out) : (s.postMsg d v o).saveNo = s.saveNo := rfl
@[simp] theorem postMsg_hng (s : State) (d v : Nat) (o : Out) : (s.postMsg d v o).hng = s.hng := rfl
@[simp] theorem postMsg_pwr (s : State) (d v : Nat) (o : Out) : (s.postMsg d v o).pwr = s.pwr := rfl
@[simp] theorem postMsg_pins (s : State) (d v : Nat) (o : Out) : (s.postMsg d v o).pins = s.pins := rfl
@[simp] theorem postMsg_mgmt (s : State) (d v : Nat) (o : Out) : (s.postMsg d v o).mgmt = s.mgmt := rfl
@[simp] theorem postMsg_ctx (s : State) (d v : Nat) (o : Out) : (s.postMsg d v o).ctx = s.ctx := rfl
@[simp] theorem postMsg_mbx (s : State) (d v : Nat) (o : Out) : (s.postMsg d v o).mbx = s.mbx := rfl
@[simp] theorem postMsg_mem (s : State) (d v : Nat) (o : Out) : (s.postMsg d v o).mem = s.mem := rfl
@[simp] theorem postMsg_tierC (s : State) (d v : Nat) (o : Out) : (s.postMsg d v o).tierC = s.tierC := rfl
@[simp] theorem postMsg_sets (s : State) (d v : Nat) (o : Out) : (s.postMsg d v o).sets = s.sets := rfl
@[simp] theorem postMsg_groups (s : State) (d v : Nat) (o : Out) : (s.postMsg d v o).groups = s.groups := rfl
@[simp] theorem postMsg_enc (s : State) (d v : Nat) (o : Out) : (s.postMsg d v o).enc = s.enc := rfl
@[simp] theorem postMsg_frz (s : State) (d v : Nat) (o : Out) : (s.postMsg d v o).frz = s.frz := rfl
@[simp] theorem postMsg_opt (s : State) (d v : Nat) (o : Out) : (s.postMsg d v o).opt = s.opt := rfl

@[simp] theorem postMsg_word (s : State) (d v : Nat) (o : Out) (z : Nat) : (s.postMsg d v o).word z = s.word z := by unfold State.word; rw [postMsg_regs]
@[simp] theorem postMsg_getF (s : State) (d v : Nat) (o : Out) (g : Fld) (c1 c2 : Nat) : (s.postMsg d v o).getF g c1 c2 = s.getF g c1 c2 := getF_congr _ _ _ _ _ (postMsg_regs ..)
@[simp] theorem postMsg_get (s : State) (d v : Nat) (o : Out) (g : Fld) : (s.postMsg d v o).get g = s.get g := get_congr _ _ _ (postMsg_regs ..)
@[simp] theorem postMsg_setSt (s : State) (d v : Nat) (o : Out) (z : Nat) : (s.postMsg d v o).setSt z = s.setSt z := by unfold State.setSt; rw [postMsg_sets]
@[simp] theorem postMsg_slot (s : State) (d v : Nat) (o : Out) (z : Nat) : (s.postMsg d v o).slot z = s.slot z := by unfold State.slot; rw [postMsg_ctx]

/-! ### State.setPhase -/

@[simp] theorem setPhase_pending (s : State) (p : Nat) : (s.setPhase p).pending = s.pending := by unfold State.setPhase; split <;> simp
@[simp] theorem setPhase_callerCycles (s : State) (p : Nat) : (s.setPhase p).callerCycles = s.callerCycles := by unfold State.setPhase; split <;> simp
@[simp] theorem setPhase_free (s : State) (p : Nat) : (s.setPhase p).free = s.free := by unfold State.setPhase; split <;> simp
@[simp] theorem setPhase_epoch (s : State) (p : Nat) : (s.setPhase p).epoch = s.epoch := by unfold State.setPhase; split <;> simp
@[simp] theorem setPhase_keys (s : State) (p : Nat) : (s.setPhase p).keys = s.keys := by unfold State.setPhase; split <;> simp
@[simp] theorem setPhase_revoked (s : State) (p : Nat) : (s.setPhase p).revoked = s.revoked := by unfold State.setPhase; split <;> simp
@[simp] theorem setPhase_testPriv (s : State) (p : Nat) : (s.setPhase p).testPriv = s.testPriv := by unfold State.setPhase; split <;> simp
@[simp] theorem setPhase_paths (s : State) (p : Nat) : (s.setPhase p).paths = s.paths := by unfold State.setPhase; split <;> simp
@[simp] theorem setPhase_boot (s : State) (p : Nat) : (s.setPhase p).boot = s.boot := by unfold State.setPhase; split <;> simp
@[simp] theorem setPhase_units (s : State) (p : Nat) : (s.setPhase p).units = s.units := by unfold State.setPhase; split <;> simp
@[simp] theorem setPhase_dcd (s : State) (p : Nat) : (s.setPhase p).dcd = s.dcd := by unfold State.setPhase; split <;> simp
@[simp] theorem setPhase_archives (s : State) (p : Nat) : (s.setPhase p).archives = s.archives := by unfold State.setPhase; split <;> simp
@[simp] theorem setPhase_saveNo (s : State) (p : Nat) : (s.setPhase p).saveNo = s.saveNo := by unfold State.setPhase; split <;> simp
@[simp] theorem setPhase_hng (s : State) (p : Nat) : (s.setPhase p).hng = s.hng := by unfold State.setPhase; split <;> simp
@[simp] theorem setPhase_pwr (s : State) (p : Nat) : (s.setPhase p).pwr = s.pwr := by unfold State.setPhase; split <;> simp
@[simp] theorem setPhase_pins (s : State) (p : Nat) : (s.setPhase p).pins = s.pins := by unfold State.setPhase; split <;> simp
@[simp] theorem setPhase_ctx (s : State) (p : Nat) : (s.setPhase p).ctx = s.ctx := by unfold State.setPhase; split <;> simp
@[simp] theorem setPhase_mbx (s : State) (p : Nat) : (s.setPhase p).mbx = s.mbx := by unfold State.setPhase; split <;> simp
@[simp] theorem setPhase_mem (s : State) (p : Nat) : (s.setPhase p).mem = s.mem := by unfold State.setPhase; split <;> simp
@[simp] theorem setPhase_tierC (s : State) (p : Nat) : (s.setPhase p).tierC = s.tierC := by unfold State.setPhase; split <;> simp
@[simp] theorem setPhase_fab (s : State) (p : Nat) : (s.setPhase p).fab = s.fab := by unfold State.setPhase; split <;> simp
@[simp] theorem setPhase_sets (s : State) (p : Nat) : (s.setPhase p).sets = s.sets := by unfold State.setPhase; split <;> simp
@[simp] theorem setPhase_groups (s : State) (p : Nat) : (s.setPhase p).groups = s.groups := by unfold State.setPhase; split <;> simp
@[simp] theorem setPhase_enc (s : State) (p : Nat) : (s.setPhase p).enc = s.enc := by unfold State.setPhase; split <;> simp
@[simp] theorem setPhase_frz (s : State) (p : Nat) : (s.setPhase p).frz = s.frz := by unfold State.setPhase; split <;> simp
@[simp] theorem setPhase_opt (s : State) (p : Nat) : (s.setPhase p).opt = s.opt := by unfold State.setPhase; split <;> simp
@[simp] theorem setPhase_links (s : State) (p : Nat) : (s.setPhase p).links = s.links := by unfold State.setPhase; split <;> simp

@[simp] theorem setPhase_setSt (s : State) (p : Nat) (z : Nat) : (s.setPhase p).setSt z = s.setSt z := by unfold State.setSt; rw [setPhase_sets]
@[simp] theorem setPhase_slot (s : State) (p : Nat) (z : Nat) : (s.setPhase p).slot z = s.slot z := by unfold State.slot; rw [setPhase_ctx]

/-! ### State.setPower -/

@[simp] theorem setPower_pending (s : State) (p : Nat) : (s.setPower p).pending = s.pending := by unfold State.setPower; split <;> simp
@[simp] theorem setPower_callerCycles (s : State) (p : Nat) : (s.setPower p).callerCycles = s.callerCycles := by unfold State.setPower; split <;> simp
@[simp] theorem setPower_free (s : State) (p : Nat) : (s.setPower p).free = s.free := by unfold State.setPower; split <;> simp
@[simp] theorem setPower_epoch (s : State) (p : Nat) : (s.setPower p).epoch = s.epoch := by unfold State.setPower; split <;> simp
@[simp] theorem setPower_keys (s : State) (p : Nat) : (s.setPower p).keys = s.keys := by unfold State.setPower; split <;> simp
@[simp] theorem setPower_revoked (s : State) (p : Nat) : (s.setPower p).revoked = s.revoked := by unfold State.setPower; split <;> simp
@[simp] theorem setPower_testPriv (s : State) (p : Nat) : (s.setPower p).testPriv = s.testPriv := by unfold State.setPower; split <;> simp
@[simp] theorem setPower_paths (s : State) (p : Nat) : (s.setPower p).paths = s.paths := by unfold State.setPower; split <;> simp
@[simp] theorem setPower_boot (s : State) (p : Nat) : (s.setPower p).boot = s.boot := by unfold State.setPower; split <;> simp
@[simp] theorem setPower_units (s : State) (p : Nat) : (s.setPower p).units = s.units := by unfold State.setPower; split <;> simp
@[simp] theorem setPower_dcd (s : State) (p : Nat) : (s.setPower p).dcd = s.dcd := by unfold State.setPower; split <;> simp
@[simp] theorem setPower_archives (s : State) (p : Nat) : (s.setPower p).archives = s.archives := by unfold State.setPower; split <;> simp
@[simp] theorem setPower_saveNo (s : State) (p : Nat) : (s.setPower p).saveNo = s.saveNo := by unfold State.setPower; split <;> simp
@[simp] theorem setPower_hng (s : State) (p : Nat) : (s.setPower p).hng = s.hng := by unfold State.setPower; split <;> simp
@[simp] theorem setPower_pwr (s : State) (p : Nat) : (s.setPower p).pwr = s.pwr := by unfold State.setPower; split <;> simp
@[simp] theorem setPower_pins (s : State) (p : Nat) : (s.setPower p).pins = s.pins := by unfold State.setPower; split <;> simp
@[simp] theorem setPower_ctx (s : State) (p : Nat) : (s.setPower p).ctx = s.ctx := by unfold State.setPower; split <;> simp
@[simp] theorem setPower_mbx (s : State) (p : Nat) : (s.setPower p).mbx = s.mbx := by unfold State.setPower; split <;> simp
@[simp] theorem setPower_mem (s : State) (p : Nat) : (s.setPower p).mem = s.mem := by unfold State.setPower; split <;> simp
@[simp] theorem setPower_tierC (s : State) (p : Nat) : (s.setPower p).tierC = s.tierC := by unfold State.setPower; split <;> simp
@[simp] theorem setPower_fab (s : State) (p : Nat) : (s.setPower p).fab = s.fab := by unfold State.setPower; split <;> simp
@[simp] theorem setPower_sets (s : State) (p : Nat) : (s.setPower p).sets = s.sets := by unfold State.setPower; split <;> simp
@[simp] theorem setPower_groups (s : State) (p : Nat) : (s.setPower p).groups = s.groups := by unfold State.setPower; split <;> simp
@[simp] theorem setPower_enc (s : State) (p : Nat) : (s.setPower p).enc = s.enc := by unfold State.setPower; split <;> simp
@[simp] theorem setPower_frz (s : State) (p : Nat) : (s.setPower p).frz = s.frz := by unfold State.setPower; split <;> simp
@[simp] theorem setPower_opt (s : State) (p : Nat) : (s.setPower p).opt = s.opt := by unfold State.setPower; split <;> simp
@[simp] theorem setPower_links (s : State) (p : Nat) : (s.setPower p).links = s.links := by unfold State.setPower; split <;> simp

@[simp] theorem setPower_setSt (s : State) (p : Nat) (z : Nat) : (s.setPower p).setSt z = s.setSt z := by unfold State.setSt; rw [setPower_sets]
@[simp] theorem setPower_slot (s : State) (p : Nat) (z : Nat) : (s.setPower p).slot z = s.slot z := by unfold State.slot; rw [setPower_ctx]

/-! ### State.notify -/

@[simp] theorem notify_pending (s : State) (k : NoticeKind) (a l i e t q : Nat) : (s.notify k a l i e t q).pending = s.pending := by unfold State.notify; dsimp only; split <;> simp [State.e2e]
@[simp] theorem notify_callerCycles (s : State) (k : NoticeKind) (a l i e t q : Nat) : (s.notify k a l i e t q).callerCycles = s.callerCycles := by unfold State.notify; dsimp only; split <;> simp [State.e2e]
@[simp] theorem notify_free (s : State) (k : NoticeKind) (a l i e t q : Nat) : (s.notify k a l i e t q).free = s.free := by unfold State.notify; dsimp only; split <;> simp [State.e2e]
@[simp] theorem notify_epoch (s : State) (k : NoticeKind) (a l i e t q : Nat) : (s.notify k a l i e t q).epoch = s.epoch := by unfold State.notify; dsimp only; split <;> simp [State.e2e]
@[simp] theorem notify_keys (s : State) (k : NoticeKind) (a l i e t q : Nat) : (s.notify k a l i e t q).keys = s.keys := by unfold State.notify; dsimp only; split <;> simp [State.e2e]
@[simp] theorem notify_revoked (s : State) (k : NoticeKind) (a l i e t q : Nat) : (s.notify k a l i e t q).revoked = s.revoked := by unfold State.notify; dsimp only; split <;> simp [State.e2e]
@[simp] theorem notify_testPriv (s : State) (k : NoticeKind) (a l i e t q : Nat) : (s.notify k a l i e t q).testPriv = s.testPriv := by unfold State.notify; dsimp only; split <;> simp [State.e2e]
@[simp] theorem notify_paths (s : State) (k : NoticeKind) (a l i e t q : Nat) : (s.notify k a l i e t q).paths = s.paths := by unfold State.notify; dsimp only; split <;> simp [State.e2e]
@[simp] theorem notify_boot (s : State) (k : NoticeKind) (a l i e t q : Nat) : (s.notify k a l i e t q).boot = s.boot := by unfold State.notify; dsimp only; split <;> simp [State.e2e]
@[simp] theorem notify_units (s : State) (k : NoticeKind) (a l i e t q : Nat) : (s.notify k a l i e t q).units = s.units := by unfold State.notify; dsimp only; split <;> simp [State.e2e]
@[simp] theorem notify_dcd (s : State) (k : NoticeKind) (a l i e t q : Nat) : (s.notify k a l i e t q).dcd = s.dcd := by unfold State.notify; dsimp only; split <;> simp [State.e2e]
@[simp] theorem notify_archives (s : State) (k : NoticeKind) (a l i e t q : Nat) : (s.notify k a l i e t q).archives = s.archives := by unfold State.notify; dsimp only; split <;> simp [State.e2e]
@[simp] theorem notify_saveNo (s : State) (k : NoticeKind) (a l i e t q : Nat) : (s.notify k a l i e t q).saveNo = s.saveNo := by unfold State.notify; dsimp only; split <;> simp [State.e2e]
@[simp] theorem notify_pwr (s : State) (k : NoticeKind) (a l i e t q : Nat) : (s.notify k a l i e t q).pwr = s.pwr := by unfold State.notify; dsimp only; split <;> simp [State.e2e]
@[simp] theorem notify_pins (s : State) (k : NoticeKind) (a l i e t q : Nat) : (s.notify k a l i e t q).pins = s.pins := by unfold State.notify; dsimp only; split <;> simp [State.e2e]
@[simp] theorem notify_ctx (s : State) (k : NoticeKind) (a l i e t q : Nat) : (s.notify k a l i e t q).ctx = s.ctx := by unfold State.notify; dsimp only; split <;> simp [State.e2e]
@[simp] theorem notify_mbx (s : State) (k : NoticeKind) (a l i e t q : Nat) : (s.notify k a l i e t q).mbx = s.mbx := by unfold State.notify; dsimp only; split <;> simp [State.e2e]
@[simp] theorem notify_mem (s : State) (k : NoticeKind) (a l i e t q : Nat) : (s.notify k a l i e t q).mem = s.mem := by unfold State.notify; dsimp only; split <;> simp [State.e2e]
@[simp] theorem notify_tierC (s : State) (k : NoticeKind) (a l i e t q : Nat) : (s.notify k a l i e t q).tierC = s.tierC := by unfold State.notify; dsimp only; split <;> simp [State.e2e]
@[simp] theorem notify_sets (s : State) (k : NoticeKind) (a l i e t q : Nat) : (s.notify k a l i e t q).sets = s.sets := by unfold State.notify; dsimp only; split <;> simp [State.e2e]
@[simp] theorem notify_groups (s : State) (k : NoticeKind) (a l i e t q : Nat) : (s.notify k a l i e t q).groups = s.groups := by unfold State.notify; dsimp only; split <;> simp [State.e2e]
@[simp] theorem notify_enc (s : State) (k : NoticeKind) (a l i e t q : Nat) : (s.notify k a l i e t q).enc = s.enc := by unfold State.notify; dsimp only; split <;> simp [State.e2e]
@[simp] theorem notify_frz (s : State) (k : NoticeKind) (a l i e t q : Nat) : (s.notify k a l i e t q).frz = s.frz := by unfold State.notify; dsimp only; split <;> simp [State.e2e]
@[simp] theorem notify_opt (s : State) (k : NoticeKind) (a l i e t q : Nat) : (s.notify k a l i e t q).opt = s.opt := by unfold State.notify; dsimp only; split <;> simp [State.e2e]

@[simp] theorem notify_setSt (s : State) (k : NoticeKind) (a l i e t q : Nat) (z : Nat) : (s.notify k a l i e t q).setSt z = s.setSt z := by unfold State.setSt; rw [notify_sets]
@[simp] theorem notify_slot (s : State) (k : NoticeKind) (a l i e t q : Nat) (z : Nat) : (s.notify k a l i e t q).slot z = s.slot z := by unfold State.slot; rw [notify_ctx]

/-! ### State.showJobs -/

@[simp] theorem showJobs_pending (s : State) : (s.showJobs).pending = s.pending := by unfold State.showJobs; split <;> simp only [set_pending]
@[simp] theorem showJobs_out (s : State) : (s.showJobs).out = s.out := by unfold State.showJobs; split <;> simp only [set_out]
@[simp] theorem showJobs_callerCycles (s : State) : (s.showJobs).callerCycles = s.callerCycles := by unfold State.showJobs; split <;> simp only [set_callerCycles]
@[simp] theorem showJobs_free (s : State) : (s.showJobs).free = s.free := by unfold State.showJobs; split <;> simp only [set_free]
@[simp] theorem showJobs_epoch (s : State) : (s.showJobs).epoch = s.epoch := by unfold State.showJobs; split <;> simp only [set_epoch]
@[simp] theorem showJobs_keys (s : State) : (s.showJobs).keys = s.keys := by unfold State.showJobs; split <;> simp only [set_keys]
@[simp] theorem showJobs_revoked (s : State) : (s.showJobs).revoked = s.revoked := by unfold State.showJobs; split <;> simp only [set_revoked]
@[simp] theorem showJobs_testPriv (s : State) : (s.showJobs).testPriv = s.testPriv := by unfold State.showJobs; split <;> simp only [set_testPriv]
@[simp] theorem showJobs_paths (s : State) : (s.showJobs).paths = s.paths := by unfold State.showJobs; split <;> simp only [set_paths]
@[simp] theorem showJobs_boot (s : State) : (s.showJobs).boot = s.boot := by unfold State.showJobs; split <;> simp only [set_boot]
@[simp] theorem showJobs_units (s : State) : (s.showJobs).units = s.units := by unfold State.showJobs; split <;> simp only [set_units]
@[simp] theorem showJobs_dcd (s : State) : (s.showJobs).dcd = s.dcd := by unfold State.showJobs; split <;> simp only [set_dcd]
@[simp] theorem showJobs_archives (s : State) : (s.showJobs).archives = s.archives := by unfold State.showJobs; split <;> simp only [set_archives]
@[simp] theorem showJobs_saveNo (s : State) : (s.showJobs).saveNo = s.saveNo := by unfold State.showJobs; split <;> simp only [set_saveNo]
@[simp] theorem showJobs_hng (s : State) : (s.showJobs).hng = s.hng := by unfold State.showJobs; split <;> simp only [set_hng]
@[simp] theorem showJobs_pwr (s : State) : (s.showJobs).pwr = s.pwr := by unfold State.showJobs; split <;> simp only [set_pwr]
@[simp] theorem showJobs_pins (s : State) : (s.showJobs).pins = s.pins := by unfold State.showJobs; split <;> simp only [set_pins]
@[simp] theorem showJobs_mgmt (s : State) : (s.showJobs).mgmt = s.mgmt := by unfold State.showJobs; split <;> simp only [set_mgmt]
@[simp] theorem showJobs_ctx (s : State) : (s.showJobs).ctx = s.ctx := by unfold State.showJobs; split <;> simp only [set_ctx]
@[simp] theorem showJobs_mbx (s : State) : (s.showJobs).mbx = s.mbx := by unfold State.showJobs; split <;> simp only [set_mbx]
@[simp] theorem showJobs_mem (s : State) : (s.showJobs).mem = s.mem := by unfold State.showJobs; split <;> simp only [set_mem]
@[simp] theorem showJobs_tierC (s : State) : (s.showJobs).tierC = s.tierC := by unfold State.showJobs; split <;> simp only [set_tierC]
@[simp] theorem showJobs_fab (s : State) : (s.showJobs).fab = s.fab := by unfold State.showJobs; split <;> simp only [set_fab]
@[simp] theorem showJobs_sets (s : State) : (s.showJobs).sets = s.sets := by unfold State.showJobs; split <;> simp only [set_sets]
@[simp] theorem showJobs_groups (s : State) : (s.showJobs).groups = s.groups := by unfold State.showJobs; split <;> simp only [set_groups]
@[simp] theorem showJobs_enc (s : State) : (s.showJobs).enc = s.enc := by unfold State.showJobs; split <;> simp only [set_enc]
@[simp] theorem showJobs_frz (s : State) : (s.showJobs).frz = s.frz := by unfold State.showJobs; split <;> simp only [set_frz]
@[simp] theorem showJobs_opt (s : State) : (s.showJobs).opt = s.opt := by unfold State.showJobs; split <;> simp only [set_opt]
@[simp] theorem showJobs_links (s : State) : (s.showJobs).links = s.links := by unfold State.showJobs; split <;> simp only [set_links]

@[simp] theorem showJobs_setSt (s : State) (z : Nat) : (s.showJobs).setSt z = s.setSt z := by unfold State.setSt; rw [showJobs_sets]
@[simp] theorem showJobs_slot (s : State) (z : Nat) : (s.showJobs).slot z = s.slot z := by unfold State.slot; rw [showJobs_ctx]

/-! ### Reads after the updates that change what they read -/

@[simp] theorem setSt_putSet (s : State) (n : Nat) (x : SetState) : (s.putSet n x).setSt n = x := get_put_same _ _ _ _

theorem setSt_putSet_ne (s : State) (n m : Nat) (x : SetState) (h : m ≠ n) : (s.putSet n x).setSt m = s.setSt m :=
  get_put_ne _ _ _ _ _ h

@[simp] theorem slot_putSlot (s : State) (i : Nat) (x : Slot) : (s.putSlot i x).slot i = x := get_put_same _ _ _ _

theorem slot_putSlot_ne (s : State) (i k : Nat) (x : Slot) (h : k ≠ i) : (s.putSlot i x).slot k = s.slot k :=
  get_put_ne _ _ _ _ _ h

end Sys2Proof.Laws
end

