-- ==== Sys2Proof/Laws/Memory.lean ====
section
/-! SUPPORT. What a read of a line does: the slice counts it and nothing else of memory changes; a line without errors on a unit
that is not lost answers DONE. -/

namespace Sys2Proof.Laws

open Sys2Proof.Machine

/-- The slice's counting changes no memory and no error. -/
@[simp] theorem sliceTouch_mem (s : State) (line : Nat) : (s.sliceTouch line).mem = s.mem := rfl

/-- A line without errors, of a unit that is not lost, reads with DONE, and memory stays as it was. -/
theorem readLine_clean (s : State) (tier cls line : Nat) (hu : s.unitLost tier (s.unitOf tier (64 * line)) = false)
    (hh : s.mem.held.get false line = false) (hs : s.mem.errS.get 0 line = 0) (he : s.lineErr tier line = 0) :
    (s.readLine tier cls line).1 = .done ∧ (s.readLine tier cls line).2.mem = s.mem := by
  have lineErr_eq : ∀ t : State, t.mem = s.mem → t.lineErr tier line = 0 := fun t ht => by
    simpa [State.lineErr, ht] using he
  by_cases ht : tier = 0
  · subst ht
    simp [State.readLine, hu, hh, hs, lineErr_eq (s.sliceTouch line) (sliceTouch_mem s line)]
  · simp [State.readLine, hu, ht, he]

/-- A read that lies in one clean line answers its bytes with DONE. -/
theorem memRead_clean (s : State) (tier cls o n : Nat) (hn : o + n ≤ s.tierSize tier) (l : Nat) (hl : linesOf o n = [l])
    (hu : s.unitLost tier (s.unitOf tier (64 * l)) = false) (hh : s.mem.held.get false l = false)
    (hs : s.mem.errS.get 0 l = 0) (he : s.lineErr tier l = 0) :
    (s.memRead tier cls o n).1 = .done ∧ (s.memRead tier cls o n).2.1 = (s.tier tier).read 0 o n := by
  have h := (readLine_clean s tier cls l hu hh hs he).1
  have hr : (s.readLines tier cls [l]).1 = .done := by
    unfold State.readLines
    simp only [State.readLines, Status.andThen, h, if_true]
  unfold State.memRead
  rw [if_neg (Nat.not_lt.mpr hn), hl]
  exact ⟨hr, if_pos hr⟩

/-- An aligned atomic ends as the read of its word does, and with DONE answers the word as it stood. -/
theorem memAmo_status (s : State) (cls func o opnd cmp : Nat) (ho : o % amoSize func = 0) :
    (s.memAmo cls func o opnd cmp).1 = (s.memRead 0 cls o (amoSize func)).1 := by
  unfold State.memAmo
  rw [if_neg (by simp [ho])]
  split
  rename_i st bs s1 hr
  rw [hr]
  by_cases h : st = .done
  · subst h; rw [if_neg (by simp)]
  · rw [if_pos h]

/-- Tier A serves an atomic that its guard lets through. -/
theorem serveAmo_guarded (s s1 : State) (src ctx cls func o opnd cmp : Nat)
    (h : s.guard src ctx 0 o (amoSize func) .atomic = (.done, s1)) :
    s.serveAmo src ctx 0 cls func o opnd cmp = s1.memAmo cls func o opnd cmp := by
  unfold State.serveAmo
  rw [if_neg (by simp), h]
  exact if_pos rfl

/-- A line of tier A that is not held bad and holds no error, on a unit that is not lost. -/
def clean (s : State) (line : Nat) : Prop :=
  s.unitOf 0 (64 * line) < 12 ∧ s.unitLost 0 (s.unitOf 0 (64 * line)) = false ∧ s.mem.held.get false line = false ∧
    s.mem.errS.get 0 line = 0 ∧ s.lineErr 0 line = 0

/-- What a state keeps of another over reads of clean lines: memory, the units in service, and every register outside the slices'
block. -/
def sameLines (s t : State) : Prop := t.mem = s.mem ∧ t.units = s.units ∧ ∀ a, a / 0x10000 ≠ 8 → t.word a = s.word a

/-- A field outside the slices' block reads as before. -/
theorem getF_same (s t : State) (h : sameLines s t) (f : Fld) (i j : Nat) (ha : f.addr i j / 0x10000 ≠ 8) :
    t.getF f i j = s.getF f i j := by
  unfold State.getF
  rw [h.2.2 _ ha]

theorem stackLost_same (s t : State) (h : sameLines s t) (k : Nat) (hk : k < 12) :
    t.getF MEM_STACK_LOST k 0 = s.getF MEM_STACK_LOST k 0 :=
  getF_same s t h _ _ _ (by simp only [Fld.addr, MEM_STACK_LOST]; omega)

theorem clean_of_same (s t : State) (h : sameLines s t) (l : Nat) (hc : clean s l) : clean t l := by
  have hr := stackLost_same s t h
  obtain ⟨hm, hu, -⟩ := h
  have hs : t.stacksOk = s.stacksOk := by unfold State.stacksOk; rw [hu]
  have ho : t.unitOf 0 (64 * l) = s.unitOf 0 (64 * l) := by simp only [State.unitOf, State.unitsIn, hs, if_true]
  obtain ⟨h1, h2, h3, h4, h5⟩ := hc
  refine ⟨ho ▸ h1, ?_, hm ▸ h3, hm ▸ h4, ?_⟩
  · rw [ho]; simp only [State.unitLost] at h2 ⊢; simpa [hr _ h1] using h2
  · simp only [State.lineErr, hm] at h5 ⊢; exact h5

theorem sameLines_trans (s t u : State) (h : sameLines s t) (g : sameLines t u) : sameLines s u :=
  ⟨g.1.trans h.1, g.2.1.trans h.2.1, fun a ha => (g.2.2 a ha).trans (h.2.2 a ha)⟩

theorem tierSize_same (s t : State) (h : sameLines s t) : t.tierSize 0 = s.tierSize 0 := by
  have hu : t.unitsIn 0 = s.unitsIn 0 := by
    simp only [State.unitsIn, State.stacksOk, h.2.1, if_true]
  unfold State.tierSize
  rw [hu]

/-- The slice's counting keeps every line as it is. -/
theorem sliceTouch_same (s : State) (line : Nat) (hu : s.unitOf 0 (64 * line) < 12) : sameLines s (s.sliceTouch line) := by
  refine ⟨rfl, rfl, fun a ha => ?_⟩
  have ne : ∀ (t : State) (f : Fld) (v : Nat), f ∈ [MSC_HITS_LO, MSC_HITS_HI, MSC_MISSES_LO, MSC_MISSES_HI, MSC_DIRTY_LINES] →
      (t.setF f (s.unitOf 0 (64 * line)) 0 v).word a = t.word a := by
    intro t f v hf
    unfold State.setF
    refine word_putWord_ne _ _ _ _ fun h => ha ?_
    rw [h]
    simp only [List.mem_cons, List.not_mem_nil, or_false] at hf
    rcases hf with rfl | rfl | rfl | rfl | rfl <;>
      simp only [Fld.addr, MSC_HITS_LO, MSC_HITS_HI, MSC_MISSES_LO, MSC_MISSES_HI, MSC_DIRTY_LINES] <;> omega
  simp [State.sliceTouch, State.takeFree, State.wrap64, State.set64, ne]
  rfl

/-- The bytes of one line lie in that line. -/
theorem linesOf_line (o : Nat) (ha : o % 64 = 0) : linesOf o 64 = [o / 64] := by
  have h : (o + 64 - 1) / 64 - o / 64 + 1 = 1 := by omega
  unfold linesOf
  rw [if_neg (by decide), h]
  simp

/-- A read of one clean line of tier A answers DONE and keeps every line as it is. -/
theorem memRead_line (s : State) (cls o : Nat) (ha : o % 64 = 0) (hn : o + 64 ≤ s.tierSize 0) (hc : clean s (o / 64)) :
    (s.memRead 0 cls o 64).1 = .done ∧ sameLines s (s.memRead 0 cls o 64).2.2 := by
  have hl := linesOf_line o ha
  have hread : s.readLine 0 cls (o / 64) = (.done, s.sliceTouch (o / 64)) := by
    obtain ⟨-, h2, h3, h4, h5⟩ := hc
    have h6 : (s.sliceTouch (o / 64)).lineErr 0 (o / 64) = 0 := by
      simpa only [State.lineErr, sliceTouch_mem] using h5
    simp [State.readLine, h2, h3, h4, h6]
  refine ⟨(memRead_clean s 0 cls o 64 hn _ hl hc.2.1 hc.2.2.1 hc.2.2.2.1 hc.2.2.2.2).1, ?_⟩
  have hm : (s.memRead 0 cls o 64).2.2 = (s.readLines 0 cls [o / 64]).2 := by
    unfold State.memRead
    rw [if_neg (Nat.not_lt.mpr hn), hl]
  have hr : (s.readLines 0 cls [o / 64]).2 = s.sliceTouch (o / 64) := by
    simp only [State.readLines, hread]
  rw [hm, hr]
  exact sliceTouch_same s _ hc.1

/-- A block of clean lines reads with DONE. -/
theorem readChunks_clean (s : State) (offs : List Nat) (h : ∀ o ∈ offs, o % 64 = 0 ∧ o + 64 ≤ s.tierSize 0 ∧ clean s (o / 64)) :
    (s.readChunks offs).1 = .done := by
  induction offs generalizing s with
  | nil => rfl
  | cons o os ih =>
    obtain ⟨h1, h2, h3⟩ := h o (by simp)
    obtain ⟨r1, r2⟩ := memRead_line s 2 o h1 h2 h3
    rcases hh : s.memRead 0 2 o 64 with ⟨st, b, s1⟩
    rw [hh] at r1 r2
    cases r1
    have i := ih s1 fun x hx => by
      obtain ⟨g1, g2, g3⟩ := h x (by simp [hx])
      exact ⟨g1, by rw [tierSize_same s s1 r2]; exact g2, clean_of_same s s1 r2 _ g3⟩
    unfold State.readChunks
    rw [hh]
    rcases hi : s1.readChunks os with ⟨st2, b2, s2⟩
    rw [hi] at i
    cases i
    simp [hi, Status.andThen]

/-- A row addition on clean lines of tier A answers DONE, or OVERRANGE where an addend has no representation. -/
theorem addRow_clean (s : State) (w : Window) (offs : List Nat) (adds : List (Option Int)) (g : Option Nat) (cu : Nat)
    (h : ∀ o ∈ offs, o % 64 = 0 ∧ o + 64 ≤ s.tierSize 0 ∧ clean s (o / 64)) :
    (s.addRow w offs adds g cu).1 = .done ∨ (s.addRow w offs adds g cu).1 = .overrange := by
  have hk := readChunks_clean s offs h
  have pick : ∀ (c : Prop) [Decidable c] (a b : Status × State), ¬ c → (b.1 = .done ∨ b.1 = .overrange) →
      (if c then a else b).1 = .done ∨ (if c then a else b).1 = .overrange := by
    intro c _ a b hc hb
    rw [if_neg hc]
    exact hb
  unfold State.addRow
  extract_lets n x lead old new s1 ovr s2 s3 s4
  refine pick _ _ _ (fun h => h hk) ?_
  cases ovr <;> simp

/-- Bytes of clean lines of tier A are read with DONE, and every line stays as it is. -/
theorem memRead_lines (s : State) (cls o n : Nat) (hn : o + n ≤ s.tierSize 0) (hc : ∀ l ∈ linesOf o n, clean s l) :
    ∃ t, s.memRead 0 cls o n = (.done, (s.tier 0).read 0 o n, t) ∧ sameLines s t := by
  have key : ∀ (ls : List Nat) (t : State), (∀ l ∈ ls, clean t l) → ∃ u, t.readLines 0 cls ls = (.done, u) ∧ sameLines t u := by
    intro ls
    induction ls with
    | nil => exact fun t _ => ⟨t, rfl, rfl, rfl, fun _ _ => rfl⟩
    | cons l ls ih =>
      intro t h
      have h1 := h l (by simp)
      obtain ⟨-, h2, h3, h4, h5⟩ := h1
      have h6 : (t.sliceTouch l).lineErr 0 l = 0 := by simpa only [State.lineErr, sliceTouch_mem] using h5
      have hr : t.readLine 0 cls l = (.done, t.sliceTouch l) := by simp [State.readLine, h2, h3, h4, h6]
      have hs := sliceTouch_same t l (h l (by simp)).1
      obtain ⟨u, hu, hs2⟩ := ih (t.sliceTouch l) fun x hx => clean_of_same _ _ hs _ (h x (by simp [hx]))
      refine ⟨u, ?_, sameLines_trans _ _ _ hs hs2⟩
      simp only [State.readLines, hr, hu, Status.andThen, if_true]
  obtain ⟨t, ht, hs⟩ := key _ s hc
  refine ⟨t, ?_, hs⟩
  unfold State.memRead
  rw [if_neg (Nat.not_lt.mpr hn)]
  simp only [ht, if_true]

end Sys2Proof.Laws
end

