-- ==== Sys2Proof/Laws/Num.lean ====
section
/-! SUPPORT. Rounding into a format gives a pattern of that format's width. -/

namespace Sys2Proof.Laws

open Sys2Proof.Machine

/-- A rounded value is a pattern of the format. -/
theorem round_lt (f : Fmt) (x : FP) (h1 : f.maxFin < 2 ^ (f.eb + f.fb)) (h2 : f.nan < 2 ^ (f.eb + f.fb + 1))
    (h3 : (2 ^ f.eb - 1) * 2 ^ f.fb < 2 ^ (f.eb + f.fb)) : f.round x < 2 ^ (f.eb + f.fb + 1) := by
  have hs (b : Bool) (n : Nat) (hn : n < 2 ^ (f.eb + f.fb)) : f.sign b + n < 2 ^ (f.eb + f.fb + 1) := by
    unfold Fmt.sign; rw [Nat.pow_succ]; split <;> omega
  have hi (b : Bool) : f.infty b < 2 ^ (f.eb + f.fb + 1) := by
    unfold Fmt.infty; split
    · exact hs _ _ h3
    · exact hs _ _ h1
  have hz (b : Bool) : f.sign b < 2 ^ (f.eb + f.fb + 1) := by have := hs b 0 (Nat.two_pow_pos _); omega
  cases x with
  | nan => exact h2
  | inf neg => exact hi neg
  | fin neg m e =>
    simp only [Fmt.round]
    split
    · exact hz neg
    · split
      · unfold Fmt.over; split
        · exact hs _ _ h1
        · exact hi neg
      · apply hs; omega

theorem round_fp32_lt (x : FP) : fmtFP32.round x < 2 ^ 32 := round_lt fmtFP32 x (by decide) (by decide) (by decide)
theorem round_bf16_lt (x : FP) : fmtBF16.round x < 2 ^ 16 := round_lt fmtBF16 x (by decide) (by decide) (by decide)
theorem round_fp16_lt (x : FP) : fmtFP16.round x < 2 ^ 16 := round_lt fmtFP16 x (by decide) (by decide) (by decide)

/-- A bound of 16 bits is one of the element width. -/
theorem wide_of_small (b : Bool) (v : Nat) (h : v < 2 ^ 16) : v < if b then 2 ^ 32 else 2 ^ 16 := by
  cases b
  · exact h
  · exact Nat.lt_trans h (by decide)

theorem round_typeFmt_lt (ty : Nat) (x : FP) : (typeFmt ty).round x < if isWide ty then 2 ^ 32 else 2 ^ 16 := by
  unfold typeFmt
  split
  · subst ty; exact round_fp32_lt x
  · split
    · exact wide_of_small _ _ (round_bf16_lt x)
    · exact wide_of_small _ _ (round_fp16_lt x)

theorem unsigned_lt (n : Nat) (i : Int) : unsigned n i < 2 ^ n := by
  unfold unsigned
  have hp : (0 : Int) < ((2 ^ n : Nat) : Int) := by exact_mod_cast Nat.two_pow_pos n
  have h1 := Int.emod_lt_of_pos i hp
  have h2 := Int.emod_nonneg i (Int.ne_of_gt hp)
  omega

/-- A converted element fits the register view it is written in. -/
theorem vcvtOp_lt (ty d : Nat) (x : FP) : vcvtOp d x < if vcvtWide ty d then 2 ^ 32 else 2 ^ 16 := by
  have wide (v : Nat) (h : v < 2 ^ 32) (hd : d = 0 ∨ d = 3 ∨ d = 4) : v < if vcvtWide ty d then 2 ^ 32 else 2 ^ 16 := by
    have : vcvtWide ty d = true := by simp [vcvtWide, hd]
    rw [this]; exact h
  unfold vcvtOp
  split
  · exact wide _ (round_fp32_lt x) (Or.inl rfl)
  · exact wide_of_small _ _ (round_bf16_lt x)
  · exact wide_of_small _ _ (round_fp16_lt x)
  · exact wide _ (unsigned_lt 32 _) (Or.inr (Or.inl rfl))
  · exact wide _ (unsigned_lt 32 _) (Or.inr (Or.inr rfl))
  · exact wide_of_small _ _ (unsigned_lt 16 _)
  · exact wide_of_small _ _ (Nat.lt_trans (round_lt fmtE4M3 x (by decide) (by decide) (by decide)) (by decide))
  · exact wide_of_small _ _ (Nat.lt_trans (round_lt fmtE5M2 x (by decide) (by decide) (by decide)) (by decide))

end Sys2Proof.Laws
end

