-- ==== Sys2Proof/Laws/Vector.lean ====
section
/-! SUPPORT. The laws of the vector registers: the elements of a register as a list, and what each element reads as after a
register is written. -/

namespace Sys2Proof.Laws

open Sys2Proof.Machine

theorem flatMap_halves_length (l : List Nat) : (l.flatMap fun w => [w % 65536, w / 65536]).length = 2 * l.length := by
  induction l with
  | nil => rfl
  | cons a l ih => simp only [List.flatMap_cons, List.length_append, ih, List.length_cons, List.length_nil]; omega

theorem flatMap_halves_getElem? (l : List Nat) (i : Nat) :
    (l.flatMap fun w => [w % 65536, w / 65536])[i]? = (l[i / 2]?).map fun w => w / 2 ^ (16 * (i % 2)) % (if i % 2 = 0 then 65536 else 2 ^ 64 * w + 1) := by
  induction l generalizing i with
  | nil => simp
  | cons a l ih =>
    match i with
    | 0 => simp
    | 1 =>
      have h : a / 2 ^ (16 * (1 % 2)) % (if 1 % 2 = 0 then 65536 else 2 ^ 64 * a + 1) = a / 65536 := by
        rw [if_neg (by decide)]
        show a / 65536 % (2 ^ 64 * a + 1) = a / 65536
        exact Nat.mod_eq_of_lt (by omega)
      show some (a / 65536) = some (a / 2 ^ (16 * (1 % 2)) % (if 1 % 2 = 0 then 65536 else 2 ^ 64 * a + 1))
      rw [h]
    | i + 2 =>
      have h1 : (i + 2) / 2 = i / 2 + 1 := by omega
      have h2 : (i + 2) % 2 = i % 2 := by omega
      simp only [List.flatMap_cons, h1, h2, List.getElem?_cons_succ]
      exact ih i

theorem elems_length (x : SetState) (r : Nat) (wide : Bool) : (x.elems r wide).length = if wide then 64 else 128 := by
  unfold SetState.elems
  cases wide
  · simp only [Bool.false_eq_true, if_false, flatMap_halves_length, List.length_map, List.length_range]
  · simp

theorem lane_lt (x : SetState) (r i : Nat) : (x.lane r i).toNat < 2 ^ 32 := BitVec.isLt _

/-- The list of elements holds element `i` at place `i`. -/
theorem elems_getElem? (x : SetState) (r : Nat) (wide : Bool) (i : Nat) (h : i < if wide then 64 else 128) :
    (x.elems r wide)[i]? = some (x.elemAt r wide i) := by
  unfold SetState.elems SetState.elemAt
  cases wide
  · simp only [Bool.false_eq_true, if_false] at *
    rw [flatMap_halves_getElem?]
    have h2 : i / 2 < 64 := by omega
    simp only [List.getElem?_map, List.getElem?_range h2, Option.map_some, Option.some.injEq]
    have hl := lane_lt x r (i / 2)
    generalize (x.lane r (i / 2)).toNat = w at *
    rcases Nat.mod_two_eq_zero_or_one i with e | e <;> rw [e]
    · simp
    · simp only [Nat.one_ne_zero, if_false]
      have : w / 2 ^ 16 < 2 ^ 16 := by omega
      rw [show 16 * 1 = 16 from rfl, Nat.mod_eq_of_lt (by omega), Nat.mod_eq_of_lt this]
  · simp only [if_true] at *
    simp [List.getElem?_map, List.getElem?_range h]

theorem elemAt_lt (x : SetState) (r : Nat) (wide : Bool) (i : Nat) : x.elemAt r wide i < if wide then 2 ^ 32 else 2 ^ 16 := by
  unfold SetState.elemAt
  cases wide
  · exact Nat.mod_lt _ (by decide)
  · exact lane_lt ..

theorem packLanes_length (n : Nat) (es : List Nat) (h : es.length = 2 * n) : (packLanes es).length = n := by
  induction n generalizing es with
  | zero => simp at h; subst h; rfl
  | succ n ih =>
    match es, h with
    | a :: b :: es, h => simp only [packLanes, List.length_cons]; rw [ih es (by simp at h; omega)]

theorem packLanes_getElem? (es : List Nat) (k a b : Nat) (ha : es[2 * k]? = some a) (hb : es[2 * k + 1]? = some b) :
    (packLanes es)[k]? = some (a % 65536 + 65536 * (b % 65536)) := by
  induction k generalizing es with
  | zero =>
    match es, ha, hb with
    | a' :: b' :: es, ha, hb => simp at ha hb; subst ha; subst hb; simp [packLanes]
  | succ k ih =>
    match es, ha, hb with
    | a' :: b' :: es, ha, hb =>
      simp only [packLanes, List.getElem?_cons_succ]
      apply ih
      · rw [show 2 * (k + 1) = 2 * k + 1 + 1 by omega] at ha; simpa using ha
      · rw [show 2 * (k + 1) + 1 = 2 * k + 1 + 1 + 1 by omega] at hb; simpa using hb

/-- Writing a register changes only that register's lanes. -/
theorem lane_putElems_ne (x : SetState) (vd : Nat) (wide : Bool) (es : List Nat) (he : es.length = if wide then 64 else 128)
    (r i : Nat) (hr : r ≠ vd) (hi : i < 64) : (x.putElems vd wide es).lane r i = x.lane r i := by
  unfold SetState.putElems SetState.lane
  simp only
  rw [get_write_outside]
  have : ((if wide = true then es else packLanes es).map (BitVec.ofNat 32)).length = 64 := by
    cases wide
    · simp only [Bool.false_eq_true, if_false, List.length_map] at *
      exact packLanes_length 64 es he
    · simpa using he
  rw [this]; omega

/-- Element `i` of a register reads as what was written there. -/
theorem elemAt_putElems (x : SetState) (vd : Nat) (wide : Bool) (es : List Nat) (i v : Nat)
    (he : es.length = if wide then 64 else 128) (hi : es[i]? = some v) (hv : v < if wide then 2 ^ 32 else 2 ^ 16) :
    (x.putElems vd wide es).elemAt vd wide i = v := by
  have hlen : i < es.length := by
    rcases Nat.lt_or_ge i es.length with h | h
    · exact h
    · rw [List.getElem?_eq_none h] at hi; cases hi
  cases wide
  · simp only [Bool.false_eq_true, if_false] at *
    unfold SetState.putElems SetState.elemAt SetState.lane
    simp only [Bool.false_eq_true, if_false]
    have hl : ((packLanes es).map (BitVec.ofNat 32)).length = 64 := by
      rw [List.length_map]; exact packLanes_length 64 es he
    obtain ⟨a, ha⟩ : ∃ a, es[2 * (i / 2)]? = some a := ⟨_, List.getElem?_eq_getElem (by omega)⟩
    obtain ⟨b, hb⟩ : ∃ b, es[2 * (i / 2) + 1]? = some b := ⟨_, List.getElem?_eq_getElem (by omega)⟩
    have hp := packLanes_getElem? es (i / 2) a b ha hb
    rw [get_write, dif_pos (by omega)]
    have e1 : 64 * vd + i / 2 - 64 * vd = i / 2 := by omega
    have : ((packLanes es).map (BitVec.ofNat 32))[64 * vd + i / 2 - 64 * vd]? = some (BitVec.ofNat 32 (a % 65536 + 65536 * (b % 65536))) := by
      rw [e1, List.getElem?_map, hp]; rfl
    rw [List.getElem?_eq_getElem (by omega)] at this
    rw [Option.some.inj this]
    simp only [BitVec.toNat_ofNat]
    rcases Nat.mod_two_eq_zero_or_one i with e | e <;> rw [e]
    · have : 2 * (i / 2) = i := by omega
      rw [this, hi] at ha; cases ha; omega
    · have : 2 * (i / 2) + 1 = i := by omega
      rw [this, hi] at hb; cases hb; omega
  · simp only [if_true] at *
    unfold SetState.putElems SetState.elemAt SetState.lane
    simp only [if_true]
    rw [get_write, dif_pos (by rw [List.length_map]; omega)]
    have e1 : 64 * vd + i - 64 * vd = i := by omega
    have : (es.map (BitVec.ofNat 32))[64 * vd + i - 64 * vd]? = some (BitVec.ofNat 32 v) := by
      rw [e1, List.getElem?_map, hi]; rfl
    rw [List.getElem?_eq_getElem (by rw [List.length_map]; omega)] at this
    rw [Option.some.inj this]
    simp only [BitVec.toNat_ofNat]; omega

theorem actives_length (x : SetState) (pm : PredMode) (wide : Bool) :
    (x.actives pm wide).length = if wide then 64 else 128 := by
  unfold SetState.actives
  split <;> simp

theorem actives_getElem? (x : SetState) (pm : PredMode) (wide : Bool) (i : Nat) (h : i < if wide then 64 else 128) :
    (x.actives pm wide)[i]? = some (x.activeAt pm wide i) := by
  unfold SetState.actives SetState.activeAt
  split
  · simp [h]
  · simp only [List.getElem?_map, List.getElem?_range h, Option.map_some]
    rfl

theorem merge_length (act : List Bool) (pz : Bool) (old new : List Nat) (n : Nat) (h1 : act.length = n) (h2 : old.length = n)
    (h3 : new.length = n) : (merge act pz old new).length = n := by
  unfold merge
  simp [List.length_zipWith, List.length_zip, h1, h2, h3]

theorem merge_getElem? (act : List Bool) (pz : Bool) (old new : List Nat) (i : Nat) (a : Bool) (o v : Nat)
    (h1 : act[i]? = some a) (h2 : old[i]? = some o) (h3 : new[i]? = some v) :
    (merge act pz old new)[i]? = some (if a then v else if pz then 0 else o) := by
  unfold merge
  have hz : (old.zip new)[i]? = some (o, v) := by
    unfold List.zip; rw [List.getElem?_zipWith, h2, h3]
  rw [List.getElem?_zipWith, h1, hz]

/-- The elements of a register after a result is written under predication. -/
theorem put_result (x : SetState) (vd : Nat) (pm : PredMode) (wide : Bool) (es : List Nat) (res : Nat → Nat)
    (hl : es.length = if wide then 64 else 128)
    (he : ∀ i, (i < if wide then 64 else 128) → es[i]? = some (res i))
    (hb : ∀ i, res i < if wide then 2 ^ 32 else 2 ^ 16) :
    (∀ r i, r ≠ vd → i < 64 → (x.put vd pm wide es).lane r i = x.lane r i) ∧
    ∀ i, (i < if wide then 64 else 128) → (x.put vd pm wide es).elemAt vd wide i =
      if x.activeAt pm wide i then res i else if zeroing pm then 0 else x.elemAt vd wide i := by
  unfold SetState.put
  have hm := merge_length (x.actives pm wide) (zeroing pm) (x.elems vd wide) es _ (actives_length x pm wide)
    (elems_length x vd wide) hl
  refine ⟨fun r i hr hi => lane_putElems_ne x vd wide _ hm r i hr hi, fun i hi => ?_⟩
  apply elemAt_putElems x vd wide _ i _ hm
    (merge_getElem? _ _ _ _ i _ _ _ (actives_getElem? x pm wide i hi) (elems_getElem? x vd wide i hi) (he i hi))
  split
  · exact hb i
  · split
    · split <;> decide
    · exact elemAt_lt ..

end Sys2Proof.Laws
end

