-- ==== Sys2Proof/Laws/Window.lean ====
section
/-! SUPPORT. What a read of an exponent entry on one clean line of tier A does: it answers the entry, and only the line's slice
counts it. -/

namespace Sys2Proof.Laws

open Sys2Proof.Machine

/-- Bytes of one clean line of tier A are read, and only the slice counts it. -/
theorem memRead_within (s : State) (cls o n l : Nat) (hl : linesOf o n = [l]) (hn : o + n ≤ s.tierSize 0) (hc : clean s l) :
    s.memRead 0 cls o n = (.done, (s.tier 0).read 0 o n, s.sliceTouch l) := by
  obtain ⟨-, h2, h3, h4, h5⟩ := hc
  have h6 : (s.sliceTouch l).lineErr 0 l = 0 := by simpa only [State.lineErr, sliceTouch_mem] using h5
  have hread : s.readLine 0 cls l = (.done, s.sliceTouch l) := by simp [State.readLine, h2, h3, h4, h6]
  unfold State.memRead
  rw [if_neg (Nat.not_lt.mpr hn), hl]
  simp only [State.readLines, hread, Status.andThen, if_true]

/-- Context memory that one span leads to one clean line of tier A is read there. -/
theorem ctxRead_line (s s1 : State) (die slot cls top fuel a n o left l : Nat) (h0 : n ≠ 0) (hn : n ≤ left)
    (hr : s.resolve die slot a .r = (.done, ⟨s1.self, 0, o⟩, left, s1))
    (hg : s1.guard s1.self (s1.ctxOf slot) 0 o n .load = (.done, s1)) (hl : linesOf o n = [l]) (ht : o + n ≤ s1.tierSize 0)
    (hc : clean s1 l) :
    s.ctxRead die slot cls top (fuel + 2) a n = (.done, (s1.tier 0).read 0 o n, s1.sliceTouch l) := by
  have hm : min n (max left 1) = n := by omega
  have hs : s1.serveRead s1.self (s1.ctxOf slot) 0 cls o n = (.done, (s1.tier 0).read 0 o n, s1.sliceTouch l) := by
    unfold State.serveRead
    rw [hg]
    exact memRead_within s1 cls o n l hl ht hc
  unfold State.ctxRead
  simp only [h0, if_false, hr, ne_eq, not_true_eq_false, Nat.not_lt_zero, or_self, hm, hs, Nat.sub_self]
  unfold State.ctxRead
  simp

/-- An exponent entry that lies on one clean line of tier A is read there. -/
theorem expEntry_line (s s1 : State) (slot i base count o left l : Nat) (e : ExpEntry)
    (hd : (s.slot slot).expDir.getD (s.getF CTX_S_ACTIVE_TABLE slot 0) (0, 0) = (base, count)) (hi : i < count) (hn : 32 ≤ left)
    (hr : s.resolve 0 slot (base + 32 * i) .r = (.done, ⟨s1.self, 0, o⟩, left, s1))
    (hg : s1.guard s1.self (s1.ctxOf slot) 0 o 32 .load = (.done, s1)) (hl : linesOf o 32 = [l]) (ht : o + 32 ≤ s1.tierSize 0)
    (hc : clean s1 l) (he : expEntryOf ((s1.tier 0).read 0 o 32) = some e) :
    s.expEntry slot i = (.done, some e, s1.sliceTouch l) := by
  unfold State.expEntry
  rw [hd]
  simp only [Nat.not_le.mpr hi, if_false]
  rw [ctxRead_line s s1 0 slot 2 0 1 (base + 32 * i) 32 o left l (by decide) hn hr hg hl ht hc]
  simp only [ne_eq, not_true_eq_false, if_false, he]

/-- Context memory that one span leads to clean lines of tier A is read there. -/
theorem ctxRead_lines (s s1 : State) (die slot cls top fuel a n o left : Nat) (h0 : n ≠ 0) (hn : n ≤ left)
    (hr : s.resolve die slot a .r = (.done, ⟨s1.self, 0, o⟩, left, s1))
    (hg : s1.guard s1.self (s1.ctxOf slot) 0 o n .load = (.done, s1)) (ht : o + n ≤ s1.tierSize 0)
    (hc : ∀ l ∈ linesOf o n, clean s1 l) :
    ∃ t, s.ctxRead die slot cls top (fuel + 2) a n = (.done, (s1.tier 0).read 0 o n, t) ∧ sameLines s1 t := by
  obtain ⟨t, hm1, hs1⟩ := memRead_lines s1 cls o n ht hc
  refine ⟨t, ?_, hs1⟩
  have hm : min n (max left 1) = n := by omega
  have hs : s1.serveRead s1.self (s1.ctxOf slot) 0 cls o n = (.done, (s1.tier 0).read 0 o n, t) := by
    unfold State.serveRead
    rw [hg]
    exact hm1
  unfold State.ctxRead
  simp only [h0, if_false, hr, ne_eq, not_true_eq_false, Nat.not_lt_zero, or_self, hm, hs, Nat.sub_self]
  unfold State.ctxRead
  simp

end Sys2Proof.Laws
end

