-- ==== Sys2Proof/WellFormed.lean ====
section
/-! DEFINITION. Which commands are well formed: the lengths that the rules give the lists a command carries, beyond what the
types of its operands already say. -/

namespace Sys2Proof

/-- A command is well formed. -/
def Instr.wf (i : Instr) : Bool :=
  match i with
  | .registerWrite .. => true
  | .pairLowRead .. => true
  | .pairHighRead .. => true
  | .pairLowWrite .. => true
  | .pairHighWrite .. => true
  | .pathEntryExpiry .. => true
  | .pgoodRise => true
  | .callerBoot => true
  | .imageRead .. => true
  | .verify => true
  | .parse => true
  | .clocks .. => true
  | .diePower .. => true
  | .memoryTrain .. => true
  | .scrub .. => true
  | .setTest results => results.all fun r => decide (r.rows.length = 4 ∧ r.retestOk.length = 4)
  | .opticsLock => true
  | .tables => true
  | .stageTimeout .. => true
  | .heldWarmReset => true
  | .holdOpen .. => true
  | .holdVerify .. => true
  | .holdVerifyDone => true
  | .holdProgram .. => true
  | .programDone .. => true
  | .holdClose .. => true
  | .holdRestart .. => true
  | .enterHold .. => true
  | .stageWindowWrite .. => true
  | .stagePageWrite .. => true
  | .stageLengthWrite .. => true
  | .tileStart .. => true
  | .cutIn .. => true
  | .shadowLoad .. => true
  | .passEnd .. => true
  | .rowDrain .. => true
  | .blockComplete .. => true
  | .tileComplete .. => true
  | .startRampEnd .. => true
  | .stopRampEnd .. => true
  | .arrayFault .. => true
  | .pauseEnd .. => true
  | .softPreempt .. => true
  | .preemptionPoint .. => true
  | .hardPreempt .. => true
  | .resume .. => true
  | .unassigned .. => true
  | .iAdd .. => true
  | .iSub .. => true
  | .iAnd .. => true
  | .iOr .. => true
  | .iXor .. => true
  | .iSll .. => true
  | .iSrl .. => true
  | .iSra .. => true
  | .iMul .. => true
  | .iMulhu .. => true
  | .iMulhs .. => true
  | .iDivu .. => true
  | .iRemu .. => true
  | .iMin .. => true
  | .iMax .. => true
  | .iMinu .. => true
  | .iMaxu .. => true
  | .iSlt .. => true
  | .iSltu .. => true
  | .iSeq .. => true
  | .iSel .. => true
  | .iAddi .. => true
  | .iAndi .. => true
  | .iOri .. => true
  | .iXori .. => true
  | .iSlli .. => true
  | .iSrli .. => true
  | .iSrai .. => true
  | .iMuli .. => true
  | .iMini .. => true
  | .iMaxi .. => true
  | .iSlti .. => true
  | .iSltui .. => true
  | .iSeqi .. => true
  | .iMovi .. => true
  | .iMovhi .. => true
  | .iLd8u .. => true
  | .iLd16u .. => true
  | .iLd32u .. => true
  | .iLd64 .. => true
  | .iLd8s .. => true
  | .iLd16s .. => true
  | .iLd32s .. => true
  | .iSt8 .. => true
  | .iSt16 .. => true
  | .iSt32 .. => true
  | .iSt64 .. => true
  | .iAadd64 .. => true
  | .iAadd32 .. => true
  | .iAand .. => true
  | .iAor .. => true
  | .iAxor .. => true
  | .iAmin .. => true
  | .iAmax .. => true
  | .iAminu .. => true
  | .iAmaxu .. => true
  | .iAswap .. => true
  | .iAcas .. => true
  | .iAfadd32 .. => true
  | .iBeq .. => true
  | .iBne .. => true
  | .iBlt .. => true
  | .iBge .. => true
  | .iBltu .. => true
  | .iBgeu .. => true
  | .iJal .. => true
  | .iJalr .. => true
  | .iRset .. => true
  | .iRcrew .. => true
  | .iRcidx .. => true
  | .iRcsize .. => true
  | .iRctx .. => true
  | .iRstep .. => true
  | .iRseed .. => true
  | .iRmod .. => true
  | .iRarr .. => true
  | .iRcyc .. => true
  | .vAdd .. => true
  | .vSub .. => true
  | .vMul .. => true
  | .vFma .. => true
  | .vFms .. => true
  | .vFnma .. => true
  | .vMin .. => true
  | .vMax .. => true
  | .vAbs .. => true
  | .vNeg .. => true
  | .vRcp .. => true
  | .vRsqrt .. => true
  | .vSqrt .. => true
  | .vDiv .. => true
  | .vMov .. => true
  | .vScale .. => true
  | .vIadd .. => true
  | .vIsub .. => true
  | .vImul .. => true
  | .vAnd .. => true
  | .vOr .. => true
  | .vXor .. => true
  | .vNot .. => true
  | .vShl .. => true
  | .vShr .. => true
  | .vSra .. => true
  | .vImin .. => true
  | .vImax .. => true
  | .vCeq .. => true
  | .vCne .. => true
  | .vClt .. => true
  | .vCle .. => true
  | .vCgt .. => true
  | .vCge .. => true
  | .vCun .. => true
  | .pAnd .. => true
  | .pOr .. => true
  | .pXor .. => true
  | .pAndn .. => true
  | .pNot .. => true
  | .pSet .. => true
  | .pClr .. => true
  | .vCvt .. => true
  | .vRedsum .. => true
  | .vRedmax .. => true
  | .vRedmin .. => true
  | .vPerm .. => true
  | .vBcastl .. => true
  | .vMovs .. => true
  | .vIns .. => true
  | .vIota .. => true
  | .vLd .. => true
  | .vSt .. => true
  | .vLds .. => true
  | .vSts .. => true
  | .vFn .. => true
  | .vDfn .. => true
  | .vTldf .. => true
  | .vTldd .. => true
  | .vRnd .. => true
  | .vTake .. => true
  | .vGive .. => true
  | .tpush .. => true
  | .fseq .. => true
  | .ppush .. => true
  | .rpush .. => true
  | .fpush .. => true
  | .cset .. => true
  | .cadd .. => true
  | .caddr .. => true
  | .cwait .. => true
  | .cread .. => true
  | .iNop .. => true
  | .iEnd .. => true
  | .iStep .. => true
  | .iBubble .. => true
  | .iBubbleEnd .. => true
  | .iMsend .. => true
  | .iMrecv .. => true
  | .iRing .. => true
  | .fusedSequenceStart .. => true
  | .producerComplete .. => true
  | .copy .. => true
  | .fill .. => true
  | .reduceWrite .. => true
  | .tcRead .. => true
  | .tcWrite .. => true
  | .promenadeBlock .. => true
  | .promenadeComplete .. => true
  | .watchdog .. => true
  | .windowAddition _ _ wa _ _ _ addends => decide (addends.length = if wa then 32 else 64)
  | .freeze .. => true
  | .drainComplete .. => true
  | .update .. => true
  | .updateBlock .. => true
  | .updateComplete .. => true
  | .channelGrant .. => true
  | .promotion .. => true
  | .reserve3WindowEnd .. => true
  | .correctedWriteback => true
  | .ceRecordThreshold .. => true
  | .patrolRead .. => true
  | .unitLost .. => true
  | .tierCWriteDone .. => true
  | .wearWarning => true
  | .tierCReadonly .. => true
  | .xlateFill .. => true
  | .load .. => true
  | .store .. => true
  | .amo .. => true
  | .readBlock _ _ _ _ _ _ length => decide (0 < length.toNat ∧ length.toNat ≤ 4096)
  | .writeBlock _ _ _ _ _ _ data => decide (0 < data.length ∧ data.length ≤ 4096)
  | .remoteFill _ _ _ _ _ _ _ length => decide (0 < length.toNat ∧ length.toNat ≤ 4096)
  | .windowAdd _ _ _ _ _ _ _ _ _ row => decide (0 < row.length ∧ row.length ≤ 4096)
  | .ctlLoad .. => true
  | .ctlStore .. => true
  | .response .. => true
  | .ack .. => true
  | .requestTimeout .. => true
  | .combWarmed .. => true
  | .combSettled _ measured => decide (measured.length = 1152)
  | .pilotCheck .. => true
  | .sweepStart .. => true
  | .sweepDone .. => true
  | .identify .. => true
  | .fineLock .. => true
  | .settle .. => true
  | .recalStart .. => true
  | .recalDone .. => true
  | .loopUpdate _ rings => decide ((rings.map fun r => r.slot).Nodup)
  | .matrixCommit .. => true
  | .targetLineWrite .. => true
  | .laneRetry .. => true
  | .eqCodeWrite .. => true
  | .lossOfLight .. => true
  | .lightReturn .. => true
  | .laneAligned .. => true
  | .helloSend .. => true
  | .hello _ payload => decide (payload.length ≤ 232)
  | .accept _ payload => decide (payload.length ≤ 232)
  | .reject _ payload => decide (payload.length ≤ 232)
  | .width _ payload => decide (payload.length ≤ 232)
  | .widthAck _ payload => decide (payload.length ≤ 232)
  | .retrainTimeout .. => true
  | .discoveryTimeout .. => true
  | .forwardedClockTimeout .. => true
  | .reform .. => true
  | .flitReceive _ bytes _ _ _ => decide (bytes.length = 256)
  | .flitTransmit .. => true
  | .reorderTimeout .. => true
  | .replayTimeout .. => true
  | .laneNarrow .. => true
  | .laneRejoin .. => true
  | .drawApply .. => true
  | .drawRevert .. => true
  | .applyDone => true
  | .applyTimeout => true
  | .routeEntryWrite .. => true
  | .groupCommit .. => true
  | .roundStart .. => true
  | .part _ msg => decide (48 ≤ msg.length)
  | .counts _ msg => decide (48 ≤ msg.length)
  | .grant _ msg => decide (48 ≤ msg.length)
  | .abort _ msg => decide (48 ≤ msg.length)
  | .lateCheck .. => true
  | .roundTimeout .. => true
  | .roundComplete .. => true
  | .ctxAdmit .. => true
  | .rebind .. => true
  | .release .. => true
  | .lend .. => true
  | .unlend .. => true
  | .rebindPreemptTimeout => true
  | .rebindDone .. => true
  | .setLent .. => true
  | .eviction .. => true
  | .parityPart _ _ _ _ _ bytes => decide (bytes.length = 4096)
  | .parityTimeout .. => true
  | .exportStart .. => true
  | .exportDone .. => true
  | .restore .. => true
  | .pieceRead .. => true
  | .restoreDone .. => true
  | .rebuild .. => true
  | .rebuildDone .. => true
  | .jrnEnableWrite .. => true
  | .journalFlush => true
  | .replayStart .. => true
  | .replayStop .. => true
  | .recordAccept => true
  | .clearThrough .. => true
  | .seekSeq .. => true
  | .seekDone .. => true
  | .archSelect .. => true
  | .archiveLoadDone => true
  | .captureDone .. => true
  | .drainTimeout => true
  | .contextReset .. => true
  | .engineReset .. => true
  | .partitionReset .. => true
  | .warmReset => true
  | .resetComplete => true
  | .resetTimeout => true
  | .isolateTurnEnd => true
  | .noticeResend .. => true
  | .noticeAck .. => true
  | .callerWatchdog => true
  | .retainedMemoryError .. => true
  | .windowWrite _ offset bytes => decide (0 < bytes.length ∧ offset.toNat + bytes.length ≤ 2 ^ 34)
  | .windowRead _ offset length => decide (0 < length.val ∧ offset.toNat + length.val ≤ 2 ^ 34)
  | .perstFall .. => true
  | .perstRise .. => true
  | .pcieLinkUp .. => true
  | .inWord .. => true
  | .heldWordTimeout .. => true
  | .msendTimeout .. => true
  | .outPop .. => true
  | .channelBindingWrite .. => true
  | .ringWrite .. => true
  | .ethLinkChange .. => true
  | .exportChannelValid .. => true
  | .inboundRdmaWrite .. => true
  | .rdmaAck .. => true
  | .rdmaTimeout .. => true
  | .vc0Datagram _ bytes => decide (16 ≤ bytes.length)
  | .standby .. => true
  | .run .. => true
  | .dormant .. => true
  | .transitionDone => true
  | .idleEntry => true
  | .idleExit => true
  | .wake => true
  | .tempSample .. => true
  | .throttleWindow .. => true
  | .throttleDecay .. => true
  | .powerSample .. => true
  | .alertRelease => true
  | .thermalTrip .. => true
  | .tripCooldown => true
  | .droop .. => true
  | .droopRelease .. => true
  | .clockLoss .. => true
  | .entdaa .. => true
  | .setdasa .. => true
  | .setEndpointId .. => true
  | .getEndpointId => true
  | .getMctpVersionSupport .. => true
  | .getMessageTypeSupport => true
  | .attestRequest nonce => decide (nonce.length = 64)
  | .reportCmd .. => true
  | .reportDone .. => true
  | .getTid => true
  | .setTid .. => true
  | .getPldmVersion .. => true
  | .getPldmTypes => true
  | .getPldmCommands .. => true
  | .getSensorReading .. => true
  | .getStateSensorReadings .. => true
  | .setStateEffecterStates .. => true
  | .getStateEffecterStates .. => true
  | .getPdrRepositoryInfo => true
  | .getPdr .. => true
  | .setEventReceiver .. => true
  | .pollForPlatformEvent => true
  | .eventAck .. => true
  | .eventResend .. => true
  | .queryDeviceIdentifiers => true
  | .getFirmwareParameters => true
  | .requestUpdate => true
  | .passComponentTable .. => true
  | .updateComponent .. => true
  | .requestFirmwareData _ data => decide (0 < data.length)
  | .transferComplete => true
  | .verifyComplete => true
  | .applyComplete => true
  | .activateFirmware => true
  | .cancelUpdate => true
  | .unsupportedPldm .. => true
  | .insertion .. => true
  | .withdrawal => true
  | .pwrEnRise .. => true
  | .pwrEnFall => true
  | .undervoltage => true
  | .powerUp => true
  | .parityGrant .. => true
  | .congestionNotificationPacket .. => true

end Sys2Proof
end

