-- ==== Sys2Proof/Tests/Slice0.lean ====
section
/-! SUPPORT. Tests of the model: the checks of well-formedness refuse what is ill formed; a small step for each family, with
results taken from the rules; and, for every statement with hypotheses, concrete states that meet them, clause by clause. -/

namespace Sys2Proof.Tests

set_option Elab.async false

open Sys2Proof.Machine

/-! ### Well-formedness: each check refuses an ill-formed command and takes a well-formed one -/

/-- Some bytes of zeros. -/
def zeroBytes (n : Nat) : List Byte := List.replicate n 0

theorem test_wf_set_test : (Instr.setTest [⟨0, false, [[], [], []], [true, true, true, true]⟩]).wf = false
    ∧ (Instr.setTest [⟨0, false, [[], [], [], []], [true, true, true, true]⟩]).wf = true := by decide

theorem test_wf_window_addition : (Instr.windowAddition 0 1 true 0 0 0 (List.replicate 31 0)).wf = false
    ∧ (Instr.windowAddition 0 1 true 0 0 0 (List.replicate 32 0)).wf = true
    ∧ (Instr.windowAddition 0 1 false 0 0 0 (List.replicate 32 0)).wf = false
    ∧ (Instr.windowAddition 0 1 false 0 0 0 (List.replicate 64 0)).wf = true := by decide

theorem test_wf_block_lengths : (Instr.readBlock 1 0 0 0 0 0 0).wf = false ∧ (Instr.readBlock 1 0 0 0 0 0 4097).wf = false
    ∧ (Instr.readBlock 1 0 0 0 0 0 4096).wf = true ∧ (Instr.remoteFill 1 0 0 0 0 0 0 0).wf = false
    ∧ (Instr.remoteFill 1 0 0 0 0 0 0 4097).wf = false ∧ (Instr.remoteFill 1 0 0 0 0 0 0 1).wf = true := by decide

theorem test_wf_block_data : (Instr.writeBlock 1 0 0 0 0 0 []).wf = false ∧ (Instr.writeBlock 1 0 0 0 0 0 (zeroBytes 4097)).wf = false
    ∧ (Instr.writeBlock 1 0 0 0 0 0 (zeroBytes 4096)).wf = true ∧ (Instr.windowAdd 1 0 0 0 0 0 false 0 0 []).wf = false
    ∧ (Instr.windowAdd 1 0 0 0 0 0 false 0 0 (zeroBytes 4097)).wf = false
    ∧ (Instr.windowAdd 1 0 0 0 0 0 false 0 0 (zeroBytes 256)).wf = true := by decide +kernel

theorem test_wf_combs : (Instr.combSettled 0 (List.replicate 1151 0)).wf = false
    ∧ (Instr.combSettled 0 (List.replicate 1152 0)).wf = true := by decide +kernel

theorem test_wf_rings (r : RingLoop) : (Instr.loopUpdate 0 [r, r]).wf = false ∧ (Instr.loopUpdate 0 [r]).wf = true := by
  have h : ∀ l, (Instr.loopUpdate 0 l).wf = decide ((l.map fun r => r.slot).Nodup) := fun _ => rfl
  rw [h, h]
  simp

theorem test_wf_link_messages : (∀ c ∈ [Instr.hello 0 (zeroBytes 233), .accept 0 (zeroBytes 233), .reject 0 (zeroBytes 233),
      .width 0 (zeroBytes 233), .widthAck 0 (zeroBytes 233), .flitReceive 0 (zeroBytes 255) 0 0 false], c.wf = false)
    ∧ ∀ c ∈ [Instr.hello 0 (zeroBytes 232), .accept 0 [], .reject 0 [], .width 0 [], .widthAck 0 [],
      .flitReceive 0 (zeroBytes 256) 0 0 false], c.wf = true := by decide +kernel

theorem test_wf_round_messages : (∀ c ∈ [Instr.part 1 (zeroBytes 47), .counts 1 (zeroBytes 47), .grant 1 (zeroBytes 47),
      .abort 1 (zeroBytes 47)], c.wf = false)
    ∧ ∀ c ∈ [Instr.part 1 (zeroBytes 48), .counts 1 (zeroBytes 48), .grant 1 (zeroBytes 48), .abort 1 (zeroBytes 48)], c.wf = true := by
  decide +kernel

theorem test_wf_ports : (∀ c ∈ [Instr.windowWrite 0 0 [], .windowWrite 0 0x3FFFFFFFF (zeroBytes 2), .windowRead 0 0 0,
      .windowRead 0 0x3FFFFFFFF 2, .vc0Datagram 0 (zeroBytes 15), .attestRequest (zeroBytes 63), .requestFirmwareData 0 []], c.wf = false)
    ∧ ∀ c ∈ [Instr.windowWrite 0 0x3FFFFFFFF (zeroBytes 1), .windowRead 0 0x3FFFFFFFF 1, .vc0Datagram 0 (zeroBytes 16),
      .attestRequest (zeroBytes 64), .requestFirmwareData 0 (zeroBytes 1)], c.wf = true := by decide +kernel

theorem test_wf_parity : (Instr.parityPart 1 0 0 0 0 (zeroBytes 4095)).wf = false
    ∧ (Instr.parityPart 1 0 0 0 0 (zeroBytes 4096)).wf = true := by decide +kernel

/-! ### States to test on -/

/-- A command answers a next state that passes a check. -/
def gives (c : Instr) (s : State) (check : State → Bool) : Bool :=
  match exec c s with
  | .next t => check t
  | _ => false

/-- A step answers a next state that passes a check. -/
def stepGives (s : State) (check : State → Bool) : Bool :=
  match step s with
  | .next t => check t
  | _ => false

/-- A span entry: two pages of tier A of this module from context address 0, with every right. -/
def spanA : List Byte := toBytes 8 0 ++ toBytes 4 2 ++ toBytes 1 15 ++ toBytes 3 0 ++ toBytes 8 0 ++ toBytes 8 0

/-- A span entry: one page of tier A of module 9 from context address 0x400000. -/
def spanAway : List Byte := toBytes 8 0x400000 ++ toBytes 4 1 ++ toBytes 1 7 ++ toBytes 3 0 ++ toBytes 8 (9 * 2 ^ 50) ++ toBytes 8 0

/-- A span entry: one page of tier B of this module from context address 0x600000. -/
def spanB : List Byte := toBytes 8 0x600000 ++ toBytes 4 1 ++ toBytes 1 7 ++ toBytes 3 0 ++ toBytes 8 (2 ^ 48) ++ toBytes 8 0

/-- A ready module in Run with its dies powered and its tier C mounted. -/
def ready : State := { (State.reset.set MOD_PHASE 1).set MEM_C_STATE 1 with pwr := { Pwr.init with diesOn := 15 } }

/-- A slot whose routine set 0 is served by set 0, with one lendable bubble, number 3. -/
def slotOne : Slot := { Slot.init with setMap := [(0, 0)], bitmap := 1, bubbles := [[3, 0, 1, 0, 0, 0, 0, 0]] }

/-- Context 5 bound in slot 1 on pages of tiers A and B, its spans in every die's cache, with set 0 in some state. -/
def bound (x : SetState) : State :=
  let s := (ready.setF CTX_S_CONTEXT 1 0 5).setF CTX_S_STATE 1 0 2
  { s with
    ctx := { s.ctx with slots := [(1, slotOne)], ownerA := [(0, 5), (1, 5)], ownerB := [(0, 5)] }
    fab := { s.fab with xlate := List.replicate 4 [(1, spanA), (1, spanAway), (1, spanB)] }
    sets := [(0, x)] }

/-- The same with the link of lane 0 up to module 9, every feature negotiated. -/
def linked (x : SetState) : State :=
  let s := ((bound x).setF LNK_L_LINK_STATE 0 0 4).setF LNK_L_PARTNER 0 0 9
  (s.setF LNK_L_NEG_FEATURES_LO 0 0 0xFFFFFFFF).setF LNK_L_NEG_FEATURES_HI 0 0 0xFFFFFFFF

/-- A set of that context that runs at address 0. -/
def runs : SetState := { SetState.init with slot := 1, routine := 0, run := .running, crewSize := 1, crewIndex := 0, crew := [0] }

/-- A check that a vector instruction outside a fused body runs now. -/
def vactsNow (s : State) (n : Nat) (uses : List Nat) (word : BitVec 64) : Bool :=
  (s.setSt n).fused.isNone && !s.throttled n && legalWord word && s.canIssue n
    && s.codeOk (dieOf n) (s.setSt n).slot (s.setSt n).pc.toNat && !s.blocked n uses

/-- What passes the check acts. -/
theorem vacts_of_now (s : State) (n : Nat) (uses : List Nat) (ws : List (BitVec 64))
    (h : (ws.all fun w => vactsNow s n uses w) = true) (w : BitVec 64) (hw : w ∈ ws) : s.vacts n uses w := by
  have h' := List.all_eq_true.mp h w hw
  simp only [vactsNow, Bool.and_eq_true, Bool.not_eq_true', Option.isNone_iff_eq_none] at h'
  obtain ⟨⟨⟨⟨⟨hf, ht⟩, hl⟩, hc⟩, hk⟩, hb⟩ := h'
  unfold State.vacts
  simp only [hf]
  exact ⟨ht, hl, hc, hk, hb⟩
/-! ### The queue, the registers and the access paths -/

theorem test_queue : stepGives { ready with pending := [.powerUp, .idleEntry] } fun t => decide (t = { ready with pending := [.idleEntry] }) := by
  decide +kernel

theorem meets_EmptyQueuePassesACallerCycle : State.reset.pending = [] ∧ State.reset.callerOn = true ∧ State.reset.dcd.queueM = []
    ∧ State.reset.dcd.queueC = [] ∧ State.reset.dcd.queueD = [] ∧ State.reset.dcd.dropPending = 0
    ∧ ({ State.reset with pwr := { Pwr.init with mode := .off } } : State).callerOn = false := by decide +kernel

theorem meets_StepKeepsTheCanonicalForm : ready.regsWf = true ∧ ready.memWf = true ∧ ∃ t, step ready = .next t := by
  exact ⟨by decide +kernel, by decide +kernel, _, rfl⟩

theorem meets_StepOnlyAddsRevocations : ready.fusesWf = true ∧ ∃ t, step ready = .next t := ⟨by decide +kernel, _, rfl⟩

theorem meets_CommandsLeaveTheQueue : (∃ t, exec .idleEntry ready = .next t)
    ∧ ∃ t, step { ready with pending := [.idleEntry, .powerUp] } = .next t := ⟨⟨_, rfl⟩, _, rfl⟩

theorem meets_RegisterWritesFollowTheAccessCodes :
    (ready.reached .caller 0x01000C ∧ commandWord 0x01000C = false ∧ pairLow 0x01000C = false ∧ pairHigh 0x01000C = false)
    ∧ (ready.reached .caller 0x0F0004 ∧ ready.get MIS_PERMIT = 0) ∧ ((ready.set MIS_PERMIT 1).reached .caller 0x0F0004
      ∧ MIS_I_BYTE.at 0x0F0004 = false ∧ (ready.set MIS_PERMIT 1).get MIS_PERMIT = 1)
    ∧ (State.reset.pathUp .caller = true ∧ State.reset.pathOk .caller = true ∧ State.reset.reaches .caller 0x070000 = false
      ∧ startWrite .caller 0x070000 0 = none)
    ∧ ({ State.reset with pwr := { Pwr.init with mode := .off } } : State).pathUp .caller = false := by
  unfold State.reached; decide +kernel

theorem test_write_limit : gives (.registerWrite .caller 0x010010 5000) ready fun t => decide (t.get PWR_POWER_LIMIT_W = 3200) := by
  decide +kernel

theorem meets_PairsOfWordsActAsOneValue : ready.reached .caller 0x090064 ∧ pairLow 0x090064 = true ∧ commandWord 0x090064 = false
    ∧ ready.reached .caller 0x090068 ∧ pairHigh 0x090068 = true ∧ pairLow 0x090068 = false ∧ commandWord 0x090068 = false := by
  unfold State.reached; decide +kernel

theorem meets_UnassignedAddressesReadZero : unassigned 0x010FF0 = true ∧ ready.reached .caller 0x010FF0 ∧ unassigned 0x010001 = true
    ∧ ready.get HNG_MODULE_FENCED = 0 := by
  unfold State.reached; decide +kernel

theorem meets_IdlePathEntriesAreFreed : ready.boot.owner ≠ some (.fabric 7)
    ∧ ({ ready with boot := { ready.boot with owner := some (.fabric 7) } } : State).boot.owner = some (.fabric 7) := by decide +kernel

/-! ### Scalar instructions -/

theorem meets_ScalarRegisterOperations : (bound runs).issues 0 [0, 31, 1] ∧ (bound runs).issues 0 [1, 2, 3, 4] := by
  unfold State.issues; decide +kernel

theorem meets_ScalarImmediateOperations : (bound runs).issues 0 [0, 31] ∧ (63#32).toNat < 64 ∧ 64 ≤ (64#32).toNat
    ∧ (bound runs).issues 0 [] ∧ (bound runs).issues 0 [31] := by
  unfold State.issues; decide +kernel

theorem meets_StatusReads : (bound runs).issues 0 [31] := by unfold State.issues; decide +kernel

theorem meets_BranchesAndJumps : (bound runs).issues 0 [1, 2] ∧ (bound runs).issues 0 [0]
    ∧ ((runs.reg 1 + (8#32).signExtend 64).toNat % 8 = 0) ∧ (runs.reg 1 + (7#32).signExtend 64).toNat % 8 ≠ 0 := by
  unfold State.issues; decide +kernel

/-- Set 0 with 7 in s1 and the lowest 64-bit number in s2. -/
def twoRegs : SetState := { runs with regs := [(1, 7#64), (2, 0x8000000000000000#64)] }

theorem test_add_wraps : gives (.iAdd 0 2 2 2) (bound twoRegs) fun t => decide ((t.setSt 0).reg 2 = 0 ∧ (t.setSt 0).pc = 8) := by
  decide +kernel

theorem test_sra_sign : gives (.iSra 0 3 2 1) (bound twoRegs) fun t => decide ((t.setSt 0).reg 3 = 0xFF00000000000000#64) := by
  decide +kernel

theorem test_divu_by_zero : gives (.iDivu 0 3 1 0) (bound twoRegs) fun t => decide ((t.setSt 0).reg 3 = 0xFFFFFFFFFFFFFFFF#64) := by
  decide +kernel

theorem test_s0_discards : gives (.iAdd 0 0 1 1) (bound twoRegs) fun t => decide ((t.setSt 0).reg 0 = 0 ∧ (t.setSt 0).pc = 8) := by
  decide +kernel

theorem test_blt_signed : gives (.iBlt 0 2 1 0xFFFFFFFF) (bound { twoRegs with pc := 0x100#64 })
    fun t => decide ((t.setSt 0).pc = 0xF8#64) := by decide +kernel

theorem test_movhi : gives (.iMovhi 0 1 0xABCD) (bound twoRegs) fun t => decide ((t.setSt 0).reg 1 = 0xABCD000000000007#64) := by
  decide +kernel

theorem test_sread_set : gives (.iRctx 0 4) (bound runs) fun t => decide ((t.setSt 0).reg 4 = 5#64) := by decide +kernel

/-! ### Memory instructions -/

/-- Set 0 with a set memory address in s1, one of tier B in s2, one of another module in s3 and one of tier A in s6. -/
def fourAddrs : SetState := { runs with
  regs := [(1, 0x4000000000000000#64), (2, 0x600000#64), (3, 0x400000#64), (4, 0x80#64), (6, 0x200000#64)], mem := [(0, 0x80)] }

theorem meets_LoadsWriteTheBytesRead :
    let s := linked fourAddrs
    let x := s.setSt 0
    s.issues 0 [5, 1] ∧ x.place 0 (2 ^ 62) = .sm 0 0 ∧ (s.setSt 0).err.get 0 0 ≠ 2
    ∧ (s.target 0 0x600000 .r).1 = .here 1 0
    ∧ ((s.target 0 0x600000 .r).2.2.serveRead 0 5 1 0 0 8).1 = .done
    ∧ (s.target 0 0x400000 .r).1 = .away ⟨9, 0, 0⟩
    ∧ ((s.target 0 0x400000 .r).2.2.remote 0 1 0x400000 ⟨9, 0, 0⟩ (.load 8) (.reg 0 5 8 false 0)).1 = .sent
    ∧ (2 ^ 62 + 1) % 2 ≠ 0 := by
  unfold State.issues; decide +kernel

theorem meets_StoresWriteTheLowBytes :
    let s := linked fourAddrs
    let x := s.setSt 0
    s.issues 0 [1, 4] ∧ x.place 0 (2 ^ 62) = .sm 0 0 ∧ (s.setSt 0).err.get 0 0 ≤ 1
    ∧ (s.target 0 0x600000 .w).1 = .here 1 0
    ∧ ((s.target 0 0x600000 .w).2.2.serveWrite 0 5 1 1 0 (toBytes 8 0x80)).1 = .done
    ∧ (s.target 0 0x400000 .w).1 = .away ⟨9, 0, 0⟩
    ∧ ((s.target 0 0x400000 .w).2.2.remote 0 1 0x400000 ⟨9, 0, 0⟩ (.store (toBytes 8 0x80)) (.posted 0)).1 = .sent := by
  unfold State.issues; decide +kernel

theorem meets_AtomicsUpdateTheWord :
    let s := linked fourAddrs
    s.issues 0 [5, 6, 4, 0] ∧ (s.target 0 0x200000 .a).1 = .here 0 0x200000
    ∧ ((s.target 0 0x200000 .a).2.2.serveAmo 0 5 0 0 0 0x200000 0x80 0).1 = .done
    ∧ (s.setSt 0).place 0 (2 ^ 62) = .sm 0 0 ∧ (s.target 0 0x400000 .a).1 = .away ⟨9, 0, 0⟩
    ∧ ((s.target 0 0x400000 .a).2.2.remote 0 1 0x400000 ⟨9, 0, 0⟩ (.amo 0 0x80 0) (.reg 0 5 8 false 0)).1 = .sent := by
  unfold State.issues
  refine ⟨by decide +kernel, by decide +kernel, ?_, by decide +kernel, by decide +kernel, by decide +kernel⟩
  have hg : ((linked fourAddrs).target 0 0x200000 .a).2.2.guard 0 5 0 0x200000 (amoSize 0) .atomic =
      (.done, ((linked fourAddrs).target 0 0x200000 .a).2.2) := by decide +kernel
  rw [Laws.serveAmo_guarded _ _ _ _ _ _ _ _ _ hg, Laws.memAmo_status _ _ _ _ _ _ (by decide)]
  exact (Laws.memRead_clean _ 0 0 0x200000 8 (by decide +kernel) (0x200000 / 64) (by decide +kernel) (by decide +kernel)
    (by decide +kernel) (by decide +kernel) (by decide +kernel)).1

theorem test_load_signed : gives (.iLd8s 0 5 1 0) (bound fourAddrs) fun t => decide ((t.setSt 0).reg 5 = 0xFFFFFFFFFFFFFF80#64) := by
  decide +kernel

theorem test_store_tier_b : gives (.iSt16 0 2 4 0) (bound fourAddrs) fun t => decide (t.mem.b = [(0, 0x80)] ∧ t.mem.a = []) := by
  decide +kernel

theorem test_load_away : gives (.iLd64 0 5 3 0) (linked fourAddrs) fun t =>
    decide (t.fab.sent.map (fun q => (q.dest, q.vc, q.op)) = [(9, 1, .load 8)] ∧ (t.setSt 0).pc = 8) := by decide +kernel

theorem test_misaligned : gives (.iLd64 0 5 1 4) (bound fourAddrs) fun t => decide ((t.setSt 0).run = .stopped) := by decide +kernel
/-! ### Vector instructions -/

/-- The words of some operations, all on VD 1, VA 2, VB 3, VC 4 with one type. -/
def vwords (major : Nat) (funcs : List Nat) (pm : PredMode) (ty : BitVec 3) : List (BitVec 64) :=
  funcs.map fun f => encV major f 1 2 3 0 false pm ty

theorem meets_VectorFloatingPoint :
    (∀ w ∈ vwords 0x10 [0, 1, 2, 6, 7, 0xD, 0xF] (some (1, true)) 0, (bound runs).vacts 0 [] w)
    ∧ (∀ w ∈ [encV 0x10 0 1 2 5 0 true none 1], (bound runs).vacts 0 [5] w)
    ∧ (∀ w ∈ [3, 4, 5].map fun f => encV 0x10 f 1 2 3 4 false none 0, (bound runs).vacts 0 [] w)
    ∧ ∀ w ∈ [8, 9, 0xA, 0xB, 0xC, 0xE].map fun f => encV 0x10 f 1 2 0 0 false none 0, (bound runs).vacts 0 [] w :=
  ⟨vacts_of_now _ _ _ _ (by decide +kernel), vacts_of_now _ _ _ _ (by decide +kernel), vacts_of_now _ _ _ _ (by decide +kernel),
    vacts_of_now _ _ _ _ (by decide +kernel)⟩

theorem meets_VectorInteger :
    (∀ w ∈ vwords 0x11 [0, 1, 2, 3, 4, 5, 7, 8, 9, 0xA, 0xB] none 3, (bound runs).vacts 0 [] w)
    ∧ (∀ w ∈ [encV 0x11 0 1 2 5 0 true none 5], (bound runs).vacts 0 [5] w)
    ∧ ∀ w ∈ [encV 0x11 6 1 2 0 0 false none 3], (bound runs).vacts 0 [] w :=
  ⟨vacts_of_now _ _ _ _ (by decide +kernel), vacts_of_now _ _ _ _ (by decide +kernel), vacts_of_now _ _ _ _ (by decide +kernel)⟩

theorem meets_VectorComparisonsAndPredicates :
    (∀ w ∈ vwords 0x12 [0, 1, 2, 3, 4, 5, 6] none 0, (bound runs).vacts 0 [] w)
    ∧ (∀ w ∈ vwords 0x12 [0, 1, 2, 3, 4, 5] none 4, (bound runs).vacts 0 [] w)
    ∧ (∀ w ∈ [0x20, 0x21, 0x22, 0x23].map fun f => encV 0x12 f 1 2 3 0 false none 0, (bound runs).vacts 0 [] w)
    ∧ ∀ w ∈ [encV 0x12 0x24 1 2 0 0 false none 0, encV 0x12 0x25 1 0 0 0 false none 0, encV 0x12 0x26 1 0 0 0 false none 0],
      (bound runs).vacts 0 [] w :=
  ⟨vacts_of_now _ _ _ _ (by decide +kernel), vacts_of_now _ _ _ _ (by decide +kernel), vacts_of_now _ _ _ _ (by decide +kernel),
    vacts_of_now _ _ _ _ (by decide +kernel)⟩

theorem meets_VectorConversionsAndLanes :
    (∀ w ∈ [0, 1, 2, 3].map fun f => encV 0x13 f 1 2 0 0 false none 0, (bound runs).vacts 0 [] w)
    ∧ (∀ w ∈ [0, 1, 2].map fun f => encV 0x14 f 1 2 0 0 false none 0, (bound runs).vacts 0 [] w)
    ∧ (∀ w ∈ [encV 0x14 3 1 2 3 0 false none 3, encV 0x14 7 1 0 0 0 false none 3], (bound runs).vacts 0 [] w)
    ∧ (∀ w ∈ [encV 0x14 4 1 2 5 0 true none 0], (bound runs).vacts 0 [5] w)
    ∧ (∀ w ∈ [encV 0x14 5 1 2 5 0 true none 0], (bound runs).vacts 0 [1, 5] w)
    ∧ ∀ w ∈ [encV 0x14 6 1 2 5 0 true none 0], (bound runs).vacts 0 [2, 5] w :=
  ⟨vacts_of_now _ _ _ _ (by decide +kernel), vacts_of_now _ _ _ _ (by decide +kernel), vacts_of_now _ _ _ _ (by decide +kernel),
    vacts_of_now _ _ _ _ (by decide +kernel), vacts_of_now _ _ _ _ (by decide +kernel), vacts_of_now _ _ _ _ (by decide +kernel)⟩

/-- Set 0 with the set memory's first address in s1 and 4 in s2. -/
def strided : SetState := { runs with regs := [(1, 0x4000000000000000#64), (2, 4#64)], loaded := 1 }

theorem meets_VectorMemory :
    let x := (bound strided).setSt 0
    (∀ w ∈ [encV 0x15 0 3 1 0 0 false none 0, encV 0x15 1 3 1 0 0 false none 0], (bound strided).vacts 0 [1] w)
    ∧ (∀ w ∈ [encV 0x15 2 3 1 2 0 false none 0, encV 0x15 3 3 1 2 0 false none 0], (bound strided).vacts 0 [1, 2] w)
    ∧ x.vplace 0 (2 ^ 62) 4 256 = some (0, 0) ∧ (∀ w, (((bound strided).setSt 0).err).get 0 w = 0)
    ∧ ∀ i < 64, x.vplace 0 (x.reg 1 + BitVec.ofNat 64 i * x.reg 2).toNat 4 4 = some (0, 4 * i) :=
  ⟨vacts_of_now _ _ _ _ (by decide +kernel), vacts_of_now _ _ _ _ (by decide +kernel), by decide +kernel, fun _ => rfl,
    by decide +kernel⟩

theorem meets_FunctionTablesAndRandomBits :
    let x := (bound strided).setSt 0
    (∀ w ∈ [encV 0x16 0 1 2 0 0 false none 0, encV 0x16 8 1 2 0 0 false none 0], (bound strided).vacts 0 [] w)
    ∧ x.loaded.testBit 0 = true ∧ x.loaded.testBit 4 = false ∧ x.fused = none
    ∧ (∀ w ∈ [encV 0x16 0x10 0 1 0 0 false none 0, encV 0x16 0x18 0 1 0 0 false none 0], (bound strided).vacts 0 [1] w)
    ∧ x.vplace 0 (x.reg 1).toNat 64 4096 = some (0, 0) ∧ (∀ w, x.err.get 0 w = 0)
    ∧ ∀ w ∈ [encV 0x17 0 3 1 2 0 false none 4], (bound strided).vacts 0 [1, 2] w :=
  ⟨vacts_of_now _ _ _ _ (by decide +kernel), by decide +kernel, by decide +kernel, rfl, vacts_of_now _ _ _ _ (by decide +kernel),
    by decide +kernel, fun _ => rfl, vacts_of_now _ _ _ _ (by decide +kernel)⟩

/-- Set 0 inside the first run of a body of VTAKE v1 and VGIVE v2, at one of the two, with the first producer row of 64 ones final. -/
def fusedAt (pos : Nat) : SetState := { runs with
  queue := [], fused := some ⟨0, none, [encV 0x18 0 1 0 0 0 false none 0, encV 0x18 1 0 2 0 0 false none 0], 0, 1, 1, 0, pos,
    [(0, List.replicate 64 1)], 0, [], 0, 64, [], []⟩ }

theorem meets_FusedForwarding :
    ((bound (fusedAt 0)).setSt 0).fused.map (fun fu => (fu.busy, fu.ready.find fu.taken)) = some (true, some (List.replicate 64 1))
    ∧ (bound (fusedAt 0)).vacts 0 [] (encV 0x18 0 1 0 0 0 false none 0)
    ∧ (bound (fusedAt 1)).vacts 0 [] (encV 0x18 1 0 2 0 0 false none 0)
    ∧ (bound runs).throttled 0 = false ∧ (bound runs).issues 0 [] ∧ legalWord 0xFFFFFFFFFFFFFFFF#64 = false := by
  refine ⟨by decide +kernel, ?_, ?_, by decide +kernel, by unfold State.issues; decide +kernel, by decide +kernel⟩
  all_goals exact ⟨by decide +kernel, by decide +kernel, by decide +kernel, by decide +kernel, by decide +kernel, by decide +kernel⟩

/-- Set 0 with 1.5 and 2.5 in lane 0 of v2 and v3, and the largest integer there in lane 1. -/
def twoVecs : SetState := { runs with v := [(128, 0x3FC00000#32), (129, 0x7FFFFFFF#32), (192, 0x40200000#32), (193, 1#32)] }

theorem test_vadd : gives (.vAdd 0 ⟨1, 2, 3, false, none, 0⟩) (bound twoVecs) fun t => decide ((t.setSt 0).lane 1 0 = 0x40800000#32) := by
  decide +kernel

theorem test_viadd_wraps : gives (.vIadd 0 ⟨1, 2, 3, false, none, 3⟩) (bound twoVecs)
    fun t => decide ((t.setSt 0).lane 1 1 = 0x80000000#32) := by decide +kernel

theorem test_vclt : gives (.vClt 0 ⟨1, 2, 3, false, none, 0⟩) (bound twoVecs)
    fun t => decide (((t.setSt 0).pred 1).getLsbD 0 = true ∧ ((t.setSt 0).pred 1).getLsbD 2 = false) := by decide +kernel

theorem test_viota : gives (.vIota 0 7 none 3) (bound runs) fun t => decide ((t.setSt 0).lane 7 63 = 63#32) := by decide +kernel

theorem test_vst : gives (.vSt 0 2 1 none 0) (bound { twoVecs with regs := [(1, 0x4000000000000000#64)] })
    fun t => decide ((t.setSt 0).mem.get 0 2 = 0xC0#8 ∧ (t.setSt 0).mem.get 0 7 = 0x7F#8) := by decide +kernel
/-! ### Descriptors, counters and control -/

/-- Set 0 with five descriptors in its memory, each in 64 bytes from address 0: a tile, a tile for FSEQ, a promenade, a round, a freeze;
their addresses are in s1, s2, s3, s4 and s5. -/
def descs : SetState := { runs with
  regs := [(1, 0x4000000000000000#64), (2, 0x4000000000000040#64), (3, 0x4000000000000080#64), (4, 0x40000000000000C0#64),
    (5, 0x4000000000000100#64)],
  mem := [(0, 1), (1, 1), (64, 1), (65, 1), (66, 0x10), (128, 2), (129, 1), (132, 1), (192, 3), (193, 1), (196, 3), (201, 3), (202, 3),
    (256, 4), (257, 1), (260, 2)] }

/-- The descriptor at an offset of set 0's memory passes the checks of a push. -/
def passes (off kind : Nat) (rule : List Byte → Bool) : Bool :=
  let x := (bound descs).setSt 0
  let d := x.mem.read 0 off 64
  decide (x.place 0 (2 ^ 62 + off) = .sm 0 off ∧ off % 64 = 0 ∧ off + 64 ≤ setMemBytes ∧ checkDesc d kind (rule d) = .pass)

theorem meets_PushesQueueTheDescriptor :
    let x := (bound descs).setSt 0
    (∀ r ∈ [[1], [2, 6], [3], [4], [5]], (bound descs).canIssue 0 = true ∧ (bound descs).codeOk (dieOf 0) x.slot x.pc.toNat = true
      ∧ (bound descs).blocked 0 r = false)
    ∧ passes 0 1 (fun d => tileRule d false) = true ∧ passes 64 1 (fun d => tileRule d true) = true ∧ passes 128 2 promRule = true
    ∧ passes 192 3 roundRule = true ∧ passes 256 4 freezeRule = true ∧ (∀ w, x.err.get 0 w = 0) ∧ x.queue.length < 64
    ∧ x.proms.length < 16 ∧ (bound descs).getF RND_G_STATE 0 0 = 0 ∧ ((bound descs).group 0).queue.length < 8
    ∧ ((bound descs).frzSlot x.slot).queue.length < 8 ∧ ((x.reg 1).toNat + 4) % 64 ≠ 0 ∧ (257#32).toNat > 256 :=
  ⟨by decide +kernel, by decide +kernel, by decide +kernel, by decide +kernel, by decide +kernel, by decide +kernel, fun _ => rfl,
    by decide +kernel, by decide +kernel, by decide +kernel, by decide +kernel, by decide +kernel, by decide +kernel, by decide⟩

theorem test_tpush : gives (.tpush 0 1 0) (bound descs) fun t =>
    decide ((t.setSt 0).queue.map (fun q => (q.id, q.addr)) = [(0, 0)] ∧ (t.setSt 0).pc = 8) := by decide +kernel

theorem meets_CountersAddWaitAndRead :
    let s := bound { runs with wait := some (3, 7), run := .waiting }
    (bound runs).issues 0 [0] ∧ (bound runs).released 0 = true ∧ (bound runs).serves 1 0 = some 0
    ∧ ((bound runs).setSt 0).slot = 1 ∧ ((bound runs).setSt 0).run ≠ .unbound ∧ ((bound runs).setSt 0).lentFrom ≠ some 1
    ∧ (bound runs).replaying 1 = false ∧ (bound runs).serves 1 5 = none
    ∧ (s.setSt 0).wait = some (3, 7) ∧ (s.setSt 0).run = .waiting := by
  unfold State.issues; decide +kernel

theorem test_cwait : gives (.cwait 0 3 0 7) (bound runs) fun t => decide ((t.setSt 0).run = .waiting ∧ (t.setSt 0).wait = some (3, 7)) := by
  decide +kernel

theorem test_caddr : gives (.caddr 0 3 0 7 false) (bound runs) fun t => decide ((t.setSt 0).counter 3 = 7) := by decide +kernel

theorem meets_StreamControl :
    let lent := bound { runs with lentFrom := some 2 }
    let again : State := { bound runs with ctx := { (bound runs).ctx with slots := [(1, { slotOne with stepped := true, jbit := true })] } }
    (bound runs).issues 0 [] ∧ (bound runs).issues 0 [1] ∧ ((bound runs).setSt 0).lentFrom = none
    ∧ lent.issues 0 [] ∧ (lent.setSt 0).lentFrom ≠ none
    ∧ ((bound runs).setSt 0).slot < 32 ∧ (bound runs).enc.replay = none ∧ (bound runs).get HNG_TESTING = 0
    ∧ ((bound runs).slot 1).stepped = false ∧ again.issues 0 [0] ∧ (again.slot 1).stepped = true ∧ (again.slot 1).jbit ≠ false
    ∧ again.getF CTX_S_STEP_NO 1 0 = 0 ∧ ((bound runs).bubbleEntry 1 3).isSome = true ∧ (bound runs).bubbleEntry 1 4 = none := by
  unfold State.issues; decide +kernel

theorem test_step : gives (.iStep 0 1 false) (bound { runs with regs := [(1, 9#64)] }) fun t => decide (t.getF CTX_S_STEP_NO 1 0 = 9) := by
  decide +kernel

/-! ### Mailboxes, doorbells and ports -/

/-- Channel 2 bound to routine set 0 of context 5, its queues given. -/
def chanState (x : SetState) (q : Channel) : State :=
  let s := (((bound x).setF MBX_C_VALID 2 0 1).setF MBX_C_CONTEXT 2 0 5).setF MBX_C_ROUTINE_SET 2 0 0
  { s with mbx := { s.mbx with channels := [(2, q)] } }

theorem meets_MailboxChannels :
    let empty := chanState runs Channel.init
    let full := chanState runs ⟨List.replicate 16 1, List.replicate 16 2, some 3⟩
    let stalled := chanState { runs with stall := some (.msend 2 9) } ⟨[], List.replicate 16 2, none⟩
    empty.issues 0 [1] ∧ full.issues 0 [1] ∧ empty.chanMine 0 2 = true ∧ full.chanMine 0 2 = true ∧ (empty.chan 2).fromSet.length < 16
    ∧ 16 ≤ (full.chan 2).fromSet.length ∧ empty.replaying 1 = false ∧ empty.journalFull 1 = false ∧ (full.chan 2).toSet ≠ []
    ∧ (empty.chan 2).toSet = [] ∧ empty.chanMine 0 3 = false
    ∧ empty.reached .caller (MBX_C_IN_WORD.addr 2 0) ∧ empty.getF MBX_C_VALID 3 0 = 0 ∧ empty.getF MBX_C_VALID 2 0 = 1
    ∧ empty.nobodyStalls 2 ∧ full.nobodyStalls 2 ∧ empty.slotOf 5 = some 1 ∧ empty.partFenced 1 = false
    ∧ empty.reached .caller (MBX_C_OUT_POP.addr 2 0) ∧ empty.reached .caller (MBX_C_CONTEXT.addr 2 0)
    ∧ full.ready = true ∧ (full.chan 2).held ≠ none ∧ stalled.unitRuns 0 = true ∧ (stalled.setSt 0).stall = some (.msend 2 9) := by
  unfold State.issues State.reached State.nobodyStalls; decide +kernel

theorem test_in_word_full : gives (.inWord .caller 2 7) (chanState runs ⟨List.replicate 16 1, [], none⟩) fun t =>
    decide ((t.chan 2).held = some 7 ∧ (t.chan 2).toSet.length = 16 ∧ t.getF MBX_C_PENDING 2 0 = 1) := by decide +kernel

/-- Doorbell 1 of context 5 rings counter 4 of routine set 0; doorbell 2 is a near-end one. -/
def bells : State :=
  let s := ((((bound runs).setF MBX_D_VALID 1 0 1).setF MBX_D_CONTEXT 1 0 5).setF MBX_D_COUNTER 1 0 4).setF MBX_D_ROUTINE_SET 1 0 0
  ((s.setF MBX_D_VALID 2 0 1).setF MBX_D_CONTEXT 2 0 5).setF MBX_D_DIR 2 0 1

theorem meets_DoorbellsAddToTheirCounter :
    bells.issues 0 [] ∧ bells.getF MBX_D_VALID 1 0 = 1 ∧ bells.getF MBX_D_CONTEXT 1 0 = bells.ctxOf 1 ∧ bells.slotOf 5 = some 1
    ∧ bells.released 0 = true ∧ bells.replaying 1 = false ∧ bells.journalFull 1 = false ∧ bells.getF MBX_D_DIR 1 0 = 0
    ∧ bells.getF MBX_D_DIR 2 0 = 1 ∧ bells.serves 1 (bells.getF MBX_D_ROUTINE_SET 1 0) = some 0 ∧ (bells.setSt 0).slot = 1
    ∧ (bells.setSt 0).run ≠ .unbound ∧ (bells.setSt 0).lentFrom ≠ some 1 ∧ bells.getF MBX_D_VALID 3 0 = 0
    ∧ bells.reached .caller (MBX_D_RING.addr 1 0) ∧ bells.partFenced 1 = false
    ∧ State.reset.starting = true ∧ State.reset.pathUp .caller = true ∧ State.reset.pathOk .caller = true := by
  unfold State.issues State.reached; decide +kernel

theorem test_ring_write : gives (.ringWrite .caller 1 6) bells fun t => decide ((t.setSt 0).counter 4 = 6) := by decide +kernel

/-- Port 0 up, with a writable window 0 on the tier B page of context 5. -/
def windowed : State :=
  let s := (((bound runs).setBit MBX_PCIE_UP 0 0 0 true).setF MBX_W_VALID 0 0 1).setF MBX_W_WRITABLE 0 0 1
  { (s.setF MBX_W_CONTEXT 0 0 5).setF MBX_W_BASE_LO 0 0 0x600000 with pins := { s.pins with perst0 := true } }

theorem meets_PciePortsAndWindows :
    let r := windowed.resolve 0 1 0x600010 .w
    let r' := windowed.resolve 0 1 0x600010 .r
    let held := windowed.set MOD_PHASE 2
    held.mayTrain 0 = true ∧ windowed.mayTrain 1 = false
    ∧ bit (windowed.get MBX_PCIE_UP) 0 = true ∧ windowed.ready = true ∧ windowed.windowAt 0 0x10 true = some (1, 0x600010)
    ∧ windowed.replaying 1 = false ∧ windowed.journalFull 1 = false ∧ onePart r 4 ∧ onePart r' 4
    ∧ (r.2.2.2.serveWrite r.2.2.2.self (r.2.2.2.ctxOf 1) r.2.1.space 2 r.2.1.off [1, 2, 3, 4]).1 = .done
    ∧ (r'.2.2.2.serveRead r'.2.2.2.self (r'.2.2.2.ctxOf 1) r'.2.1.space 2 r'.2.1.off 4).1 = .done
    ∧ windowed.windowAt 0 (2 ^ 31) true = none ∧ windowed.windowAt 0 (2 ^ 31) false = none
    ∧ bit (windowed.get MBX_PCIE_UP) 1 = false ∧ held.ready = false ∧ bit (held.get MBX_PCIE_UP) 0 = true := by
  unfold onePart; decide +kernel

theorem test_window_write : gives (.windowWrite 0 0x10 [1, 2, 3, 4]) windowed fun t =>
    decide (t.mem.b = [(16, 1), (17, 2), (18, 3), (19, 4)]) := by decide +kernel

/-- Service port 0 up; export channel 3 of context 5 on it in ready-to-send, open for inbound writes to the tier B page, with a write
outstanding. -/
def exporting (ops : List RdmaPending) : State :=
  let s := ((((bound runs).setF MBX_K_ETH_STATE 0 0 2).setF MBX_T_VALID 3 0 1).setF MBX_T_QP_STATE 3 0 1).setF MBX_T_CONTEXT 3 0 5
  let s := ((s.setF MBX_T_INBOUND 3 0 1).setF MBX_T_LOCAL_BASE_LO 3 0 0x600000).setF MBX_T_LOCAL_PAGES 3 0 1
  { s with mbx := { s.mbx with rdma := ops } }

theorem meets_ServicePortsAndExportChannels :
    let s := exporting [⟨3, 7, 1, .write 7 0 [1]⟩]
    let rd := exporting [⟨3, 7, 1, .read 7 0 64⟩]
    let r := s.resolve 1 1 0x600010 .w
    s.ready = true ∧ s.pwr.mode = .on ∧ s.get HNG_MODULE_FENCED = 0 ∧ s.dieOn (serviceDie 0) = true
    ∧ s.reached .caller (MBX_T_VALID.addr 3 0) ∧ s.ethUp 0 = true ∧ s.getF MBX_T_VALID 4 0 = 0 ∧ s.getF MBX_T_VALID 3 0 = 1
    ∧ s.getF MBX_T_QP_STATE 3 0 = 1 ∧ s.storageWaits 3 = false ∧ s.getF MBX_T_INBOUND 3 0 = 1
    ∧ s.get64 MBX_T_LOCAL_BASE_LO MBX_T_LOCAL_BASE_HI 3 = 0x600000 ∧ s.getF MBX_T_LOCAL_PAGES 3 0 = 1 ∧ s.slotOf 5 = some 1
    ∧ s.partFenced 1 = false ∧ onePart r 4
    ∧ (r.2.2.2.serveWrite r.2.2.2.self (r.2.2.2.ctxOf 1) r.2.1.space 2 r.2.1.off [1, 2, 3, 4]).1 = .done
    ∧ s.rdmaOf 3 7 = some ⟨3, 7, 1, .write 7 0 [1]⟩ ∧ rd.rdmaOf 3 7 = some ⟨3, 7, 1, .read 7 0 64⟩
    ∧ (exporting []).mbx.rdma = [] ∧ ((exporting []).setF MBX_T_QP_STATE 3 0 2).getF MBX_T_QP_STATE 3 0 ≠ 1 := by
  unfold onePart State.reached; decide +kernel

theorem test_inbound_wrong_key : gives (.inboundRdmaWrite 0 3 9 0 true 0x600000#64 [1] none) (exporting []) fun t =>
    decide (t.getF MBX_T_QP_STATE 3 0 = 2 ∧ t.mem.b = [] ∧ t.out.head? = some (.rdma 3 (.nak 9))) := by decide +kernel
/-! ### Memory -/

/-- The module with requests of classes 1 and 3 waiting at channel 5 of stack 2, a write-back and a correction count that are due. -/
def queued (c : Chan) : State :=
  let s := ((ready.set MEM_RESERVE3 4).set MEM_CE_RECORD_AT 3).setF MEM_STACK_CE 2 0 3
  { s with mem := { s.mem with chans := [(chanKey 0 2 5, c)], writebacks := [(0, 7)], errA := [(7, 1)] } }

theorem meets_ChannelsGrantByClass :
    let s := queued ⟨[⟨1, 8, false⟩, ⟨3, 9, false⟩], 0, 0, false⟩
    let full := queued ⟨[⟨1, 8, true⟩], 64, 2, false⟩
    tierNum .a = some 0 ∧ s.ready = true ∧ s.unitLost 0 2 = false ∧ 2 ∈ s.unitsIn 0
    ∧ (s.mem.chans.get Chan.init (chanKey 0 2 5)).grants < 64 ∧ 64 ≤ (full.mem.chans.get Chan.init (chanKey 0 2 5)).grants
    ∧ ((s.mem.chans.get Chan.init (chanKey 0 2 5)).queue.find? fun r => decide (r.cls = 3)) = some ⟨3, 9, false⟩ := by decide +kernel

theorem test_promotion : gives (.promotion .a 2 5 3) (queued ⟨[⟨1, 8, false⟩, ⟨3, 9, false⟩], 0, 0, false⟩) fun t =>
    decide ((t.mem.chans.get Chan.init (chanKey 0 2 5)).queue = [⟨1, 8, false⟩, ⟨3, 9, true⟩]) := by decide +kernel

theorem meets_MemoryUnitsReportAndRecover :
    let s := ((queued ⟨[⟨1, 8, false⟩], 0, 0, false⟩).set MEM_PATROL_S 10).set MEM_WEAR_WARN_BP 9000
    let worn := s.set MEM_LIFE_USED_BP 9000
    s.mem.writebacks = (0, 7) :: [] ∧ 2 < ceUnits 0 ∧ s.get MEM_CE_RECORD_AT ≠ 0 ∧ s.get MEM_CE_RECORD_AT ≤ s.ceCount 0 2
    ∧ s.mem.ceRecorded.get false 2 = false ∧ s.ceCount 0 3 < s.get MEM_CE_RECORD_AT ∧ s.ready = true ∧ s.pwr.mode = .on
    ∧ s.get MEM_PATROL_S ≠ 0 ∧ s.tierSize 0 / 64 + s.tierSize 1 / 64 ≠ 0 ∧ 2 ∈ s.unitsIn 0 ∧ s.unitLost 0 2 = false
    ∧ (∃ c < 32, (s.mem.chans.get Chan.init (chanKey 0 2 c)).queue ≠ [])
    ∧ (∀ c < 32, (s.mem.chans.get Chan.init (chanKey 0 3 c)).queue = []) ∧ 3 ∈ s.unitsIn 0 ∧ s.unitLost 0 3 = false
    ∧ worn.get MEM_WEAR_WARN_BP ≤ worn.get MEM_LIFE_USED_BP ∧ worn.tierC.warned = false ∧ worn.get MEM_C_STATE ≠ 0
    ∧ ¬ s.get MEM_WEAR_WARN_BP ≤ s.get MEM_LIFE_USED_BP := by decide +kernel

theorem test_readonly : gives (.tierCReadonly 2) ready fun t => decide (t.get MEM_C_STATE = 2 ∧ t.get MEM_SPARE_LEFT = 2) := by decide +kernel

/-! ### Fabric -/

/-- A section of an image. -/
def sect (ty : Nat) (v : List Byte) : List Byte :=
  toBytes 2 ty ++ toBytes 2 0 ++ toBytes 4 v.length ++ v ++ zeroBytes (padded8 v.length - v.length)

/-- An image that PARSE takes: one port enabled, every range at its default, and module 9 admitted to context 0. -/
def goodImage : List Byte :=
  let ss := sect 1 (zeroBytes 8) ++ sect 2 (toBytes 2 12000 ++ toBytes 2 9600 ++ zeroBytes 4)
    ++ sect 3 (toBytes 2 1 ++ toBytes 2 0 ++ toBytes 4 1000 ++ (List.range 16).flatMap (toBytes 1) ++ zeroBytes 176)
    ++ sect 4 ([0, 1, 0, 0, 1, 1, 0, 0] ++ List.replicate 24 255) ++ sect 5 (zeroBytes 8) ++ sect 6 (List.replicate 8 1) ++ sect 7 []
    ++ sect 8 (zeroBytes 4) ++ sect 9 (zeroBytes 32) ++ sect 10 (toBytes 2 9 ++ toBytes 2 1 ++ toBytes 1 7 ++ zeroBytes 3)
    ++ sect 11 (zeroBytes 12 ++ toBytes 2 1500 ++ zeroBytes 2) ++ sect 12 (zeroBytes 2 ++ toBytes 2 64)
    ++ sect 13 ([1, 1] ++ zeroBytes 6) ++ sect 14 (zeroBytes 4)
  imgMagic ++ [1, 0, 1, 0] ++ zeroBytes 4 ++ toBytes 4 (0x40 + ss.length + 332) ++ toBytes 2 14 ++ zeroBytes 42 ++ ss ++ zeroBytes 332

/-- The module of `linked` whose lanes are handed over, with that image: it hears module 9. -/
def hearing : State :=
  let s := ((linked runs).setF FRZ_S_PARITY_BLOCKS 1 0 4).setF CTX_S_EXT_BLOCKS 1 0 4
  { s with boot := { s.boot with image := goodImage }, links := { s.links with handed := true } }

theorem meets_FabricReadsAreAnswered :
    let s := hearing
    let alone := { s with boot := { s.boot with image := [] } }
    (∀ vc ∈ [0, 1, 6], s.hears vc = true ∧ (s.rxPair 9 vc).takes vc 4 = .fresh 4 ∧ (s.rxPair 9 vc).got = [])
    ∧ (s.rxPair 9 6).takes 1 4 = .fresh 4 ∧ s.fab.held = [] ∧ s.epoch % 256 = 1 ∧ s.replayOwned 1 0 8 = false
    ∧ s.get HNG_MODULE_FENCED = 0 ∧ alone.ctx0Admits 9 2 = false ∧ s.reached (.fabric 9) 0x010010 ∧ pairLow 0x010010 = false
    ∧ pairHigh 0x010010 = false ∧ s.slotOf 4 = none ∧ s.slotOf 5 = some 1 ∧ s.fencedSlot 1 = false ∧ s.tcMounted = true
    ∧ (s.set MEM_C_STATE 0).tcMounted = false ∧ s.areaSize 1 2 < 3 + 2 ∧ 1 + 2 ≤ s.areaSize 1 2
    ∧ s.areaFirst 1 2 + s.areaSize 1 2 ≤ s.getF CTX_S_EXT_BLOCKS 1 0
    ∧ (∀ k < 2, s.tierC.bad.get false (s.areaBlock 1 2 1 + k) = false)
    ∧ (s.set HNG_FENCED_SLOTS 2).fencedSlot 1 = true := by
  unfold State.reached; decide +kernel

theorem test_load_denied : gives (.load 9 1 4 5 1 0 8) hearing fun t =>
    decide (t.out.head? = some (.response 9 (answerVc 1) false 5 4 3 1 [])) := by decide +kernel

theorem meets_FabricWritesAreAcknowledged :
    let s := hearing
    (∀ e ∈ [(1, 1, ReqOp.store [7]), (7, 1, .writeBlock [7]), (7, 1, .fill 7 4), (1, 0, .amo 0 1 0)],
      s.hears e.1 = true ∧ (s.rxPair 9 e.1).takes e.1 4 = .fresh 4 ∧ s.inputWaits ⟨9, e.1, 4, 5, e.2.1, 16, e.2.2⟩ = false)
    ∧ s.fab.held = [] ∧ s.epoch % 256 = 1 ∧ s.replayOwned 1 16 8 = false ∧ s.replayOwned 0 16 8 = false
    ∧ s.hears 0 = true ∧ (s.rxPair 9 0).takes 0 4 = .fresh 4 ∧ s.get HNG_MODULE_FENCED = 0 ∧ s.reached (.fabric 9) 0x010010
    ∧ commandWord 0x010010 = false ∧ pairLow 0x010010 = false ∧ pairHigh 0x010010 = false := by
  unfold State.reached; decide +kernel

/-- An exponent entry of a fixed exponent for four blocks from context address 0, kept in tier B. -/
def expBytes : List Byte := [0, 100, 1, 0] ++ toBytes 4 4 ++ zeroBytes 24

/-- The bound context with that entry 0 of its exponent directory, at context address 0x10000. -/
def expState : State :=
  { bound runs with
    ctx := { (bound runs).ctx with slots := [(1, { slotOne with expDir := [(0x10000, 1)] })] }
    mem := { (bound runs).mem with a := SMap.write [] 0 0x10000 expBytes } }

/-- The state after the lines of the block at context address 0 are resolved. -/
def expLines : State := (expState.blockLines 0 1 0 6).2.2.2

/-- And after the entry's span is. -/
def expRead : State := (expLines.resolve 0 1 0x10000 .r).2.2.2

theorem expEntry_reads : expLines.expEntry 1 0 = (.done, some ⟨0, 100, 1, 4, 0, 0⟩, expRead.sliceTouch 1024) := by
  refine Laws.expEntry_line expLines expRead 1 0 0x10000 1 0x10000 (2 ^ 22 - 0x10000) 1024 ⟨0, 100, 1, 4, 0, 0⟩ ?_ ?_ ?_ ?_ ?_ ?_ ?_ ?_ ?_
  · decide +kernel
  · decide
  · decide
  · exact Prod.ext (by decide +kernel) (Prod.ext (by decide +kernel) (Prod.ext (by decide +kernel) rfl))
  · decide +kernel
  · decide
  · decide +kernel
  · unfold Laws.clean; decide +kernel
  · decide +kernel

theorem expLines_clean : ∀ o ∈ (expState.blockLines 0 1 0 6).2.2.1, o % 64 = 0 ∧ o + 64 ≤ expRead.tierSize 0
    ∧ Laws.clean expRead (o / 64) := by
  unfold Laws.clean; decide +kernel

theorem expEntry_exp : (expRead.sliceTouch 1024).blockExp 1 ⟨0, 100, 1, 4, 0, 0⟩ 0 = (.done, 100, expRead.sliceTouch 1024) := rfl

theorem meets_WindowAdditionsAddEachAddend :
    (expState.dieOn 0 = true ∧ expState.getF CTX_S_STATE 1 0 ≠ 0 ∧ expState.fencedSlot 1 = false
      ∧ (List.replicate 64 (0#48)).length = 64 ∧ srcValue 0 0 ≠ none)
    ∧ (expState.blockLines 0 1 0 6).1 = .done ∧ (expState.blockLines 0 1 0 6).2.1 = expLines.self
    ∧ ((expState.blockLines 0 1 0 6).2.2.1.Pairwise fun a b => a + 64 ≤ b ∨ b + 64 ≤ a)
    ∧ (expLines.guardLines expLines.self (expLines.ctxOf 1) (expState.blockLines 0 1 0 6).2.2.1).1 = .done
    ∧ expLines.expEntry 1 0 = (.done, some ⟨0, 100, 1, 4, 0, 0⟩, expRead.sliceTouch 1024)
    ∧ (⟨0, 100, 1, 4, 0, 0⟩ : ExpEntry).index .bw48 0 = (.done, 0)
    ∧ (expRead.sliceTouch 1024).blockExp 1 ⟨0, 100, 1, 4, 0, 0⟩ 0 = (.done, 100, expRead.sliceTouch 1024)
    ∧ (∀ adds, ((expRead.sliceTouch 1024).addRow .bw48 (expState.blockLines 0 1 0 6).2.2.1 adds none 0).1 = .done
      ∨ ((expRead.sliceTouch 1024).addRow .bw48 (expState.blockLines 0 1 0 6).2.2.1 adds none 0).1 = .overrange)
    ∧ expState.getF CTX_S_STATE 2 0 = 0 ∧ 0 < expState.fab.xlate.length ∧ cacheFind (expState.fab.xlate.getD 0 []) 1 0x10 ≠ none := by
  refine ⟨by decide +kernel, by decide +kernel, by decide +kernel, by decide +kernel, by decide +kernel, expEntry_reads,
    by decide +kernel, expEntry_exp, fun adds => Laws.addRow_clean _ _ _ _ _ _ fun o ho => ?_,
    by decide +kernel, by decide +kernel, by decide +kernel⟩
  obtain ⟨h1, h2, h3⟩ := expLines_clean o ho
  exact ⟨h1, by rw [Laws.tierSize_same _ _ (Laws.sliceTouch_same expRead 1024 (by decide +kernel))]; exact h2,
    Laws.clean_of_same _ _ (Laws.sliceTouch_same expRead 1024 (by decide +kernel)) _ h3⟩

theorem meets_WindowAddRequests :
    let s : State := { hearing with
      ctx := { hearing.ctx with slots := [(1, { slotOne with expDir := [(0x10000, 1)] })] }
      mem := { hearing.mem with a := SMap.write [] 0 0x10000 expBytes } }
    s.hears 3 = true ∧ (s.rxPair 9 3).takes 3 4 = .fresh 4 ∧ s.fab.held = [] ∧ s.epoch % 256 = 1
    ∧ s.inputWaits ⟨9, 3, 4, 5, 0, 0, .windowAdd 0 false 0 (zeroBytes 384)⟩ = false ∧ s.replayOwned 0 0 384 = false
    ∧ (zeroBytes 384).length = 64 * srcSize 0 ∧ s.ownerSlot 0 0 = some 1 := by decide +kernel

/-- A load and a store sent to module 9, numbers 3 and 4, and a request from it with number 6 already answered. -/
def exchanged : State :=
  { hearing with fab := { hearing.fab with
      sent := [⟨9, 1, 3, 5, 0x400000, .load 8, .reg 0 5 8 false 0, 0⟩, ⟨9, 1, 4, 5, 0x400000, .store [1], .posted 0, 0⟩]
      gone := [⟨9, 1, 2, 5, 0x400000, .load 8, .reg 0 5 8 false 0, 0⟩]
      rx := [(8 * 9 + 1, ⟨some 2000, [⟨2000, 0, []⟩], false⟩), (8 * 9 + 7, ⟨some 6, [], false⟩)] } }

theorem meets_FabricNumbersAndAnswers :
    let s := exchanged
    ready.hears 1 = false ∧ s.hears 1 = true ∧ s.hears 7 = true ∧ s.epoch % 256 = 1 ∧ s.fab.held = []
    ∧ (s.rxPair 9 1).takes 1 2000 = .again ⟨2000, 0, []⟩ ∧ (s.rxPair 9 1).takes 1 900 = .stale ∧ (s.rxPair 9 7).takes 7 9 = .early 9
    ∧ s.answerWaits 9 1 3 = false ∧ s.answerWaits 9 1 4 = false
    ∧ s.sentOn 9 1 3 = some ⟨9, 1, 3, 5, 0x400000, .load 8, .reg 0 5 8 false 0, 0⟩
    ∧ s.sentOn 9 1 4 = some ⟨9, 1, 4, 5, 0x400000, .store [1], .posted 0, 0⟩ ∧ s.slotOf 5 = some 1 ∧ s.homeOf 1 0 = 0
    ∧ (s.setSt 0).slot = 1 ∧ (s.setSt 0).run ≠ .unbound ∧ s.sentOn 9 1 2 = none ∧ s.sentOn 9 1 8 = none
    ∧ s.fab.gone.find? (fun q => decide (q.dest = 9 ∧ q.vc = 1 ∧ q.seq = 2)) ≠ none
    ∧ s.fab.gone.find? (fun q => decide (q.dest = 9 ∧ q.vc = 1 ∧ q.seq = 8)) = none := by decide +kernel

theorem test_response : gives (.response 9 1 3 0 0 1 (toBytes 8 0x1122)) exchanged fun t =>
    decide ((t.setSt 0).reg 5 = 0x1122#64 ∧ t.fab.sent.length = 1) := by decide +kernel

theorem meets_Vc0Datagrams :
    let s := (hearing.set TOP_NETWORKS 2).setF MBX_K_ETH_STATE 0 0 2
    hearing.get TOP_NETWORKS ≠ 2 ∧ s.get TOP_NETWORKS = 2 ∧ s.ethUp 0 = true ∧ (flitOf (zeroBytes 16)).vc = 0
    ∧ (flitOf (zeroBytes 16)).dest = s.self ∧ s.answerWaits 9 0 4 = false := by decide +kernel

/-! ### Start and recovery hold -/

/-- A start whose stage `k` alone runs on an image. -/
def stage (k : Nat) (img : List Byte) : State :=
  { State.reset with boot := { State.reset.boot with started := 2 ^ (k - 1), image := img } }

theorem meets_StartStagesCompleteOrFail :
    (∀ k < 12, 1 ≤ k → (stage k goodImage).stageRuns k = true) ∧ ready.stageRuns 3 = false
    ∧ ({ State.reset with pwr := { Pwr.init with mode := .powering } } : State).pwr.mode = .powering
    ∧ headerCheck [] = some .imgMagic ∧ headerCheck goodImage = none
    ∧ (parseCheck goodImage 0 (stage 4 goodImage).fuses).err = none
    ∧ (parseCheck goodImage 1 (stage 4 goodImage).fuses).err = some (.slotMismatch, 1)
    ∧ ((List.range 4).filter fun d => bit (stage 6 goodImage).units.dieBad d || !bit 0xE d).length ≤ 1
    ∧ 1 < ((List.range 4).filter fun d => bit (stage 6 goodImage).units.dieBad d || !bit 0xC d).length
    ∧ (stage 7 goodImage).img 0x0D 1 1 ≤ popCount 12 (stage 7 goodImage).stacksOk ∧ (stage 7 goodImage).img 0x0D 2 1 = 0
    ∧ (stage 7 goodImage).img 0x0D 3 1 = 0 ∧ 0 &&& (stage 8 goodImage).stacksOk = 0 ∧ (stage 8 goodImage).memChecks 8 = none
    ∧ (∀ d < 4, (stage 9 goodImage).img 0x0D 0 1 ≤ (stage 9 goodImage).setsOkOn d) ∧ (stage 9 goodImage).setOk 3 = true
    ∧ (stage 11 goodImage).boot.held = [] ∧ ((stage 11 goodImage).set CFG_STAGE_DONE 0x1FF).stageOver 9 = true := by decide +kernel

theorem meets_RecoveryHoldCommands :
    let open_ := ready.set MOD_PHASE 2
    let owned : State := { open_ with boot := { open_.boot with owner := some .caller, verifying := some ⟨none, false⟩ } }
    let failed : State := { open_ with boot := { open_.boot with verifying := some ⟨some 2, true⟩ } }
    let other : State := { open_ with boot := { open_.boot with owner := some .pcie0 } }
    ready.reached .caller 0x20040 ∧ ready.mayStage .caller = true ∧ ready.get CFG_BUSY = 0 ∧ other.mayStage .caller = false
    ∧ open_.inHold = true ∧ ready.inHold = false ∧ open_.boot.owner ≠ some .caller ∧ owned.boot.owner = some .caller
    ∧ owned.mayStage .caller = true ∧ owned.get CFG_STAGED_OK = 0 ∧ (owned.set CFG_STAGED_OK 1).get CFG_STAGED_OK = 1
    ∧ open_.ready = false ∧ ready.ready = true ∧ ready.onlyContext0 = true ∧ (bound runs).ready = true
    ∧ (bound runs).onlyContext0 = false ∧ owned.boot.verifying = some ⟨none, false⟩ ∧ failed.boot.verifying = some ⟨some 2, true⟩
    ∧ ({ open_ with boot := { open_.boot with programming := true } } : State).boot.programming = true
    ∧ ready.boot.programming = false := by
  unfold State.reached; decide +kernel

theorem meets_StagingWritesClearStagedOk :
    let open_ := ready.set MOD_PHASE 2
    let owned : State := { open_ with boot := { open_.boot with owner := some .caller } }
    owned.reached .caller 0x21000 ∧ owned.inHold = true ∧ owned.boot.owner = some .caller ∧ open_.boot.owner ≠ some .caller
    ∧ open_.reached .caller 0x21000 ∧ owned.reached .caller 0x20048 ∧ owned.reached .caller 0x2004C ∧ owned.mayStage .caller = true
    ∧ owned.reached .pcie0 0x20048 ∧ owned.mayStage .pcie0 = false := by
  unfold State.reached; decide +kernel

theorem test_stage_window : gives (.stageWindowWrite .caller 1 0x01020304)
    { (ready.set MOD_PHASE 2).set CFG_STAGED_OK 1 with boot := { ready.boot with owner := some .caller } } fun t =>
    decide (t.boot.staging = [(4, 4), (5, 3), (6, 2), (7, 1)] ∧ t.get CFG_STAGED_OK = 0) := by decide +kernel
/-! ### Watchdogs and resets -/

/-- The bound context with jobs of the reset ladder. -/
def ladder (js : List ResetJob) (x : SetState) : State := { bound x with hng := { (bound x).hng with jobs := js } }

/-- A job of one level against slot 1. -/
def job (level : Nat) (ph : ResetPhase) : ResetJob := ⟨level, 1, 0, 0, ph, 0, false, none⟩

theorem meets_WatchdogsCapturesAndIsolation :
    let waits := { runs with run := .waiting, wait := some (1, 5) }
    let s := ladder [] waits
    let cleared := ladder [job 4 .running] waits
    let testing (turns : List Nat) : State :=
      { ((bound runs).set HNG_TESTING 1).set HNG_AUTO_ESCALATE 1 with hng := { (bound runs).hng with turns := turns } }
    State.reset.ready = false ∧ engineOk 1000 = false ∧ s.watches 0 .arrayPass = false
    ∧ s.ready = true ∧ engineOk 0 = true ∧ s.watches 0 .setWait = true ∧ cleared.clearing 0 = true ∧ s.clearing 0 = false
    ∧ (s.hng.jobs.find? fun j => decide (j.phase = .capturing)) = none
    ∧ ((ladder [job 1 .capturing] waits).hng.jobs.find? fun j => decide (j.phase = .capturing)) = some (job 1 .capturing)
    ∧ ((ladder [{ job 2 .capturing with noStart := true }] waits).hng.jobs.find? fun j => decide (j.phase = .capturing)) ≠ none
    ∧ s.get HNG_TESTING = 0 ∧ (testing [3]).get HNG_TESTING = 1 ∧ (testing [3]).hng.turns = 3 :: [] ∧ (testing []).hng.turns = [] := by
  decide +kernel

theorem test_watchdog : gives (.watchdog 0 .setWait) ((ladder [] { runs with run := .waiting, wait := some (1, 5) }).set HNG_AUTO_ESCALATE 1)
    fun t => decide (t.hng.jobs.map (fun j => (j.level, j.slot, j.phase)) = [(1, 1, .capturing)] ∧ t.get HNG_WATCHDOGS_FIRED = 1) := by
  decide +kernel

theorem meets_ResetLadderRunsAndEscalates :
    let s := bound runs
    let busy := (s.set HNG_BUSY 1).set HNG_LEVEL 3
    let noted (k : Nat) : State := { s.set HNG_FM_VALID 1 with hng := { s.hng with notices := [⟨4, 0, zeroBytes 40, k⟩] } }
    s.get HNG_BUSY = 0 ∧ busy.get HNG_BUSY = 1 ∧ 3 ≤ busy.get HNG_LEVEL ∧ s.getF CTX_S_STATE 1 0 ≠ 0 ∧ s.getF CTX_S_STATE 2 0 = 0
    ∧ engineOk 0 = true ∧ engineOk 800 = false ∧ s.starting = false ∧ State.reset.starting = true
    ∧ ({ s with boot := { s.boot with heldWarm := true } } : State).boot.heldWarm = true ∧ s.boot.heldWarm = false
    ∧ (s.hng.jobs.find? fun j => decide (j.phase = .running)) = none
    ∧ (∀ k ∈ [1, 2, 3, 4], let r := ladder [job k .running] runs
        r.undrained (job k .running) = false ∧ r.starting = false
        ∧ (r.hng.jobs.find? fun j => decide (j.phase = .running)) = some (job k .running))
    ∧ setBitsOf 32 (job 2 .running).suspects = []
    ∧ (noted 0).hng.notices.find? (fun n => decide (n.seq = 4)) = some ⟨4, 0, zeroBytes 40, 0⟩
    ∧ (noted 8).hng.notices.find? (fun n => decide (n.seq = 4)) = some ⟨4, 0, zeroBytes 40, 8⟩ ∧ (noted 0).callerOn = true
    ∧ (noted 0).get HNG_FM_VALID = 1 ∧ s.reached .caller (HNG_NOTICE_ACK.addr 0 0)
    ∧ (s.hng.restarts.filter fun c => decide (s.callerCycles < c + 2250000000)).length < 2
    ∧ ({ s with pwr := { Pwr.init with mode := .off } } : State).callerOn = false := by
  unfold State.reached; decide +kernel

theorem test_warm : gives .warmReset (bound runs) fun t =>
    decide (t.get MOD_PHASE = 3 ∧ (t.setSt 0).run = .unbound ∧ t.epoch = 2) := by decide +kernel

/-! ### Arrays and fused sequences -/

/-- A tile descriptor: K_STEPS, ROWS, where its output goes; its stationary and activation blocks in set memory. -/
def tileBytes (flags steps rows out : Nat) : List Byte :=
  [1, 1] ++ toBytes 2 flags ++ zeroBytes 2 ++ toBytes 2 steps ++ toBytes 4 rows ++ toBytes 1 4 ++ zeroBytes 1 ++ toBytes 2 3
    ++ toBytes 8 (2 ^ 62 + 0x1000) ++ toBytes 8 (2 ^ 62 + 0x4000) ++ toBytes 8 out ++ toBytes 4 0 ++ toBytes 4 64 ++ toBytes 4 384
    ++ zeroBytes 12

/-- The same with a stationary block that no span leads to. -/
def strayTile : List Byte := (tileBytes 0 1 1 (2 ^ 62)).take 16 ++ toBytes 8 0x900000 ++ (tileBytes 0 1 1 (2 ^ 62)).drop 24

/-- A tile of order number 7 of set 0. -/
def tile7 (d : List Byte) : Tile := ⟨7, d, 0, 0x40, none, none⟩

/-- Set 0 with one array in service, that tile running with its pass or its drain in some state. -/
def running (d : List Byte) (left : List (Nat × Nat)) (st : Nat) (fail : Option Nat) (p : Option Pass) (a : Arr) (bk : Option Bank) :
    State :=
  { bound { runs with tiles := [⟨tile7 d, left, st, fail⟩], pass := p, arrs := [a, .init, .init, .init], active := bk } with
    units := { (bound runs).units with sets := [(0, ⟨false, 1, [none, none, none, none]⟩)] } }

/-- A bank of ones for the first K-step of the tile. -/
def bankOfOnes (d : List Byte) : Bank := ⟨passKey d ⟨7, 0, 0, true⟩, List.replicate 2048 0x38, List.replicate 64 127⟩

theorem meets_ArraysRunTiles :
    let d := tileBytes 0 2 1 (2 ^ 62 + 0x8000)
    let starts := bound { runs with queue := [tile7 d] }
    let loads := running d [] 0 none (some ⟨7, 0, 0, false⟩) .init none
    let strays := running strayTile [] 0 none (some ⟨7, 0, 0, false⟩) .init none
    let enters := running d [] 0 none (some ⟨7, 0, 0, true⟩) { Arr.init with cur := some ⟨7, 0, 1, 0⟩, ramp := .active } (some (bankOfOnes d))
    let drains := running d [] 0 none none { Arr.init with drain := some ⟨7, 0, 1, 0⟩ } none
    let lost := running (tileBytes 0 1 1 0x900000) [] 0 none none { Arr.init with drain := some ⟨7, 0, 1, 0⟩ } none
    let drained := running d [] 0 none none { Arr.init with drain := some ⟨7, 0, 1, 1⟩ } none
    (starts.setSt 0).queue = [tile7 d] ∧ starts.arraysRun 0 = true ∧ starts.arrOk 0 ≠ 0 ∧ (starts.setSt 0).tiles = []
    ∧ (loads.setSt 0).pass = some ⟨7, 0, 0, false⟩ ∧ (loads.setSt 0).findRun 7 = some ⟨tile7 d, [], 0, none⟩
    ∧ loads.arraysRun 0 = true ∧ (loads.setSt 0).active.map Bank.key ≠ some (passKey d ⟨7, 0, 0, false⟩)
    ∧ (strays.readBank 0 (passKey strayTile ⟨7, 0, 0, false⟩)).1 = .access
    ∧ (strays.readBank 0 (passKey strayTile ⟨7, 0, 0, false⟩)).2.1 = none
    ∧ enters.unitRuns 0 = true ∧ enters.paused 0 = false ∧ (enters.setSt 0).live = true ∧ lastPass d ⟨7, 0, 0, true⟩ = false
    ∧ 0 < subPasses d ∧ 0 < tSteps d ∧ enters.arraysOf 0 = [0] ∧ ((enters.setSt 0).arr 0).entered = 0
    ∧ ((drains.setSt 0).arr 0).drain = some ⟨7, 0, 1, 0⟩ ∧ drains.arraysRun 0 = true ∧ (drains.setSt 0).findRun 7 ≠ none
    ∧ (lost.writeRun 0 1 5 0x900000 [0]).1 = .access ∧ tMode d = 0
    ∧ ((drained.setSt 0).arr 0).drain = some ⟨7, 0, 1, 1⟩ := by decide +kernel

/-- A row went out with DONE and left array 0 of set 0 as it was. -/
def rowSent (r : RowOut) (a : Arr) : Bool :=
  match r with
  | .sent .done s => decide ((s.setSt 0).arr 0 = a)
  | _ => false

theorem meets_ArraysRunTiles_rows :
    let d := tileBytes 0 2 1 (2 ^ 62 + 0x8000)
    let loads := running d [] 0 none (some ⟨7, 0, 0, false⟩) .init none
    let enters := running d [] 0 none (some ⟨7, 0, 0, true⟩) { Arr.init with cur := some ⟨7, 0, 1, 0⟩, ramp := .active } (some (bankOfOnes d))
    let drains := running d [] 0 none none { Arr.init with drain := some ⟨7, 0, 1, 0⟩ } none
    (loads.readBank 0 (passKey d ⟨7, 0, 0, false⟩)).1 = .done ∧ (loads.readBank 0 (passKey d ⟨7, 0, 0, false⟩)).2.1.isSome = true
    ∧ (enters.actRow 0 (tile7 d) 0 0).map (fun r => r.1) = some .done
    ∧ rowSent (drains.putRow 0 (tile7 d) 0 (List.replicate 64 0)) ((drains.setSt 0).arr 0) = true := by decide +kernel

theorem meets_ArraysRunTiles_ends :
    let d := tileBytes 0 2 1 (2 ^ 62 + 0x8000)
    let ovr := running d [] 0 none none .init none
    let failed := running d [] 3 (some 0) none .init none
    let ramps (r : Ramp) := running d [] 0 none none { Arr.init with ramp := r } none
    let paused : State := { bound runs with pwr := { (bound runs).pwr with throttled := 1 } }
    (ovr.setSt 0).tiles.find? (ovr.tileOver 0) = some ⟨tile7 d, [], 0, none⟩ ∧ (Status.ofNum 0).stops = false
    ∧ (failed.setSt 0).tiles.find? (failed.tileOver 0) = some ⟨tile7 d, [], 3, some 0⟩ ∧ (Status.ofNum 3).stops = true
    ∧ (tile7 d).addr + 13 < setMemBytes ∧ ((ramps .up).setSt 0).arr 0 = { Arr.init with ramp := .up } ∧ (ramps .up).arraysRun 0 = true
    ∧ ((ramps .down).setSt 0).arr 0 = { Arr.init with ramp := .down } ∧ bit paused.pwr.throttled 0 = true
    ∧ bit (bound runs).pwr.throttled 0 = false := by decide +kernel

theorem test_tile_complete : gives (.tileComplete 0) (running (tileBytes 0 2 1 (2 ^ 62 + 0x8000)) [] 0 none none .init none) fun t =>
    decide ((t.setSt 0).counter 4 = 3 ∧ (t.setSt 0).tiles = []) := by decide +kernel

theorem meets_CutInFaultsAndPreemption :
    let d := tileBytes 0 2 1 (2 ^ 62 + 0x8000)
    let taker : SetState := { runs with run := .idle, cutin := true, crewSize := 2, crewIndex := 0, crew := [0, 1] }
    let owner : SetState := { runs with routine := 1, crewSize := 2, crewIndex := 1, crew := [0, 1], queue := [tile7 d] }
    let pair : State := { bound taker with sets := [(0, taker), (1, owner)] }
    let enters := running d [] 0 none (some ⟨7, 0, 0, true⟩) { Arr.init with cur := some ⟨7, 0, 1, 0⟩ } none
    let drains := running d [] 0 none none { Arr.init with drain := some ⟨7, 0, 1, 0⟩ } none
    pair.cutinIdle 0 = true ∧ pair.cutinFrom 0 = some (1, tile7 d) ∧ (bound runs).cutinIdle 0 = false
    ∧ 0 ∈ enters.arraysOf 0 ∧ (enters.setSt 0).faulted 0 false = some ⟨tile7 d, [], 0, none⟩
    ∧ (drains.setSt 0).faulted 0 true = some ⟨tile7 d, [], 0, none⟩ ∧ 2 ∉ enters.arraysOf 0 ∧ (enters.setSt 0).fusedOf 7 = none
    ∧ enters.ownSet 1 0 = some (enters.setSt 0) := by decide +kernel

theorem meets_CutInFaultsAndPreemption_fused :
    let d := tileBytes 0x10 2 4 0
    let head (len addr : Nat) : State := bound { runs with queue := [{ tile7 d with body := some (len, addr) }] }
    let words : State := { head 1 0x10000 with mem := { (head 1 0x10000).mem with
      a := SMap.write [] 0 0x10000 (toBytes 8 (encV 0x18 0 1 0 0 0 false none 0).toNat) } }
    let ended := { runs with tiles := [⟨tile7 d, [], 0, none⟩], fused := some ⟨7, none, [0], 0, 1, 1, 1, 0, [], 0, [], 0, 64, [], []⟩ }
    (words.setSt 0).queue.head?.map Tile.body = some (some (1, 0x10000)) ∧ words.unitRuns 0 = true ∧ (words.setSt 0).live = true
    ∧ words.paused 0 = false
    ∧ words.fuseStart 0 { tile7 d with body := some (1, 0x10000) } [] 1 0x10000 = .run [encV 0x18 0 1 0 0 0 false none 0] false
    ∧ (head 1 0x900000).fuseStart 0 { tile7 d with body := some (1, 0x900000) } [] 1 0x900000 = .fail .access
    ∧ ((bound ended).setSt 0).findRun 7 = some ⟨tile7 d, [], 0, none⟩ ∧ (ended.fused.map Fused.busy) = some false := by decide +kernel

theorem meets_CutInFaultsAndPreemption_points :
    let asked := bound { runs with soft := true }
    let parked := bound { runs with soft := true, atPoint := true }
    asked.ready = true ∧ (asked.setSt 0).bound = true ∧ (asked.setSt 0).atPoint = false ∧ (asked.setSt 0).atBoundary = true
    ∧ asked.promReads 0 = false ∧ ((bound runs).setSt 0).soft = false ∧ ((bound runs).setSt 0).hard = false
    ∧ (parked.setSt 0).atPoint = true ∧ (parked.setSt 0).lentFrom = none ∧ parked.moves 0 = false ∧ parked.fencedSlot 1 = false := by
  decide +kernel

/-! ### Promenades -/

/-- A promenade descriptor: operation, LENGTH, and its three 8-byte operands. -/
def promBytes (op len a b c : Nat) : List Byte :=
  [2, 1, 0, 0] ++ toBytes 1 op ++ zeroBytes 1 ++ toBytes 1 5 ++ zeroBytes 1 ++ toBytes 4 len ++ toBytes 4 1 ++ toBytes 8 a ++ toBytes 8 b
    ++ toBytes 8 c ++ toBytes 2 2 ++ zeroBytes 22

/-- Set 0 with one promenade descriptor, and a mounted tier C extent of 8 blocks. -/
def proms (started : Bool) (st : Nat) (ending : Bool) (d : List Byte) : State :=
  (bound { runs with proms := [⟨3, d, 0x80, started, 0, 0, [], 0, st, ending, 4⟩] }).setF CTX_S_EXT_BLOCKS 1 0 8

theorem meets_PromenadesMoveBlocks :
    let copy := promBytes 1 64 0x600000 0x600100 0
    let fill := promBytes 2 64 7 0x600100 0
    let read := promBytes 4 4096 0 0x600000 0
    let write := promBytes 5 4096 0x600000 0 0
    let far := promBytes 5 4096 0x600000 9 0
    (∀ e ∈ [(1, copy), (2, fill), (4, read), (5, write)], let s := proms false 0 false e.2
      (s.setSt 0).proms.find? (fun p => !p.started) = some ⟨3, e.2, 0x80, false, 0, 0, [], 0, 0, false, 4⟩
      ∧ (⟨3, e.2, 0x80, false, 0, 0, [], 0, 0, false, 4⟩ : Prom).op = e.1 ∧ s.unitRuns 0 = true ∧ (s.setSt 0).live = true
      ∧ s.get MEM_C_STATE = 1)
    ∧ (proms false 0 false far).getF CTX_S_EXT_BLOCKS 1 0 < 9 + 1 ∧ ((proms false 0 false write).set MEM_C_STATE 0).get MEM_C_STATE = 0 := by
  decide +kernel

theorem meets_PromenadesMoveBlocks_blocks :
    let copy := promBytes 1 64 0x600000 0x600100 0
    let s := proms true 0 false copy
    let p : Prom := ⟨3, copy, 0x80, true, 0, 0, [], 0, 0, false, 4⟩
    let away := { proms true 0 false (promBytes 1 64 0x400000 0x600100 0) with regs := (linked runs).regs }
    (s.setSt 0).proms[0]? = some p ∧ s.unitRuns 0 = true ∧ p.over = false ∧ s.promReading 0 3 = false ∧ 0 < p.block
    ∧ (s.target 0 p.src .r).1 = .here 1 0 ∧ p.block ≤ (s.target 0 p.src .r).2.1
    ∧ ((s.target 0 p.src .r).2.2.readTarget 0 2 (.here 1 0) p.block).1 = .done
    ∧ (s.target 0 p.dst .w).1 = .here 1 0x100
    ∧ ((s.target 0 p.dst .w).2.2.writeTarget 0 2 (.here 1 0x100) (zeroBytes 64)).1 = .done
    ∧ (s.tcRead 0 2 0 1).1 = .done ∧ (s.tcWrite 0 (zeroBytes 4096) (.prom 0 3)).1 = .done
    ∧ (away.target 0 0x400000 .r).1 = .away ⟨9, 0, 0⟩
    ∧ ((away.target 0 0x400000 .r).2.2.remote 0 1 0x400000 ⟨9, 0, 0⟩ (.readBlock 64) (.prom 0 3)).1 = .sent := by decide +kernel

theorem meets_PromenadesMoveBlocks_ends :
    let fill := promBytes 2 0 7 0x600100 0
    let s := proms true 0 true fill
    let f := proms true 3 true fill
    ((s.setSt 0).proms.find? fun p => p.started && p.over && !s.promFlying 0 p.id) = some ⟨3, fill, 0x80, true, 0, 0, [], 0, 0, true, 4⟩
    ∧ ((f.setSt 0).proms.find? fun p => p.started && p.over && !f.promFlying 0 p.id) = some ⟨3, fill, 0x80, true, 0, 0, [], 0, 3, true, 4⟩
    ∧ s.unitRuns 0 = true ∧ (s.setSt 0).bound = true ∧ State.reset.unitRuns 0 = false := by decide +kernel

theorem test_fill_block : gives (.promenadeBlock 0 0) (proms true 0 false (promBytes 2 8 0x1122 0x600100 0)) fun t =>
    decide (t.mem.b = [(0x100, 0x22), (0x101, 0x11)]) := by decide +kernel

/-! ### Updates -/

/-- An UPDATE descriptor of one table entry, and its place in the queue. -/
def updDesc (n : Nat) : RoundDesc := ⟨[4, 1, 0, 0, 2, 0, 6, 0] ++ toBytes 8 0x10000 ++ zeroBytes 4 ++ toBytes 4 n ++ zeroBytes 12 ++ toBytes 2 3
  ++ zeroBytes 26, 0x100, 0, 1, 0⟩

/-- The bound context with an update queue and progress; its one table entry, in tier A, is disabled. -/
def updates (q : List RoundDesc) (u : Option Upd) : State :=
  { bound runs with frz := [(1, { FrzSlot.init with queue := q, update := u })] }

/-- The state in which the head of the queue has been taken, and the one after the table's span is resolved. -/
def popped : State := (updates [updDesc 1] none).frzPop 1
def tableRead : State := (popped.resolve 0 1 0x10000 .r).2.2.2

theorem table_reads : ∃ t, popped.checkTable 1 (updDesc 1).desc = (.done, [], t) ∧ t.getF CTX_S_STEP_OVERRANGE 1 0 = 0 := by
  obtain ⟨t, ht, hs⟩ := Laws.ctxRead_lines popped tableRead 0 1 1 0 (runFuel 128 - 2) 0x10000 128 0x10000 (2 ^ 22 - 0x10000)
    (by decide) (by decide) (Prod.ext (by decide +kernel) (Prod.ext (by decide +kernel) (Prod.ext (by decide +kernel) (by delta tableRead; rfl))))
    (by decide +kernel) (by decide +kernel) (by unfold Laws.clean; decide +kernel)
  have hb : popped.ctxBytes 1 1 0 (0x10000 + 128 * 0) 128 = (.done, (tableRead.tier 0).read 0 0x10000 128, t) := by
    have e1 : runFuel 128 = runFuel 128 - 2 + 2 := by decide
    have e2 : 0x10000 + 128 * 0 = 0x10000 := by decide
    unfold State.ctxBytes
    rw [e2, e1]
    exact ht
  have hl : (List.range (leAt (updDesc 1).desc 20 4)).map (· + leAt (updDesc 1).desc 16 4) = [0] := by decide +kernel
  have ha : leAt (updDesc 1).desc 8 8 = 0x10000 := by decide +kernel
  have ho : entryOn ((tableRead.tier 0).read 0 0x10000 128) = false := by decide +kernel
  have hr : popped.readTable 1 0x10000 [0] = (.done, [], t) := by
    unfold State.readTable
    simp only [hb, ho, State.readTable]
    rfl
  refine ⟨t, ?_, ?_⟩
  · unfold State.checkTable
    rw [hl, ha, hr]
    rfl
  · rw [Laws.getF_same tableRead t hs _ _ _ (by decide)]
    decide +kernel

theorem meets_UpdatesRewriteBlocksAndComplete :
    let s := updates [updDesc 1] none
    let s0 := updates [updDesc 0] none
    s.frzHead 1 2 = some (updDesc 1) ∧ s0.frzHead 1 2 = some (updDesc 0) ∧ leAt (updDesc 0).desc 20 4 = 0 ∧ leAt (updDesc 1).desc 20 4 ≠ 0
    ∧ (s.frzSlot 1).update = none ∧ (s.frzSlot 1).drain = none
    ∧ (∃ t, (s.frzPop 1).checkTable 1 (updDesc 1).desc = (.done, [], t) ∧ t.getF CTX_S_STEP_OVERRANGE 1 0 = 0)
    ∧ (updates [] none).frzHead 1 2 = none :=
  ⟨by decide +kernel, by decide +kernel, by decide +kernel, by decide +kernel, rfl, rfl, table_reads, by decide +kernel⟩

theorem meets_UpdatesRewriteBlocks_rest :
    let e := [1, 1] ++ zeroBytes 6 ++ toBytes 4 2 ++ zeroBytes 4 ++ (List.replicate 5 (toBytes 8 0x900000)).flatten ++ zeroBytes 72
    let clears := [1, 1] ++ zeroBytes 6 ++ toBytes 4 2 ++ zeroBytes 28 ++ toBytes 8 0x600000 ++ zeroBytes 80
    let u (m st : Nat) (es : List Byte) : Upd := ⟨updDesc 1, m, [(0, es, 0x3F800000)], 0, st, false⟩
    let done (m st : Nat) : Upd := ⟨updDesc 1, m, [], 0, st, false⟩
    ((updates [] (some (u 0 0 e))).readBlock 1 e 0).1.status = .access
    ∧ ((updates [] (some (u 1 0 clears))).ctxPut 1 1 (blockAddr clears 40 6 0) (List.replicate 384 0)).1 = .done
    ∧ (updates [] (some (u 0 0 e))).ready = true ∧ (updates [] (some (u 0 0 e))).fencedSlot 1 = false
    ∧ (∀ x ∈ [done 0 0, done 1 3], let s := updates [] (some x)
        (s.frzSlot 1).update = some x ∧ s.journals 1 = false ∧ s.replaying 1 = false ∧ (s.ownSet 1 0).map SetState.lentFrom = some none)
    ∧ (Status.ofNum 3).stops = true := by decide +kernel

theorem test_update_complete : gives (.updateComplete 1) (updates [] (some ⟨updDesc 1, 1, [], 0, 0, false⟩)) fun t =>
    decide ((t.setSt 0).counter 6 = 3 ∧ (t.frzSlot 1).update = none) := by decide +kernel
/-! ### Freezes -/

/-- A freeze-engine descriptor: operation, freeze slot, enabled entries, number of pieces, channel. -/
def frzDesc (op fslot n pieces ch : Nat) : RoundDesc :=
  ⟨[4, 1, 0, 0] ++ toBytes 1 op ++ [0, 6] ++ toBytes 1 fslot ++ toBytes 8 0x10000 ++ zeroBytes 4 ++ toBytes 4 n ++ zeroBytes 8
    ++ toBytes 4 pieces ++ toBytes 2 3 ++ toBytes 2 ch ++ zeroBytes 24, 0x100, 0, 1, 0⟩

/-- The bound context with its freeze engine in some state. -/
def frozen (z : FrzSlot) : State := { (bound runs).setF CTX_S_EXT_BLOCKS 1 0 8 with frz := [(1, z)] }

/-- A table whose one entry, of zeros on clean lines of tier A, is disabled reads as no entries. -/
theorem table_off (s s1 : State) (d : List Byte) (left : Nat) (hn : 128 ≤ left)
    (hr : s.resolve 0 1 0x10000 .r = (.done, ⟨s1.self, 0, 0x10000⟩, left, s1))
    (hg : s1.guard s1.self (s1.ctxOf 1) 0 0x10000 128 .load = (.done, s1)) (ht : 0x10000 + 128 ≤ s1.tierSize 0)
    (hc : ∀ l ∈ linesOf 0x10000 128, Laws.clean s1 l) (ho : entryOn ((s1.tier 0).read 0 0x10000 128) = false)
    (hl : (List.range (leAt d 20 4)).map (· + leAt d 16 4) = [0]) (ha : leAt d 8 8 = 0x10000) :
    ∃ t, s.checkTable 1 d = (.done, [], t) := by
  obtain ⟨t, ht, hs⟩ := Laws.ctxRead_lines s s1 0 1 1 0 (runFuel 128 - 2) 0x10000 128 0x10000 left (by decide) hn hr hg ht hc
  have hb : s.ctxBytes 1 1 0 (0x10000 + 128 * 0) 128 = (.done, (s1.tier 0).read 0 0x10000 128, t) := by
    have e1 : runFuel 128 = runFuel 128 - 2 + 2 := by decide
    have e2 : 0x10000 + 128 * 0 = 0x10000 := by decide
    unfold State.ctxBytes
    rw [e2, e1]
    exact ht
  have hr : s.readTable 1 0x10000 [0] = (.done, [], t) := by
    unfold State.readTable
    simp only [hb, ho, State.readTable]
    rfl
  refine ⟨t, ?_⟩
  unfold State.checkTable
  rw [hl, ha, hr]
  rfl

/-- A RESTORE at the head of the queue; the state in which it has been taken; and one in which it is nearly over. -/
def restores : State := frozen { FrzSlot.init with queue := [frzDesc 3 0 1 0 0] }
def restoring : State := restores.frzPop 1
def restoreRead : State := (restoring.resolve 0 1 0x10000 .r).2.2.2

theorem meets_FreezesDrainExportAndRestore :
    let q (d : RoundDesc) : FrzSlot := { FrzSlot.init with queue := [d] }
    let s := frozen (q (frzDesc 1 0 1 0 0))
    let none_ := s.set MEM_C_STATE 0
    let w : Drain := ⟨frzDesc 1 0 1 0 0, 0, 1, 1, 0, []⟩
    s.frzHead 1 1 = some (frzDesc 1 0 1 0 0) ∧ (frozen (q (frzDesc 1 0 0 0 0))).frzHead 1 1 = some (frzDesc 1 0 0 0 0)
    ∧ (s.frzSlot 1).parity = none ∧ leAt (frzDesc 1 0 1 0 0).desc 20 4 ≠ 0 ∧ leAt (frzDesc 1 0 0 0 0).desc 20 4 = 0
    ∧ ((frozen { q (frzDesc 1 0 1 0 0) with parity := some ⟨0, 1, [], 0, [], []⟩ }).frzSlot 1).parity ≠ none
    ∧ s.get MEM_C_STATE = 1 ∧ none_.get MEM_C_STATE ≠ 1 ∧ (frozen (q (frzDesc 2 0 1 0 0))).frzHead 1 1 = none
    ∧ ((frozen { FrzSlot.init with drain := some w }).frzSlot 1).drain = some w ∧ bit (leAt w.desc.desc 2 2) 0 = false
    ∧ ({ s with tierC := { s.tierC with flying := [⟨2, zeroBytes 4096, .drain 1⟩] } } : State).tierC.flying = ⟨2, zeroBytes 4096, .drain 1⟩ :: []
    ∧ ({ w with parts := [(2, 0x10000, 256)] } : Drain).parts.find? (fun p => decide (p.1 = 2)) = some (2, 0x10000, 256)
    ∧ ((frozen { FrzSlot.init with drain := some { w with parts := [(2, 0x10000, 256)] } }).frzSlot 1).drain ≠ none
    ∧ s.tierC.flying = [] := by decide +kernel

theorem meets_FreezesExportAndRestore_heads :
    let q (d : RoundDesc) : FrzSlot := { FrzSlot.init with queue := [d] }
    let x := frozen (q (frzDesc 4 0 1 0 2))
    let held : State := { x with tierC := { x.tierC with
      bytes := [(0, 0x48), (1, 0x56), (2, 0x46), (3, 0x52), (4, 0x45), (5, 0x45), (6, 0x5A), (7, 0x45), (8, 1), (9, 1), (10, 1), (12, 7)] } }
    x.frzHead 1 4 = some (frzDesc 4 0 1 0 2) ∧ leAt (frzDesc 4 0 1 0 2).desc 38 2 < 64
    ∧ (0 + 1) * x.slotBlocks 1 ≤ x.getF CTX_S_EXT_BLOCKS 1 0
    ∧ 4096 * (x.exportBlocks 1 0).length ≤ x.get64 MBX_T_REMOTE_LEN_LO MBX_T_REMOTE_LEN_HI 2 ∧ x.slotSeq 1 0 = none
    ∧ held.slotSeq 1 0 = some 7 ∧ held.getF MBX_T_QP_STATE 2 0 ≠ 1 ∧ (held.setF MBX_T_QP_STATE 2 0 1).getF MBX_T_QP_STATE 2 0 = 1
    ∧ ((frozen { FrzSlot.init with exporting := some ⟨frzDesc 4 0 1 0 2, 0⟩ }).frzSlot 1).exporting = some ⟨frzDesc 4 0 1 0 2, 0⟩
    ∧ x.mbx.rdma = [] ∧ restores.frzHead 1 3 = some (frzDesc 3 0 1 0 0) ∧ x.fencedSlot 1 = false := by decide +kernel

theorem meets_FreezesRestore_table : (∃ t, restoring.checkTable 1 (frzDesc 3 0 1 0 0).desc = (.done, [], t))
    ∧ ∀ t : State, t.readPieces 1 0 (leAt (frzDesc 3 0 1 0 0).desc 32 4) = (.done, [], t) ∧ t.derive 1 [] = (.done, t) :=
  ⟨table_off restoring restoreRead _ (2 ^ 22 - 0x10000) (by decide)
    (Prod.ext (by decide +kernel) (Prod.ext (by decide +kernel) (Prod.ext (by decide +kernel) (by delta restoreRead; rfl))))
    (by decide +kernel) (by decide +kernel) (by unfold Laws.clean; decide +kernel) (by decide +kernel) (by decide +kernel)
    (by decide +kernel), fun _ => ⟨rfl, rfl⟩⟩

theorem test_tier_c_write_done : gives (.tierCWriteDone 1)
    { ready with tierC := { ready.tierC with flying := [⟨2, toBytes 4 9, .parity 1⟩] } } fun t =>
    decide (t.tierC.bytes = [(8192, 9)] ∧ t.tierC.flying = [] ∧ t.get MEM_C_PROG_LO = 1) := by decide +kernel

/-- The bound context as member 0 of the stripe of modules 0, 9, 10 and 11, its slot of 6 blocks staged in tier A. -/
def striped (z : FrzSlot) : State :=
  let s := ((frozen z).setF FRZ_S_MEMBER1 1 0 9).setF FRZ_S_SLOT_BLOCKS 1 0 6
  let s := (s.setF FRZ_S_STRIPE_VALID 1 0 1).setF FRZ_S_PARITY_SLOTS 1 0 1
  s.setF FRZ_S_STAGE_ADDR_LO 1 0 0x600000

theorem meets_ParityAndRebuild :
    let p : Parity := ⟨0, 5, [⟨0, [(1, 0)]⟩], 1, [], [(1, 0)]⟩
    let s := striped { FrzSlot.init with parity := some p }
    let idle := striped FrzSlot.init
    let ovr : Rebuild := ⟨3, 5, 0, [], [], 0⟩
    s.slotOf 4 = none ∧ s.slotOf 5 = some 1 ∧ s.ready = true ∧ s.fencedSlot 1 = false ∧ s.stripeIndex 1 9 = some 1
    ∧ (s.frzSlot 1).parity = some p ∧ p.seq = 5 ∧ (p.granted.find? fun x => decide (x.window = 0)) = some ⟨0, [(1, 0)]⟩
    ∧ 0 < s.windowBlocks 1 0 ∧ 1 < s.windowBlocks 1 0 ∧ (1, 1) ∉ [(1, 0)] ∧ ([(1, 0)] : List (Nat × Nat)).length + 1 < 3 * s.windowBlocks 1 0
    ∧ (1, 0) ∈ p.owe ∧ (idle.frzSlot 1).parity = none ∧ idle.getF FRZ_S_PROTECTED_SEQ 1 0 < 5 ∧ 0 < idle.windows 1
    ∧ 1 ≠ s.stripeSelf 1 ∧ s.get FRZ_BUSY = 0 ∧ idle.getF CTX_S_STATE 1 0 ≠ 0 ∧ idle.getF FRZ_S_STRIPE_VALID 1 0 ≠ 0
    ∧ idle.slotBlocks 1 % 3 = 0 ∧ idle.third 1 ≠ 0 ∧ (idle.frzSlot 1).drain = none ∧ (idle.frzSlot 1).rebuild = none
    ∧ idle.get MEM_C_STATE = 1 ∧ (frozen FrzSlot.init).getF FRZ_S_STRIPE_VALID 1 0 = 0
    ∧ ((striped { FrzSlot.init with rebuild := some ovr }).frzSlot 1).rebuild = some ovr := by decide +kernel

theorem meets_ParityAndRebuild_part :
    let p : Parity := ⟨0, 5, [⟨0, [(1, 0)]⟩], 1, [], [(1, 0)]⟩
    let s := (striped { FrzSlot.init with parity := some p }).setF FRZ_S_STAGE_ADDR_LO 1 0 0x200000
    s.stageAt 1 0 = 0x200000 ∧ (s.resolve 0 1 (s.stageAt 1 0 + 4096) .r).1 = .done
    ∧ (s.resolve 0 1 (s.stageAt 1 0 + 4096) .r).2.1 = ⟨s.self, 0, 0x201000⟩ := by decide +kernel

theorem test_stale_part : gives (.parityPart 9 5 4 0 0 [1]) (striped { FrzSlot.init with parity := some ⟨0, 5, [], 0, [], []⟩ }) fun t =>
    decide (t.get FRZ_STALE_PARITY = 1) := by decide +kernel

/-! ### Optics -/

/-- Engine 0's comb in a state, with every line present. -/
def comb (c : Nat) : State := ((ready.setF OPT_E_COMB_STATE 0 0 c).setF OPT_E_LINE_OK 0 0 0xFFFFFFFF).setF OPT_LN_TARGET_LINE 0 3 7

/-- Lane 3, transmit side, in a state on a READY comb. -/
def laneIn (st : Nat) : State := (comb 3).setF OPT_LN_TX_STATE 0 3 st

theorem meets_CombsAndLanesLockAndHold :
    (comb 1).getF OPT_E_COMB_STATE 0 0 = 1 ∧ (comb 2).getF OPT_E_COMB_STATE 0 0 = 2 ∧ (comb 3).getF OPT_E_COMB_STATE 0 0 = 3
    ∧ (∀ st ∈ [1, 2, 3, 4, 5, 6, 7], (laneIn st).laneSt 3 false = st ∧ (laneIn st).shortPort 0 = false ∧ (laneIn st).linkOf 3 = none)
    ∧ (laneIn 1).engineLit 3 = true ∧ (laneIn 1).bankBusy 3 false = false ∧ (laneIn 1).lineOf 3 false = 7
    ∧ bit ((laneIn 1).getF OPT_E_LINE_OK 0 0) 7 = true ∧ ((laneIn 2).setF OPT_LN_TX_FAILS 0 3 2).fails 3 false = 2
    ∧ (∀ k < 16, (laneIn 5).laneSt k false ≠ 6) ∧ 7 ∉ (laneIn 4).opt.settling
    ∧ ({ laneIn 4 with opt := { (laneIn 4).opt with settling := [6] } } : State).opt.settling = [6] := by decide +kernel

theorem meets_CombsAndLanes_rest :
    (comb 3).reached .caller (OPT_P_MATRIX_COMMIT.addr 0 0) ∧ (comb 3).reached .caller (OPT_LN_TARGET_LINE.addr 0 3)
    ∧ (comb 3).getF OPT_LN_TARGET_LINE 0 3 = 7 ∧ (∀ k < 16, (comb 3).getF OPT_LN_TARGET_LINE 0 k ≠ 9) ∧ (comb 3).links.outbox = []
    ∧ (comb 3).dieOn 0 = true := by unfold State.reached; decide +kernel

theorem meets_CombsAndLanes_links : ∀ L < 192, (comb 3).getF LNK_L_LINK_STATE L 0 = 0 := by decide +kernel

theorem test_identify : gives (.identify 3 false (some 7)) (laneIn 3) (fun t => decide (t.laneSt 3 false = 4))
    ∧ gives (.identify 3 false (some 8)) (laneIn 3) (fun t => decide (t.fails 3 false = 1 ∧ t.get OPT_MISLOCKS = 1)) := by decide +kernel

/-! ### Drawings and links -/

theorem meets_DrawingsAndRoutes :
    let s := ready.set TOP_PEND_SET 0x0001FFFE
    let good := ready.set TOP_PEND_SET 0x0101FF01
    ready.links.outbox = [] ∧ ready.reached .caller (TOP_DRAW_CMD.addr 0 0) ∧ ready.get TOP_BUSY = 0 ∧ (ready.set TOP_BUSY 1).get TOP_BUSY = 1
    ∧ s.drawOk = false ∧ ready.links.retuned = [] ∧ ready.reached .caller (TOP_RT_PORT.addr 3 0) ∧ ready.routeCode 0xFF = true
    ∧ ready.routeCode 0x40 = false ∧ good.get TOP_PEND_SET = 0x0101FF01 := by unfold State.reached; decide +kernel

/-- Port 0 on, its lanes enabled, expecting module 9; its link in a state, with what it keeps. -/
def link0 (st : Nat) (x : Link) : State :=
  let s := ((ready.set OPT_PORT_ENABLE 1).setF LNK_P_EXPECTED 0 0 9).setF LNK_L_LINK_STATE 0 0 st
  let s := (s.setF OPT_LN_TX_STATE 0 0 5).setF OPT_LN_RX_STATE 0 0 5
  let s := (s.setF LNK_L_RX_LANES 0 0 1).setF LNK_L_TX_LANES 0 0 1
  { s with links := { s.links with links := [(0, x)], handed := true } }

/-- Lane 16, of the router-facing port 1, in loopback. -/
def loops : State :=
  let s := ((ready.set OPT_PORT_ENABLE 2).set OPT_ROUTER_FACING 2).setF OPT_LN_TX_STATE 1 0 5
  { s.setF OPT_LN_RX_STATE 1 0 5 with links := { s.links with handed := true } }

/-- A HELLO from module 9 in the same mode, grid and generation range. -/
def hello9 : List Byte := [1, 1, 1, 0] ++ toBytes 2 9 ++ zeroBytes 8 ++ zeroBytes 26

theorem meets_LinksTrainHoldAndRetrain :
    let al : Link := { Link.init with aligned := [(0, 0)] }
    let s := (link0 2 { al with hello := [(0, hello9)] })
    loops.loopback 16 = true ∧ loops.laneOn 16 = true ∧ loops.links.handed = true
    ∧ (∀ st ∈ [1, 2, 3, 4, 5, 6], (link0 st al).linkOf 0 = some 0 ∧ (link0 st al).laneOn 0 = true ∧ (link0 st al).links.outbox = []
        ∧ (link0 st al).loopback 0 = false ∧ (link0 st al).getF LNK_L_LINK_STATE 0 0 = st)
    ∧ ((link0 1 Link.init).lk 0).aligned = [] ∧ ((link0 3 al).lk 0).aligned = [(0, 0)] ∧ (let x := (link0 3 { al with told := 1 }).lk 0; x.receives &&& x.told = x.receives) ∧ s.rxOn 0 = true
    ∧ (s.lk 0).hello.find 0 = some hello9 ∧ leAt hello9 4 2 % 4096 = 9 ∧ s.expectedOf 0 = 9 ∧ s.get LNK_PORT_AGNOSTIC = 0
    ∧ leAt hello9 3 1 % 2 = bitOf (s.shortPort 0) ∧ leAt hello9 11 1 % 8 = s.get TOP_MODE + 2 * s.get TOP_NETWORKS
    ∧ leAt hello9 14 1 = s.get TOP_GRID_X ∧ leAt hello9 15 1 = s.get TOP_GRID_Y
    ∧ bit ((link0 4 al).getF LNK_L_RX_LANES 0 0) 0 = true ∧ bit ((link0 5 { al with removed := 1 }).lk 0).removed 0 = true
    ∧ (s.lk 0).greeted = false ∧ (s.lk 0).missing = false
    ∧ s.reached .caller (LNK_P_REFORM.addr 0 0) ∧ leAt (3 :: zeroBytes 39) 0 1 = 3 := by unfold State.reached; decide +kernel

/-- The image's generation range, which HELLO compares. -/
theorem meets_LinksTrain_generations : let s := (ready.set LNK_GEN_MIN 1).set LNK_GEN_MAX 1
    max (s.get LNK_GEN_MIN) (leAt hello9 1 1) ≤ min (s.get LNK_GEN_MAX) (leAt hello9 2 1) := by decide +kernel

theorem meets_LinksTrain_clock : let s := (link0 3 Link.init).set OPT_SHORT_MODE 1
    s.shortPort 0 = true ∧ s.linkOf 0 = some 0 ∧ s.getF LNK_L_LINK_STATE 0 0 = 3 := by decide +kernel

/-- A flit of 256 bytes with a header, its CRC right. -/
def flitWith (h : Nat) : List Byte := let b := toBytes 16 (h + 2 ^ 100) ++ zeroBytes 232
  b ++ toBytes 8 (crc64xz b)

theorem meets_FlitsAreNumberedKeptAndReplayed :
    let idle := flitWith 0
    let data := flitWith (2 ^ 36)
    let away := flitWith (2 ^ 36 + 7 * 2 ^ 52 + 15 * 2 ^ 104)
    let f : Flit := flitOf data
    let kept : Link := { Link.init with kept := [(4, f)], credits := [(0, 3)], queues := [(0, [f])] }
    let re : Link := { kept with replay := some (4, [4]) }
    badFlit idle false = false ∧ badFlit data false = false ∧ badFlit away false = false ∧ badFlit idle true = true
    ∧ bit (leAt data 0 16) 35 = false ∧ (flitOf idle).ftype = 0 ∧ (flitOf data).ftype = 1 ∧ (flitOf data).dest = ready.self
    ∧ (flitOf away).dest ≠ ready.self ∧ (flitOf away).hops = 15 ∧ bits (leAt data 0 16) 15 0 = Link.init.expect
    ∧ ((link0 4 re).lk 0).replay = some (4, 4 :: []) ∧ (((link0 4 re).lk 0).kept.find? fun e => decide (e.1 = 4)) = some (4, f)
    ∧ (link0 4 kept).portKept 0 < 4096 ∧ (link0 4 kept).get MIS_PERMIT = 0 ∧ (link0 4 Link.init).mayVc 0 [] = []
    ∧ ((link0 4 { kept with reorder := some (0, 4, f) }).lk 0).reorder = some (0, 4, f)
    ∧ ((link0 4 kept).set LNK_RETRY_LIMIT 8).get LNK_RETRY_LIMIT = 8 ∧ (link0 3 kept).getF LNK_L_LINK_STATE 0 0 = 3 := by decide +kernel

/-- The same link with a flit queued, credits for it and a weight for its virtual channel. -/
def linkQueued : State :=
  (link0 4 { Link.init with credits := [(0, 3)], queues := [(0, [flitOf (flitWith (2 ^ 36))])] }).set LNK_WEIGHT0_3 2

theorem meets_FlitsAreNumbered_turn : linkQueued.mayVc 0 [] = [0] := by decide +kernel

theorem test_flit_accepted : gives (.flitReceive 0 (flitWith (2 ^ 36)) 0 0 false) (link0 4 Link.init) fun t =>
    decide ((t.lk 0).expect = 1 ∧ (t.lk 0).owed.get 0 0 = 1) := by decide +kernel

theorem test_flit_crc : gives (.flitReceive 0 (zeroBytes 256) 0 0 false) (link0 4 Link.init) fun t =>
    decide (t.get LNK_CRC_ERRORS = 1 ∧ (t.lk 0).nakDue = true ∧ (t.lk 0).expect = 0) := by decide +kernel

/-! ### Rounds -/

/-- The bound context with entry 0 of the group table: one axis of `n` members, this module the first, and what the group holds. -/
def grouped (n state : Nat) (x : Group) : State :=
  let s := (bound runs).setF RND_G_STATE 0 0 state
  { s with
    regs := s.regs ++ [(0xB1000, 0x10001#32), (0xB1004, 0x00020005#32), (0xB100C, 0x20001#32), (0xB1010, BitVec.ofNat 32 n),
      (0xB101C, 1#32), (0xB1020, 0x1000#32), (0xB1028, 0x10000#32), (0xB1030, 0x4000#32)]
    groups := [(0, x)] }

/-- A round descriptor of the group: kind, blocks, counter step and tag; source and destination at address 0. -/
def roundDesc (op blocks inc tag : Nat) : RoundDesc :=
  ⟨[2, 1, 0, 0] ++ toBytes 1 op ++ zeroBytes 27 ++ toBytes 4 blocks ++ zeroBytes 12 ++ toBytes 2 inc ++ toBytes 2 tag ++ zeroBytes 12,
    0x100, 0, 1, 0⟩

/-- A round in progress: its descriptor, its current stage, and its stages. -/
def roundRun (d : RoundDesc) (stage : Nat) (stages : List (Nat × Nat)) : RoundRun :=
  ⟨d, stages, stage, 0, 0, [(0, leAt d.desc 32 4)], [], [], [], [], [], [], [], 0⟩

/-- The group of `n` members with a round in progress. -/
def rounds (n : Nat) (r : RoundRun) : State := grouped n 2 { Group.init with run := some r }

/-- A message of the group: opcode, flags, version, tag, sequence number, total, chunk and status. -/
def partMsg (op flags version tag rseq total chunk status : Nat) : List Byte :=
  partHeader op flags 2 0 version tag rseq 0 0 0 chunk total 0 0 0 0 status 0

theorem meets_RoundsCommitStart_commit :
    let s := grouped 1 1 Group.init
    let u := s.touchPath .caller
    let ws (w : Nat) := w :: (List.range 15).map fun k => s.word (groupWord 0 (k + 1))
    s.reached .caller (groupWord 0 0) ∧ (u.groupStore 0 (ws 0x10001)).groupCheck 0 = .done
    ∧ (u.groupStore 0 (ws 2)).groupCheck 0 = .done ∧ ((grouped 2 1 Group.init).touchPath .caller).groupCheck 0 ≠ .done
    ∧ (s.group 0).heldP = [] ∧ s.enc.replay = none ∧ s.enc.active = false ∧ (s.group 0).run = none ∧ (s.group 0).queue = [] := by
  unfold State.reached; decide +kernel

theorem meets_RoundsCommitStart_start :
    let d := roundDesc 4 2 1 9
    let s := grouped 1 1 { Group.init with queue := [d] }
    let r := roundRun d 0 (s.stagesOf 0 4)
    let s1 := (((s.putGroup 0 Group.init).putRun 0 r).setF RND_G_STATE 0 0 2).setF RND_G_TAG 0 0 (leAt d.desc 50 2)
    s.ready = true ∧ s.fencedSlot d.slot = false ∧ s.journalFull d.slot = false ∧ (grouped 1 3 Group.init).getF RND_G_STATE 0 0 = 3
    ∧ (grouped 1 4 Group.init).getF RND_G_STATE 0 0 = 4 ∧ s.getF RND_G_STATE 0 0 = 1 ∧ s.groupOn 0 = true ∧ leAt d.desc 4 1 = 4
    ∧ s1.startOk 0 r = true ∧ s1.roundFeatures 0 r = true ∧ leAt d.desc 16 8 = leAt d.desc 24 8
    ∧ (∀ st ∈ r.stages, s1.sends 0 r st = [] ∧ s1.recvs 0 r st = []) ∧ r.stages ≠ []
    ∧ (s.setSt (s.homeOf 1 0)).lentFrom ≠ some 1 ∧ (s.ownSet 1 0).isSome = true := by decide +kernel

theorem meets_RoundsCommitStart_messages :
    let s := rounds 2 (roundRun (roundDesc 1 0 1 9) 0 [(0, 0), (1, 0)])
    let m := partMsg 0x20 0 1 9 0 0 0 0
    s.ready = true ∧ leAt m 0 1 = 0x20 ∧ m.length = 48 ∧ s.groupFor m = some 0 ∧ ready.groupFor m = none
    ∧ s.slotOf (s.getF RND_E_CONTEXT 0 0) = some 1 ∧ s.fencedSlot 1 = false ∧ (s.group 0).heldP = [] ∧ s.enc.replay = none
    ∧ leAt (partMsg 0x20 0 0 9 0 0 0 0) 8 2 < s.getF RND_E_VERSION 0 0 ∧ s.groupFor (partMsg 0x20 0 0 9 0 0 0 0) = some 0
    ∧ leAt (partMsg 0x20 0 1 9 1 0 0 0) 8 2 = s.getF RND_E_VERSION 0 0 ∧ s.getF RND_G_RSEQ 0 0 < leAt (partMsg 0x20 0 1 9 1 0 0 0) 12 4 := by
  decide +kernel

theorem meets_RoundsCommitStart_parts :
    let r := roundRun (roundDesc 1 0 1 9) 0 [(0, 0), (1, 0)]
    let c := roundRun (roundDesc 5 0 1 9) 0 [(3, 0), (1, 0)]
    let m := partMsg 0x20 0 1 9 0 0 0 0
    let k := partMsg 0x21 0 1 9 0 0 0 0
    leAt m 12 4 = (rounds 2 r).getF RND_G_RSEQ 0 0 ∧ leAt m 1 1 % 4 = 0 ∧ leAt m 10 2 = leAt r.desc.desc 50 2
    ∧ (r.kindOf 0x20 (leAt m 1 1), leAt m 16 1) = (0, 0) ∧ r.stages[r.stage]? = some (0, 0)
    ∧ (((rounds 2 r).recvs 0 r (0, 0)).find? fun c => decide (c.1 = ⟨0, 0, leAt m 18 2, leAt m 20 4⟩)) = some (⟨0, 0, 0, 0⟩, 0, 0)
    ∧ leAt m 24 4 = (rounds 2 r).totalOf 0 r ∧ r.arriving = [] ∧ bit (leAt m 1 1) 4 = false
    ∧ (c.kindOf 0x21 (leAt k 1 1), leAt k 16 1) = (3, 0) ∧ c.stages[c.stage]? = some (3, 0)
    ∧ ((((rounds 2 c).recvs 0 c (3, 0)).find? fun e => decide (e.1 = ⟨3, 0, leAt k 18 2, leAt k 20 4⟩))).isSome = true := by decide +kernel

theorem meets_RoundsCommitStart_grant :
    let r := roundRun (roundDesc 1 0 1 9) 2 [(0, 0), (1, 0)]
    let r4 : RoundRun := { r with slots := [(0, 2)], kept := [(⟨0, 0, 0, 0⟩, ⟨[], 0, false⟩)] }
    let m := partMsg 0x22 0 1 9 0 0 1 0
    r4.stages[r4.stage]? = none ∧ bit (leAt m 1 1) 5 = false ∧ (0, 0) ∈ r4.stages ∧ phaseOf 0 = bitOf (bit (leAt m 1 1) 3)
    ∧ (rounds 2 r4).getF RND_E_RX_SLOTS 0 0 ≤ r4.slots.get 0 0 ∧ leAt m 20 4 = 1
    ∧ leAt (partMsg 0x23 0 1 9 0 0 0 7) 38 2 % 64 = 7 ∧ leAt (partMsg 0x23 0 1 9 0 0 0 7) 0 1 = 0x23 := by decide +kernel

theorem meets_RoundsCommitStart_ends :
    let d := roundDesc 4 2 1 9
    let r := roundRun d 1 [(2, 0)]
    let id : ChunkId := ⟨0, 0, 0, 0⟩
    let w := roundRun (roundDesc 1 0 1 9) 0 [(0, 0), (1, 0)]
    { r with late := [(id, true)] }.late = (id, true) :: [] ∧ { r with late := [(id, false)] }.late = (id, false) :: [] ∧ r.desc.slot < 32
    ∧ ((rounds 1 r).group 0).run = some r ∧ (rounds 2 w).roundWaits 0 w true = some 1 ∧ (rounds 2 w).roundWaits 0 w false = some 1
    ∧ (rounds 1 r).roundWaits 0 r false = none ∧ r.stages.length ≤ r.stage ∧ r.late = [] ∧ r.kept = [] ∧ r.status = 0
    ∧ w.stage < w.stages.length ∧ (rounds 1 r).ready = true := by decide +kernel

/-- R385: with a group in state 3, a round ends at once with its counter raised by the descriptor's step. -/
theorem test_round_after_failure : gives (.roundStart 0) (grouped 1 3 { Group.init with queue := [roundDesc 4 2 5 9] }) fun t =>
    decide ((t.setSt 0).counter 0 = 5 ∧ (t.group 0).queue = [] ∧ t.getF RND_G_STATE 0 0 = 3) := by decide +kernel

/-- R375: a part of an older version is stale. -/
theorem test_stale_round_part : gives (.part 9 (partMsg 0x20 0 0 9 0 0 0 0)) (rounds 2 (roundRun (roundDesc 1 0 1 9) 0 [(0, 0)])) fun t =>
    decide (t.get RND_STALE_PARTS = 1) := by decide +kernel

/-! ### Contexts -/

/-- The bound context with the CTX command registers set to act on a slot with a context number and an argument. -/
def ctxState (x : SetState) (slot ctx arg : Nat) : State :=
  (((bound x).set CTX_CMD_SLOT slot).set CTX_CMD_CONTEXT ctx).set CTX_CMD_ARG_LO arg

/-- A slot record with a save area. -/
def saves : List Byte := zeroBytes 56 ++ toBytes 8 0x200000 ++ zeroBytes 64

/-- Slot 2 bound as a guest of context 6, which a LEND binds, if `v`, to bubble 3 of slot 1. -/
def guested (x : SetState) (v arg : Nat) (sv : SMap SetState) (m : SMap Nat) : State :=
  let s := (((ctxState x 2 0 arg).setF CTX_S_CONTEXT 2 0 6).setF CTX_S_STATE 2 0 2).setF CTX_S_GUEST 2 0 1
  let s := ((s.setF CTX_S_LENDER_SLOT 2 0 1).setF CTX_S_LEND_BUBBLE 2 0 3).setF CTX_S_LEND_VALID 2 0 v
  { s with ctx := { s.ctx with slots := [(1, { slotOne with record := saves, saved := sv }), (2, { Slot.init with record := saves, bitmap := 1, setMap := m })] } }

theorem meets_ContextsAdmitMove_commands :
    let s := ctxState runs 1 7 0
    let u := s.touchPath .caller
    let free := (ctxState runs 3 7 (2 ^ 32 - 1)).touchPath .caller
    let g := (guested runs 0 (3 * 65536 + 1) [] []).touchPath .caller
    let v := (guested runs 1 (3 * 65536 + 1) [] []).touchPath .caller
    let w := (guested runs 0 1 [] []).touchPath .caller
    s.reached .caller (CTX_CMD.addr 0 0) ∧ u.get CTX_BUSY = 0 ∧ ((s.set CTX_BUSY 1).touchPath .caller).get CTX_BUSY = 1
    ∧ u.getF CTX_S_STATE (u.get CTX_CMD_SLOT) 0 ≠ 0 ∧ free.bound (free.get CTX_CMD_SLOT) = false ∧ free.slotOf 7 = none
    ∧ u.bound (u.get CTX_CMD_SLOT) = true ∧ u.getF CTX_S_GUEST 1 0 = 0 ∧ u.lentSets 1 = []
    ∧ g.bound 2 = true ∧ g.bound 1 = true ∧ g.get64 CTX_CMD_ARG_LO CTX_CMD_ARG_HI 0 % 32 = 1
    ∧ bits (g.get64 CTX_CMD_ARG_LO CTX_CMD_ARG_HI 0) 31 16 = 3 ∧ g.getF CTX_S_GUEST 2 0 ≠ 0 ∧ g.getF CTX_S_GUEST 1 0 ≠ 1
    ∧ g.bubbleEntry 1 3 ≠ none ∧ g.getF CTX_S_LEND_VALID 2 0 = 0 ∧ v.getF CTX_S_LEND_VALID 2 0 = 1
    ∧ w.bubbleEntry 1 (bits (w.get64 CTX_CMD_ARG_LO CTX_CMD_ARG_HI 0) 31 16) = none ∧ g.lentSets 2 = [] := by
  unfold State.reached; decide +kernel

/-- A record that begins past the end of tier A is refused at step 1. -/
theorem meets_ContextsAdmitMove_refused : let u := ((ctxState runs 3 7 0).set CTX_CMD_ARG_HI 256).touchPath .caller
    u.get64 CTX_CMD_ARG_LO CTX_CMD_ARG_HI 0 = 2 ^ 40
    ∧ ∃ v, (admission 3 7 (2 ^ 40) (u.get CTX_TC_FIRST)).run.run u = (.error (.access, 1 * 4096), v) :=
  ⟨by decide +kernel, _, by rfl⟩

/-- A re-bind list at the start of tier A: one entry, and the end. -/
def listAt (e : List Byte) : State := { ctxState runs 1 0 0 with mem := { ready.mem with a := SMap.write [] 0 0 e } }

/-- The list reads as its one entry, and the state keeps its contexts. -/
theorem list_reads (e : List Byte) (n : Nat) (hm : ((listAt e).touchPath .caller).mem.a.read 0 0 16 = e) (hk : leAt e 0 1 ≠ 0)
    (hz : leAt (((listAt e).touchPath .caller).mem.a.read 0 16 16) 0 1 = 0) (hn : 32 ≤ ((listAt e).touchPath .caller).tierSize 0)
    (hc : Laws.clean ((listAt e).touchPath .caller) 0) :
    ∃ v, ((listAt e).touchPath .caller).readList (n + 2) 0 = (.done, [e], v) := by
  generalize (listAt e).touchPath .caller = u at *
  have h1 := Laws.memRead_within u 2 0 16 0 (by decide) (by omega) hc
  have hs := Laws.sliceTouch_same u 0 hc.1
  have h2 := Laws.memRead_within (u.sliceTouch 0) 2 16 16 0 (by decide) (by rw [Laws.tierSize_same u _ hs]; omega)
    (Laws.clean_of_same u _ hs 0 hc)
  refine ⟨(u.sliceTouch 0).sliceTouch 0, ?_⟩
  have hm' : (u.tier 0).read 0 0 16 = e := hm
  have hz' : leAt (((u.sliceTouch 0).tier 0).read 0 16 16) 0 1 = 0 := hz
  unfold State.readList
  rw [h1, hm']
  simp only [ne_eq, not_true_eq_false, if_false, if_neg hk]
  unfold State.readList
  rw [h2]
  simp only [ne_eq, not_true_eq_false, if_false, hz', if_true]

/-- Lists that a REBIND refuses, by its codes, and takes. -/
theorem meets_ContextsAdmitMove_lists :
    let u (e : List Byte) := (listAt e).touchPath .caller
    let bad := [9, 0xFF] ++ zeroBytes 14
    let none_ := [2, 0xFF] ++ zeroBytes 14
    (∀ e ∈ [bad, none_], (u e).bound 1 = true ∧ (u e).get CTX_CMD_SLOT = 1 ∧ (u e).get64 CTX_CMD_ARG_LO CTX_CMD_ARG_HI 0 = 0
      ∧ ∃ v, (u e).readList (((u e).tierSize 0 - 0) / 16 + 1) 0 = (.done, [e], v))
    ∧ (∀ v : State, v.checkList 1 (listSets [bad]) [bad] ≠ .done ∧ v.checkList 1 (listSets [none_]) [none_] = .done)
    ∧ ∃ v, (((ctxState runs 1 0 0).set CTX_CMD_ARG_HI 256).touchPath .caller).readList 1 (2 ^ 40) = (.access, [], v) := by
  refine ⟨fun e he => ?_, fun v => ⟨by simp only [State.checkList, show entryCodes ([9, 0xFF] ++ zeroBytes 14) = false by decide +kernel]; simp,
    by simp only [State.checkList, show entryCodes ([2, 0xFF] ++ zeroBytes 14) = true by decide +kernel,
      show leAt ([2, 0xFF] ++ zeroBytes 14) 8 4 = 0 by decide +kernel]; simp⟩, _, by rfl⟩
  have key : ∀ e ∈ [[9, 0xFF] ++ zeroBytes 14, [2, 0xFF] ++ zeroBytes 14], ((listAt e).touchPath .caller).mem.a.read 0 0 16 = e
      ∧ leAt e 0 1 ≠ 0 ∧ leAt (((listAt e).touchPath .caller).mem.a.read 0 16 16) 0 1 = 0
      ∧ 32 ≤ ((listAt e).touchPath .caller).tierSize 0 ∧ Laws.clean ((listAt e).touchPath .caller) 0
      ∧ ((listAt e).touchPath .caller).bound 1 = true ∧ ((listAt e).touchPath .caller).get CTX_CMD_SLOT = 1
      ∧ ((listAt e).touchPath .caller).get64 CTX_CMD_ARG_LO CTX_CMD_ARG_HI 0 = 0
      ∧ (((listAt e).touchPath .caller).tierSize 0 - 0) / 16 + 1 = 51539607551 + 2 := by
    unfold Laws.clean; decide +kernel
  obtain ⟨h1, h2, h3, h4, h5, h6, h7, h8, h9⟩ := key e he
  refine ⟨h6, h7, h8, ?_⟩
  rw [h9]
  exact list_reads e _ h1 h2 h3 h4 h5

/-- The bound context with a command in progress. -/
def moving (x : SetState) (j : CtxJob) : State := { bound x with ctx := { (bound x).ctx with job := some j } }

theorem meets_ContextsAdmitMove_jobs :
    let e := [2, 0xFF] ++ zeroBytes 2 ++ toBytes 4 1 ++ toBytes 4 1 ++ zeroBytes 4
    let j : CtxJob := ⟨2, 1, [e], []⟩
    let k : CtxJob := ⟨2, 1, [], [0]⟩
    (moving runs j).ctx.job = some j ∧ (moving runs j).ready = true ∧ leAt e 0 1 = 2 ∧ leAt e 2 1 < 2 ∧ leAt e 1 1 = 0xFF
    ∧ ((moving runs k).setSt 0).bound = true ∧ ((moving runs k).setSt 0).atPoint = false ∧ (bound runs).ctx.job = none
    ∧ ((moving { runs with atPoint := true } k).setSt 0).atPoint = true := by decide +kernel

/-- A set that waits in bubble 3. -/
def inBubble : SetState := { runs with run := .waiting, wait := some (4, 9), bubble := some (3, 0x100), pc := 0x108 }

theorem meets_ContextsAdmitMove_lending :
    let s := guested inBubble 1 0 [] []
    let lent : SetState := { runs with slot := 2, lentFrom := some 1, evict := true }
    let t := guested lent 0 0 [(0, inBubble)] [(0, 0)]
    runs.inBubble = none ∧ (s.setSt 0).inBubble = some 3 ∧ s.ready = true ∧ s.moves 0 = false ∧ s.fencedSlot 1 = false
    ∧ s.recField 1 56 8 ≠ 0 ∧ (∃ e ∈ slotOne.bubbles, s.bubbleEntry 1 3 = some e ∧ bit (leAt e 2 1) 0 = true)
    ∧ s.guestFor 1 3 0 = some 2 ∧ (t.setSt 0).lentFrom = some 1 ∧ (t.setSt 0).evict = true ∧ (t.setSt 0).slot = 2
    ∧ (t.slot 1).faulted = false ∧ (t.slot 1).saved.find 0 = some inBubble ∧ t.fab.sent = [] := by decide +kernel

/-- R405: the owner's routine set, lent in a bubble, runs a guest that a LEND binds to it. -/
theorem test_set_lent : gives (.setLent 0) (guested inBubble 1 0 [] []) fun t =>
    decide ((t.setSt 0).slot = 2 ∧ (t.setSt 0).lentFrom = some 1 ∧ ((t.slot 1).saved.find 0).isSome = true) := by decide +kernel

/-! ### The journal and the dance card -/

/-- A span of 32 pages of tier A, with every right. -/
def spanWide : List Byte := toBytes 8 0 ++ toBytes 4 32 ++ toBytes 1 15 ++ toBytes 3 0 ++ toBytes 8 0 ++ toBytes 8 0

/-- The bound context with an extent of 8 blocks, its journal of some blocks at its start, and what the journal keeps. -/
def journals (on blocks : Nat) (e : Enc) : State :=
  let s := ((((bound runs).setF CTX_S_EXT_BLOCKS 1 0 8).set ENC_JRN_ENABLE on).set ENC_JRN_SLOT 1).set ENC_JRN_BLOCKS blocks
  { s with
    enc := e
    ctx := { s.ctx with ownerA := (List.range 32).map fun k => (k, 5) }
    fab := { s.fab with xlate := List.replicate 4 [(1, spanWide)] } }

theorem meets_JournalReplay_switch :
    let u := (journals 1 2 Enc.init).touchPath .caller
    let off := (journals 0 2 Enc.init).touchPath .caller
    let far := (journals 0 9 Enc.init).touchPath .caller
    (journals 1 2 Enc.init).reached .caller (ENC_JRN_ENABLE.addr 0 0) ∧ u.get ENC_JRN_ENABLE = 1 ∧ u.get ENC_JRN_SLOT = 1
    ∧ ((journals 1 2 { Enc.init with active := true }).touchPath .caller).enc.active = true ∧ u.enc.active = false
    ∧ off.get ENC_JRN_ENABLE = 0 ∧ (let v := ((off.journalOff.set ENC_JRN_SLOT 1).stagingOk 1)
      v.1 = true ∧ v.2.getF CTX_S_STATE 1 0 ≠ 0 ∧ v.2.get ENC_JRN_OFFSET + v.2.get ENC_JRN_BLOCKS ≤ v.2.getF CTX_S_EXT_BLOCKS 1 0
      ∧ v.2.get ENC_JRN_BLOCKS ≤ 67108864 ∧ v.2.get MEM_C_STATE = 1 ∧ v.2.get ENC_JRN_BLOCKS ≠ 0 ∧ v.2.get ENC_JRN_STATE ≠ 2)
    ∧ (let v := ((far.journalOff.set ENC_JRN_SLOT 1).stagingOk 1).2
      v.getF CTX_S_EXT_BLOCKS 1 0 < v.get ENC_JRN_OFFSET + v.get ENC_JRN_BLOCKS)
    ∧ ((((off.set MEM_C_STATE 0).journalOff.set ENC_JRN_SLOT 1).stagingOk 1).2).get MEM_C_STATE ≠ 1 := by
  unfold State.reached; decide +kernel

theorem meets_JournalReplay_flush :
    let r : JRec := ⟨1, 0, 0, 0, 0, 0, 0, zeroBytes 8⟩
    let fin : JRec := ⟨0x0B, 0, 0, 0, 0, 0, 0, []⟩
    let big : JRec := ⟨3, 0, 0, 0, 0, 0, 0, zeroBytes 4096⟩
    let s (r : JRec) := journals 1 1 { Enc.init with staged := [r] }
    ready.enc.staged = [] ∧ (s r).ready = true ∧ (s r).enc.staged = [r] ∧ (s r).enc.stopped = false ∧ r.type ≠ 0x0B
    ∧ ((s r).enc.tail ++ r.bytes).length < 4096 ∧ (s r).enc.used + 1 ≤ (s r).get ENC_JRN_BLOCKS ∧ (s r).get MEM_C_STATE = 1
    ∧ (s big).enc.held = [] ∧ (s big).get ENC_JRN_BLOCKS < ((s big).enc.tail ++ big.bytes).length / 4096 + 1
    ∧ ((s fin).enc.tail ++ fin.bytes).length ≤ 4096 := by decide +kernel

/-- A journal of two blocks whose ring holds step 0: its beginning and its end. -/
def recorded : State := { journals 0 2 Enc.init with tierC := { ready.tierC with bytes := [(0, 1), (4, 8), (64, 0x0B)] } }

theorem meets_JournalReplay_replay :
    let u := recorded.touchPath .caller
    recorded.reached .caller (ENC_CMD.addr 0 0) ∧ u.get ENC_BUSY = 0 ∧ u.get ENC_JRN_SLOT = 1 ∧ u.getF CTX_S_STATE 1 0 ≠ 0
    ∧ u.get ENC_REPLAY_FIRST ≤ u.get ENC_REPLAY_LAST ∧ u.ringRec 1 0 = some ⟨1, 0, 0, 0, 0, 0, 0, zeroBytes 8⟩
    ∧ attemptsOk (u.getF CTX_S_JOB 1 0) (toBytes 8 (u.recField 1 16 8)) 0 0 0 false (u.ringRecs 1 0 128 0) = true
    ∧ (u.set ENC_REPLAY_FIRST 1).get ENC_REPLAY_LAST < (u.set ENC_REPLAY_FIRST 1).get ENC_REPLAY_FIRST
    ∧ ((journals 0 2 Enc.init).touchPath .caller).ringRec 1 0 = none ∧ ((recorded.set ENC_BUSY 1).touchPath .caller).get ENC_BUSY = 1 := by
  unfold State.reached; decide +kernel

/-- A dance card with some records. -/
def dances (d : Dcd → Dcd) : State := { ready with dcd := d ready.dcd }

/-- A record with a number. -/
def rec_ (n : Nat) : Rec := ⟨n, 0, RT_DROOP, .management, 11, 0, 0, 0, [1, 2]⟩

theorem meets_DanceCard :
    let s := dances fun d => { d with recs := [rec_ 1, rec_ 2], nextSeq := 3, queueM := [rec_ 0] }
    let drop := dances fun d => { d with dropPending := 1 }
    s.callerOn = true ∧ drop.dcd.dropPending ≠ 0 ∧ drop.dcd.used + 64 ≤ 16777216 ∧ s.dcd.dropPending = 0
    ∧ s.dcd.queueM ++ s.dcd.queueC ++ s.dcd.queueD = [rec_ 0] ∧ s.dcd.used + (rec_ 0).length ≤ 16777216
    ∧ s.reached .caller 0x5001C ∧ s.dcd.recs = [rec_ 1] ++ rec_ 2 :: [] ∧ s.dcd.nextSeq ≤ 9 ∧ s.dcd.firstSeq ≤ 9 ∧ 0 < s.dcd.firstSeq
    ∧ s.reached .caller 0x50024 ∧ ((s.setPath .caller { s.path .caller with seek := some 2 }).path .caller).seek = some 2
    ∧ (s.path .caller).seek = none ∧ s.reached .caller 0x50030 ∧ (s.touchPath .caller).dcd.loading = none
    ∧ (dances fun d => { d with loading := some 1 }).dcd.loading = some 1 ∧ ready.archives[1 - 1]? = none := by
  unfold State.reached; decide +kernel

/-- A card that cannot hold one more record. -/
theorem meets_DanceCard_full : ∃ k, let big : Rec := ⟨1, 0, RT_DROOP, .management, 11, 0, 0, 0, List.replicate k 0⟩
    16777216 < (dances fun d => { d with recs := [big], queueM := [rec_ 0] }).dcd.used + (rec_ 0).length := by
  have h : ∀ k, k = 2097147 → let big : Rec := ⟨1, 0, RT_DROOP, .management, 11, 0, 0, 0, List.replicate k 0⟩
      16777216 < (dances fun d => { d with recs := [big], queueM := [rec_ 0] }).dcd.used + (rec_ 0).length := fun k hk => by
    simp only [dances, Dcd.used, recsBytes, List.foldl_cons, List.foldl_nil, Rec.length, List.length_replicate, rec_]
    simp
    omega
  exact ⟨2097147, h _ rfl⟩

/-- R454: a record waits, is accepted with the next number and the Caller's count. -/
theorem test_record_accept : gives .recordAccept (dances fun d => { d with queueM := [rec_ 0], nextSeq := 7 }) fun t =>
    decide (t.dcd.recs.map (fun r => r.seq) = [7] ∧ t.dcd.nextSeq = 8 ∧ t.dcd.queueM = []) := by decide +kernel

/-! ### Power -/

/-- A ready module in a power mode, with a transition in progress. -/
def powered (m : PowerMode) (t : Option Transition) : State := { ready with pwr := { ready.pwr with mode := m, trans := t } }

/-- The same with its die 0 at some temperature and set to throttle at 90, to alert at 95 and to release 5 below. -/
def warmed (v level : Nat) : State :=
  let s := (((ready.set PWR_THROTTLE_C 90).set PWR_ALERT_C 95).set PWR_HYSTERESIS_C 5).set PWR_POWER_LIMIT_W 1000
  (s.setF PWR_D_JUNCTION 0 0 v).set PWR_LEVEL level

theorem meets_PowerStatesAndPins_commands :
    let u (m : PowerMode) := (powered m none).touchPath .caller
    let bound1 := (ready.setF CTX_S_STATE 1 0 2).touchPath .caller
    ready.reached .caller 0x10000 ∧ ((ready.set PWR_TRANSITION 1).touchPath .caller).get PWR_TRANSITION = 1
    ∧ (∀ m ∈ [PowerMode.on, .standby], (u m).get PWR_TRANSITION = 0 ∧ (u m).ready = true ∧ (u m).onlyContext0 = true ∧ (u m).pwr.mode = m)
    ∧ bound1.onlyContext0 = false ∧ (u .on).get MEM_C_STATE = 1 ∧ ((ready.set MEM_C_STATE 0).touchPath .caller).get MEM_C_STATE ≠ 1 := by
  unfold State.reached; decide +kernel

theorem meets_PowerStatesAndPins_transitions :
    ready.pwr.trans = none ∧ (∀ t ∈ [Transition.toStandby, .toRun, .toDormant], (powered .on (some t)).pwr.trans = some t)
    ∧ ready.links.outbox = [] ∧ (ready.set MOD_PHASE 3).ready = false
    ∧ ready.ready = true ∧ (ready.set PWR_IDLE_EN 1).get PWR_IDLE_EN = 1 ∧ ready.get MOD_POWER = 0 ∧ ready.setsQuiet = true
    ∧ (ready.set MOD_POWER 1).get MOD_POWER = 1 ∧ ((ready.set MOD_POWER 1).set PWR_IDLE_EN 0).get PWR_IDLE_EN = 0 := by decide +kernel

theorem meets_PowerStatesAndPins_links : ∀ L < 192, (powered .on (some .toStandby)).getF LNK_L_LINK_STATE L 0 = 0 := by decide +kernel

theorem meets_PowerStatesAndPins_pins :
    let p (m e : Bool) (o : PowerMode) : State := { powered o none with pins := { ready.pins with mated := m, pwrEn := e } }
    (p true true .off).pins.mated = true ∧ (p true true .off).pins.pwrEn = true ∧ (p true true .off).pwr.mode = .off
    ∧ (p false false .off).pins.mated = false ∧ (p true false .off).pins.pwrEn = false ∧ (p true true .dormant).pwr.mode = .dormant
    ∧ (powered .on (some .toDormant)).pwr.mode ≠ .dormant ∧ (p true true .on).pwr.mode ≠ .off ∧ (p true true .on).pwr.mode ≠ .latched := by
  decide +kernel

theorem meets_ThermalPowerDroopAndClock :
    let hot := warmed 9600 0
    let on := { ready with pwr := { ready.pwr with thermal := [3, 0, 0, 0] } }
    let dr := { ready with pwr := { ready.pwr with drooping := 1, droopRec := [some 0, none, none, none] } }
    ready.callerOn = true ∧ (powered .dormant none).callerOn = false ∧ signed 16 9500 ≥ 100 * (hot.get PWR_ALERT_C : Int)
    ∧ hot.get PWR_ALERT = 0 ∧ ¬ signed 16 9499 ≥ 100 * (hot.get PWR_ALERT_C : Int) ∧ hot.get PWR_POWER_LIMIT_W = 1000
    ∧ ready.dieOn 0 = true ∧ State.reset.dieOn 0 = false ∧ max (on.pwr.thermal.getD 0 0) on.pwr.power = 3 ∧ on.level 0 = 0
    ∧ (warmed 8499 0).junction 0 < 100 * (((warmed 8499 0).get PWR_THROTTLE_C : Int) - ((warmed 8499 0).get PWR_HYSTERESIS_C : Int))
    ∧ ¬ (warmed 8500 0).junction 0 < 100 * (((warmed 8500 0).get PWR_THROTTLE_C : Int) - ((warmed 8500 0).get PWR_HYSTERESIS_C : Int))
    ∧ ((warmed 0 0).set PWR_ALERT 1).get PWR_ALERT = 1 ∧ ((warmed 0 0).set PWR_ALERT 1).get PWR_TRIPPED = 0
    ∧ (∀ k < 4, (warmed 0 0).junction k < 100 * (((warmed 0 0).get PWR_ALERT_C : Int) - ((warmed 0 0).get PWR_HYSTERESIS_C : Int)))
    ∧ (powered .standby none).pwr.mode ≠ .on ∧ (ready.set PWR_TRIPPED 1).get PWR_TRIPPED = 1 ∧ ready.get HNG_PWRCYC_REQ = 0
    ∧ bit dr.pwr.drooping 0 = true ∧ ¬ 0 + 225000 ≤ dr.callerCycles ∧ ready.pwr.droopRec.getD 0 none = none ∧ ready.ready = true := by
  decide +kernel

/-- R519: a sample at the alert level sets ALERT and raises the thermal level. -/
theorem test_alert : gives (.tempSample (.die 0) 9500) (warmed 0 0) fun t =>
    decide (t.get PWR_ALERT = 1 ∧ t.pwr.thermal = [1, 0, 0, 0] ∧ t.getF PWR_D_JUNCTION 0 0 = 9500) := by decide +kernel

/-- R523: an input power above the limit raises the power level. -/
theorem test_power_over : gives (.powerSample 48000 1001) (warmed 0 0) (fun t => decide (t.pwr.power = 1))
    ∧ exec (.powerSample 60001 1) ready = .fault .outsideOperatingConditions := ⟨by decide +kernel, by rfl⟩

/-! ### Management -/

/-- A powered module with an image byte of the management section, or none. -/
def managed (m : Mgmt) : State := { ready with mgmt := m }

theorem meets_ManagementQueriesSensorsAndEvents :
    let ev : PldmEvent := .threshold 1 1
    ready.callerOn = true ∧ (powered .off none).callerOn = false ∧ ready.mgmt.dynAddr = none
    ∧ (managed { Mgmt.init with dynAddr := some 9 }).mgmt.dynAddr ≠ none ∧ ready.img 0x0E 0 1 = 0 ∧ ready.img 0x0E 1 1 = 0
    ∧ ready.img 0x0E 2 1 = 0 ∧ (ready.set PWR_TRANSITION 1).get PWR_TRANSITION = 1 ∧ ready.get PWR_TRANSITION = 0
    ∧ (powered .standby none).pwr.mode = .standby ∧ ready.pwr.mode = .on ∧ ready.ready = true ∧ ready.onlyContext0 = true
    ∧ (ready.setF CTX_S_STATE 1 0 2).onlyContext0 = false ∧ ready.mgmt.heldEv = []
    ∧ (managed { Mgmt.init with heldEv := [(4, ev)] }).mgmt.heldEv = (4, ev) :: []
    ∧ (managed { Mgmt.init with sent := [(4, ev, 7)] }).mgmt.sent = [(4, ev, 7)]
    ∧ (managed { Mgmt.init with sent := [(4, ev, 8)] }).mgmt.sent = [(4, ev, 8)] ∧ ready.mgmt.sent = [] := by decide +kernel

/-- A powered module in recovery hold, whose staging window the Caller owns, in a phase of an update. -/
def updating (f : FwPhase) (ok busy result : Nat) (prog : Bool) : State :=
  let s := (((ready.set MOD_PHASE 2).set CFG_STAGED_OK ok).set CFG_BUSY busy).set CFG_RESULT result
  { s with boot := { s.boot with owner := some .caller }, mgmt := { Mgmt.init with fw := f, fwSize := 8192, programmed := prog } }

theorem meets_AttestationAndFirmwareUpdate :
    let u := ready.touchPath .caller
    let n : List Word := [1, 2]
    ready.reached .caller 0x30004 ∧ (u.path .caller).signing = none ∧ ready.get SEC_ATTEST_MODE = 0
    ∧ (ready.set SEC_ATTEST_MODE 1).get SEC_ATTEST_MODE ≠ 0 ∧ (zeroBytes 64).length = 64
    ∧ ((ready.setPath .caller { ready.path .caller with signing := some n }).path .caller).signing = some n
    ∧ ready.callerOn = true ∧ ready.boot.owner = none ∧ ready.inHold = false ∧ ready.ready = true ∧ ready.onlyContext0 = true
    ∧ (updating .idle 0 0 0 false).inHold = true ∧ (updating .requested 0 0 0 false).mayStage .caller = true
    ∧ (∀ f ∈ [FwPhase.idle, .requested, .transferring, .transferred, .verified, .applied], (updating f 1 0 0 true).mgmt.fw = f
      ∧ (updating f 1 0 0 true).get CFG_BUSY = 0 ∧ (updating f 1 0 0 true).get CFG_STAGED_OK = 1 ∧ (updating f 1 0 0 true).get CFG_RESULT = 0)
    ∧ (updating .transferred 0 0 0 false).get CFG_STAGED_OK = 0 ∧ (updating .verified 1 0 5 true).get CFG_RESULT ≠ 0
    ∧ (updating .verified 1 1 0 true).get CFG_BUSY = 1 ∧ (updating .applied 0 0 0 false).mgmt.programmed = false := by
  unfold State.reached; decide +kernel

/-- R533: firmware data of an update goes to the staging window, and the next piece is asked for. -/
theorem test_firmware_data : gives (.requestFirmwareData 0 [7, 9]) (updating .transferring 0 0 0 false) fun t =>
    decide (t.boot.staging.get 0 1 = 9 ∧ t.out.head? = some (.firmwareRequest 2 4096)) := by decide +kernel

/-- R531: the first sensor reads the junction of die 0. -/
theorem test_sensor_reading : gives (.getSensorReading 1) (warmed 4321 0) fun t =>
    decide (t.out.head? = some (.reply (.reading 1 4321))) := by decide +kernel

end Sys2Proof.Tests
end

/-! ## A step on an empty queue: one CALLCLK cycle of the Caller (R36, R454) -/

namespace Sys2Proof.Machine

/-- With no command waiting a step is one CALLCLK cycle (log entry 1). -/
theorem step_of_pending_nil {s : State} (hq : s.pending = []) : step s = .next s.callclk := by
  simp only [step, hq]

/-- Without power the Caller has no clock (R511). -/
theorem callclk_of_callerOff {s : State} (hoff : s.callerOn = false) : s.callclk = s := by
  simp only [State.callclk, hoff, Bool.not_false, if_true]

/-- The port has no record to serve when the queues of all three planes are empty (R28). -/
theorem takeRec_of_queues_nil {s : State} (hm : s.dcd.queueM = []) (hc : s.dcd.queueC = []) (hd : s.dcd.queueD = []) :
    s.takeRec = none := by
  simp only [State.takeRec, hm, hc, hd]

/-- A cycle in which the port has nothing to accept, neither a DROP_NOTE nor a record, only counts (R36, R454, R455). -/
theorem callclk_of_portIdle {s : State} (hon : s.callerOn = true) (hm : s.dcd.queueM = []) (hc : s.dcd.queueC = [])
    (hd : s.dcd.queueD = []) (hdrop : s.dcd.dropPending = 0) :
    s.callclk = { s with callerCycles := (s.callerCycles + 1) % 2 ^ 64 } := by
  have htake : ({ s with callerCycles := (s.callerCycles + 1) % 2 ^ 64 } : State).takeRec = none :=
    takeRec_of_queues_nil hm hc hd
  simp only [State.callclk, hon, hdrop, htake, Bool.not_true, Bool.false_eq_true, ne_eq, not_true_eq_false, false_and, if_false]

/-- Settles O2: an empty queue leaves the step to `State.callclk`, which does nothing without power and only counts when the
port is idle. -/
theorem emptyQueuePassesACallerCycle : Obligations.EmptyQueuePassesACallerCycle := by
  intro s hq
  refine ⟨⟨s.callclk, step_of_pending_nil hq⟩, fun hoff => ?_, fun hon hm hc hd hdrop => ?_⟩
  · rw [step_of_pending_nil hq, callclk_of_callerOff hoff]
  · rw [step_of_pending_nil hq, callclk_of_portIdle hon hm hc hd hdrop]

end Sys2Proof.Machine
